-- ==== Sys2Proof/Word.lean ====
section
/-! DEFINITION. The word types of the OV1024: bytes, 32-bit register words and 48-bit Tide counts (00 R6, R7; 10 R367). -/

namespace Sys2Proof

/-- One byte. -/
abbrev Byte := BitVec 8

/-- A register word of the host address map, or one half of a slate storage word. -/
abbrev Word := BitVec 32

/-- A slate storage word, or a Gralon instruction word. -/
abbrev DWord := BitVec 64

/-- A Tide count, or any time on the Tide (R367). -/
abbrev Tick := BitVec 48

end Sys2Proof
end

