-- ==== Sys2Proof/Syntax.lean ====
section
/-! DEFINITION. The commands of the block: one constructor of `Instr` for every row of spec/opcode_table.json, in the
table's order, with the operands the row's happening brings from outside. -/

namespace Sys2Proof

/-- A mailbox command (R59): the parts of its header that its meaning reads, and its payload bytes. The OPCODE is the
constructor. -/
structure Cmd where
  tag : BitVec 16
  noReply : Bool
  urgent : Bool
  due : Bool
  dueTime : Tick
  payload : List Byte
  deriving DecidableEq, Repr

/-- An event record (R172), field by field. VALUE and VALUE2 are kept as 32-bit words. -/
structure EventRecord where
  type : Byte
  flags : Byte
  port : Byte
  note : Byte
  target : BitVec 16
  noteId : BitVec 16
  value : Word
  dueTime : Tick
  seq : BitVec 16
  value2 : Word
  deriving DecidableEq, Repr

/-- What the other port of a slate bank does to the same storage word in the same FABRIC cycle (R350). -/
inductive OtherPort where
  | none
  | read
  | write (data : DWord)
  deriving DecidableEq, Repr

/-- What the other port does in the two cycles of an access that reads its storage word and then writes one (R343, R349, R350). -/
structure TwoCycles where
  first : OtherPort
  second : OtherPort
  deriving DecidableEq, Repr

/-- What befalls one word of a read through the slate window (R44, R348, R350): what port A does to its storage word in that
cycle, and the bits of the storage word, 64 of data and 8 check bits above them, that have flipped. A word elsewhere meets
nothing. -/
structure SlateHit where
  portA : OtherPort
  upset : BitVec 72
  deriving DecidableEq, Repr

/-- A host word, or the address of a host read, and the bits that hardware sets in its cycle (R10, R11). -/
structure Meeting where
  word : Word
  sets : Word
  deriving DecidableEq, Repr

/-- The core whose handler ends, and the record that the handler posts as it ends (R198, R605). -/
structure HandlerEnd where
  core : Nat
  post : Option EventRecord
  deriving DecidableEq, Repr

/-- What the SEC-DED or link ECC finds in the word read (R227, R251, R579). -/
inductive Ecc where
  | clean
  | single
  | double
  deriving DecidableEq, Repr

/-- A port-A access to slate (R341, R343, R345). -/
inductive SlateOp where
  | read32
  | read64
  | write32 (data : Word)
  | write64 (data : DWord)
  deriving DecidableEq, Repr

/-- What a receive pin shows of one character (R418 to R423): its level at each sample tick up to the decision of the character, and
for autobaud the SER cycles from the fall of the start bit to each later edge. -/
structure SerChar where
  samples : List Bool
  edges : List Nat
  deriving DecidableEq, Repr

/-- A received Ethernet frame (R448, R452): what the MAC found and what it carries. Addresses hold octet 0 in bits 7:0. -/
structure NetFrame where
  symbolError : Bool
  length : Nat
  fcsGood : Bool
  dst : BitVec 48
  src : BitVec 48
  etype : BitVec 16
  payload : List Byte
  /-- Tide ticks since the MAC saw the timestamp point (R453). -/
  age : Nat
  deriving DecidableEq, Repr

/-- What firmware forms from a Sync (R460): an offset estimate in nanoseconds and the anchor to commit. -/
structure PtpEstimate where
  offsetNs : Int
  tide : Tick
  net : Tick
  rate : Word
  deriving DecidableEq, Repr

/-- A JOURNAL entry (R508): the address, the data and the boundary of one logged write. -/
structure JournalEntry where
  address : Word
  data : Word
  boundary : Tick
  deriving DecidableEq, Repr

/-- A piece of copied state (R507, R511): words of the host address map (registers, the slate window, and in CHECKING the values
compared, and the model's own addresses of what the map does not hold), bytes of LPDDR5, words of a core's X (0) or Y (1) memory, a
core's registers by the selectors of R311 in ascending order with its staged returns, control and line words, next address and line
places, a channel bank (128 controllers, pressure, bend), a global
LFO (accumulator, generator, h, h_prev, fade count, output), and the 4 KiB of a voice. The spec gives no layout of COPY
payloads (notes/assumptions/20.md). -/
inductive CopyItem where
  | words (address : Word) (data : List Word)
  | lpddr (address : Nat) (bytes : List Byte)
  | coreData (core : Nat) (space : Nat) (first : Nat) (data : List Word)
  | coreRegs (core : Nat) (regs : List Word) (staged : List Word)
  | bank (bank : Nat) (values : List Int)
  | globalLfo (lfo : Nat) (values : List Int)
  | voice (voice : Nat) (bytes : List Byte)
  deriving DecidableEq, Repr

/-- A MIRROR entry (R504, R505): a mirrored register write with its boundary, a mirrored command, or the code that a
DIRECT DAC channel of the primary applied. -/
inductive MirrorEntry where
  | write (address : Word) (data : Word) (boundary : Tick)
  | command (opcode : BitVec 16) (payload : List Byte) (boundary : Tick)
  | dacCode (channel : Nat) (code : BitVec 16)
  deriving DecidableEq, Repr

/-- The commands of the block, one constructor per row of the table. -/
inductive Instr where
  | sampleBoundary
  | slotStart (lane : Nat)
  | slotComplete (lane : Nat)
  | tdmFrameStart
  | retiringBanksReturn (table : Nat)
  | write (addr : Word) (words : List Word) (partialBytes : Nat)
  | read (addr : Word) (words : List SlateHit) (hsckPs : Nat)
  | readStatus (count : Nat)
  | readId (count : Nat)
  | portReset
  | badOpcode (op : Byte)
  | hcsnRise
  | writeRetire
  | i2cWrite (target : BitVec 7) (addr : Word) (words : List Word) (partialBytes : Nat)
  | i2cRead (target : BitVec 7) (addr : Word) (words : List SlateHit)
  | registerWrite (addr : Word) (value : Word)
  | lpddrWindowAccess (addr : Word) (value : Option Word)
  | slateWindowWrite (addr : Word) (value : Word) (portA : TwoCycles)
  | mailboxWrite (addr : Word) (value : Word)
  | hifDoorbellIn (value : Word)
  | hifDoorbellOut (value : Word)
  | commandTake
  | dueCommandEffect
  | ping (c : Cmd)
  | getInfo (c : Cmd)
  | setMode (c : Cmd)
  | modeChange
  | postEvents (c : Cmd)
  | grant (c : Cmd)
  | rollcallQuery (c : Cmd)
  | reset (c : Cmd)
  | enableWrite (addr : Word) (value : Word)
  | rollcallCheck
  | silenceVoices (key : Byte)
  | clearEvents (key : Byte)
  | stopBdsp (key : Byte)
  | stopStreams (key : Byte)
  | muteOutputs (key : Byte)
  | cancelCommands (key : Byte)
  | stopTbld (key : Byte)
  | proctorRestart (key : Byte)
  | abortDone
  | bootDone
  | setTuning (c : Cmd)
  | setTuningTable (c : Cmd)
  | setNoiseSeed (c : Cmd)
  | voiceBeatOriginHi (value : Word)
  | modWrite (c : Cmd)
  | modWriteNote (c : Cmd)
  | setHparam (c : Cmd)
  | setTempo (c : Cmd)
  | setGlobalLfo (c : Cmd)
  | setSmooth (c : Cmd)
  | noteOn (r : EventRecord)
  | voiceArm (voice : Nat)
  | handOff (victim : Nat)
  | noteOff (r : EventRecord)
  | polyPressure (r : EventRecord)
  | noteBend (r : EventRecord)
  | noteCtrl (r : EventRecord)
  | controller (r : EventRecord)
  | channelPressure (r : EventRecord)
  | pitchBend (r : EventRecord)
  | modWriteRecord (r : EventRecord)
  | cancel (r : EventRecord)
  | allNotesOff (r : EventRecord)
  | allSoundOff (r : EventRecord)
  | work (r : EventRecord)
  | rollDispatch
  | handlerComplete (final : HandlerEnd)
  | evtcoreHang (core : Nat)
  | bellTick
  | producerAdmit
  | patchWrite (c : Cmd)
  | patchLoad (c : Cmd)
  | classSet (c : Cmd)
  | classEnable (c : Cmd)
  | ruleWrite (c : Cmd)
  | setReserve (c : Cmd)
  | patchSwap (c : Cmd)
  | setSched (c : Cmd)
  | setTrace (c : Cmd)
  | getSchedStat (c : Cmd)
  | tableDefine (c : Cmd)
  | tableBuild (c : Cmd)
  | buildStart
  | buildComplete
  | tableCommit (c : Cmd)
  | tableFree (c : Cmd)
  | tableStatus (c : Cmd)
  | librarySet (c : Cmd)
  | libraryLoad (c : Cmd)
  | libraryLoadDone (errorAt : Option Nat)
  | streamConfig (c : Cmd)
  | streamEnable (c : Cmd)
  | sampleMapBegin (c : Cmd)
  | sampleMapZones (c : Cmd)
  | sampleMapSeal (c : Cmd)
  | sealCopyDone
  | sampleMapFree (c : Cmd)
  | streamFetchIssue
  | streamChunkArrive (ecc : Ecc)
  | mixSetOut (c : Cmd)
  | mixSetLive (c : Cmd)
  | mixSetReturn (c : Cmd)
  | mixSetCtrl (c : Cmd)
  | mixGetStat (c : Cmd)
  | mixCksumRead
  | rcCounterRead (meet : Meeting)
  | passStart (core : Nat)
  | bdspPassOverrun (core : Nat)
  | parallelWord (core : Nat)
  | jump (core : Nat)
  | call (core : Nat)
  | ret (core : Nat)
  | loop (core : Nat)
  | endloop (core : Nat)
  | ldi (core : Nat)
  | movr (core : Nat)
  | far (core : Nat)
  | farLoadComplete (core : Nat)
  | wait (core : Nat)
  | swi (core : Nat)
  | rti (core : Nat)
  | sha (core : Nat)
  | interruptTake (core : Nat)
  | bdspIrq (core : Nat) (value : Word)
  | bdspLoadBegin (c : Cmd)
  | bdspLoadProg (c : Cmd)
  | bdspLoadEnd (c : Cmd)
  | bdspWriteData (c : Cmd)
  | bdspReadData (c : Cmd)
  | bdspRun (c : Cmd)
  | bdspSetParam (c : Cmd)
  | bdspSetLine (c : Cmd)
  | bdspStatus (c : Cmd)
  | slateAccess (req : Nat) (offset : Nat) (op : SlateOp) (other : TwoCycles) (upset : BitVec 72)
  | atomicAdd (req : Nat) (offset : Nat) (value : Word) (portB : TwoCycles)
  | atomicSwap (req : Nat) (offset : Nat) (value : Word) (portB : TwoCycles)
  | eccWriteBack (portA : OtherPort)
  | ownerChange (bank : Nat)
  | slateHandover (c : Cmd)
  | slatePin (c : Cmd)
  | slateEscort (c : Cmd)
  | escortTransfer (portA : TwoCycles)
  | slateSetCommons (c : Cmd)
  | slateStatus (c : Cmd)
  | bgSliceStart
  | bgSliceRelease (failed : Bool)
  | fuseLoadDone
  | tideStart
  | tideWrap
  | tideLoRead (requester : Nat)
  | tideBoundLoRead (requester : Nat)
  | tideCmp (channel : Nat)
  | pulseEnd (pin : Nat)
  | compareWrite (addr : Word) (value : Word)
  | compareWriteArrive (ticks : Nat)
  | tioPinEdge (pin : Nat) (level : Bool)
  | tideCap (channel : Nat)
  | tideCapLoRead (channel : Nat) (requester : Nat)
  | bellCfg (value : Word)
  | debugHalt
  | tideGet (c : Cmd)
  | tideArm (c : Cmd)
  | tideSetPost (c : Cmd)
  | tideSetCapture (c : Cmd)
  | tioSet (c : Cmd)
  | bellSet (c : Cmd)
  | sourceProven (source : Nat)
  | activityDetectorTrip (source : Nat)
  | monitorWindow (xa : Nat) (xb : Nat) (mclk : Nat)
  | pllHoldover (pll : Nat)
  | pllUnlock (pll : Nat)
  | pllLock (pll : Nat)
  | clkForcedSwitch (pll : Nat)
  | ircFail
  | cprIrcTrim (value : Word)
  | cprClkCfg (value : Word)
  | clockSetRef (c : Cmd)
  | clockRestore (c : Cmd)
  | clockStatus (c : Cmd)
  | memConfig (c : Cmd)
  | serCharacter (port : Nat) (ch : SerChar)
  | serTxCharacter (port : Nat)
  | serTxdata (port : Nat) (value : Word)
  | serRxdata (port : Nat)
  | midiMessage (port : Nat)
  | senseTimeout (port : Nat)
  | serConfig (c : Cmd)
  | serSend (c : Cmd)
  | usbReset (highSpeed : Bool)
  | usbSuspend
  | usbOutFrame (samples : List Int)
  | usbFeedback (measured : Nat)
  | usbMidiPacket (words : List Word)
  | usbRateRequest (hz : Nat)
  | endpointDiscovery
  | dfuDetach
  | dfuDownload (bytes : List Byte)
  | dfuManifest
  | usbEnable (c : Cmd)
  | usbSendMidi (c : Cmd)
  | serUsbStatus (c : Cmd)
  | netFrameReceive (port : Nat) (f : NetFrame)
  | netFrameRelease (port : Nat)
  | netFrameTransmit (port : Nat) (collision : Bool)
  | beacon (port : Nat)
  | plcaBeaconTimeout (port : Nat)
  | bucketToken (port : Nat)
  | ptpSync (ident : DWord) (est : PtpEstimate)
  | followUp (ident : DWord)
  | announce (ident : DWord)
  | delayResp (ident : DWord)
  | delayReq
  | ptpLost
  | netRate (value : Word)
  | netListenDone (port : Nat) (conflict : Bool)
  | netConfig (c : Cmd)
  | netFilterAdd (c : Cmd)
  | netFilterRemove (c : Cmd)
  | netSetHash (c : Cmd)
  | netPtpConfig (c : Cmd)
  | netSendEvents (c : Cmd)
  | netStatus (c : Cmd)
  | dacStrobe (value : Word)
  | ldacnFall
  | dacDisconnect (channel : Nat)
  | dacRangeWrite (channel : Nat) (range : BitVec 2)
  | dacRangeDone (channel : Nat)
  | dacFault (channel : Nat)
  | tdmFrameErr (port : Nat)
  | spdifLock (rate : Nat) (nonPcm : Bool)
  | spdifUnlock
  | asrcLock (pair : Nat)
  | asrcUnlock (pair : Nat)
  | dacConfig (c : Cmd)
  | dacSetRange (c : Cmd)
  | dacLoad (c : Cmd)
  | dacSetGroup (c : Cmd)
  | portConfig (c : Cmd)
  | aoutStatus (c : Cmd)
  | ferryLinkUp
  | ferryLinkDown
  | frameReplay
  | event (records : List EventRecord)
  | cksum (boundary : Tick) (crc : Word)
  | status (role : Nat) (state : Nat) (boundary : Tick) (rev : Nat) (release : Nat)
  | journal (entries : List JournalEntry)
  | copy (item : CopyItem)
  | mirror (entries : List MirrorEntry)
  | abort (func : BitVec 7)
  | land (boundary : Tick)
  | align (pairCount : Tick)
  | alignHoldDone
  | voiceSweep (voice : Nat)
  | crossingTimeout
  | autoBoardRetry
  | heartbeat
  | peerHeartbeatLost
  | fryFaultn
  | outputGuard
  | ferrySetRole (c : Cmd)
  | ferryBoard (c : Cmd)
  | ferryLand (c : Cmd)
  | ferryHash (c : Cmd)
  | ferryStatus (c : Cmd)
  | domainPowerGood (domain : Nat)
  | pdFault (domain : Nat)
  | lpddrTrained
  | lpddrTrainFail
  | thermalWarn (temp : Int)
  | thermalTrip
  | brownoutWarn
  | wdogProctor
  | watchdogSecondExpiry
  | powerOnReset (brownout : Bool)
  | pornRelease (ferryRole : Bool) (bootsel : Bool)
  | systemReset (brownout : Bool)
  | powerSet (c : Cmd)
  | powerStatus (c : Cmd)
  | updateBegin (c : Cmd)
  | updateData (c : Cmd)
  | updateEnd (c : Cmd)
  | flashOperationDone (error : Bool)
  | updateActivate (c : Cmd)
  | updateCancel (c : Cmd)
  | updateStatus (c : Cmd)
  | bootWrite (c : Cmd)
  | bootRun (c : Cmd)
  | bistStart (c : Cmd)
  | bistDone (failing : Word)
  | bistResult (c : Cmd)
  | bgTestSet (c : Cmd)
  | monConfig (c : Cmd)
  | monRead (c : Cmd)
  | laneLoad (c : Cmd)
  | jtagChallenge (c : Cmd)
  | jtagUnlock (c : Cmd)
  | testSnap (value : Word)
  | challenge
  | response (bytes : List Byte)
  | idcode
  | bypass
  | samplePreload
  | extest
  | eventPendingClear (register : Nat) (meet : Meeting)
  | debugHaltRelease
  | systemResetRelease
  | cprApllCfg (value : Word)
  | cprPdOpt (value : Word)
  | lineTapArrive (core : Nat) (line : Nat) (tap : Nat)
  | tdmInputSample (port : Nat) (slot : Nat) (word : Word)
  | tdmSlaveFs (port : Nat)
  | spdifSubframe (channel : Nat) (word : Word) (parityBad : Bool)
  | usbSetConfiguration
  | usbSetInterface (interface : Nat) (alt : Nat)
  | usbResume
  | usbSofTimeout
  | usbInPacket
  | ferryHashDone
  deriving DecidableEq, Repr

end Sys2Proof
end

