-- ==== Sys2Proof/Decode.lean ====
section
/-! DEFINITION. The rows of spec/opcode_table.json give no bits: no word spells a command. -/

namespace Sys2Proof

/-- The command a word spells by the table's bits: the table gives none of its rows bits, so none. -/
def decodeTableWord (_nbits _w : Nat) : Option Instr := none

end Sys2Proof
end

