-- ==== Sys2Proof/Config.lean ====
section
/-! DEFINITION. What the spec leaves open and the model leaves free: opaque constants without a body, so that no proof can
see a value of them (notes/assumptions/2.md). -/

namespace Sys2Proof.Config

/-- A value the spec calls undefined, fresh at each use: applied to the counter `free` of the state (R44, R350, R360). -/
opaque freeWord : Nat → Word

/-- A natural number the spec leaves open, fresh at each use: which open point it is, and the counter `free`. -/
opaque freeNat : Nat → Nat → Nat

/-- A byte of a memory or a fused field whose content the spec leaves open: which memory, and the address. -/
opaque freeByte : Nat → Nat → Byte

/-- A number that the spec bounds but does not state, a function of its operands alone (the exponentials of R84, R98, R132
and R136, the tangent of R136, the sine entries of R102 and R153, the built table entries of R224, the codes of R484): which function, and
its operands. Every use clamps it into the bound the spec gives. -/
opaque approx : Nat → List Int → Int

end Sys2Proof.Config
end

