-- ==== Sys2Proof/Machine/Arith.lean ====
section
/-! DEFINITION. Number helpers every chapter uses: bit fields (R6), byte order (R7), floor and nearest rounding, clamps,
checksums, the noise generator, and the sparse maps that hold registers and memories in one canonical form. -/

namespace Sys2Proof.Machine

/-- Bits hi down to lo of a number (R6). -/
def bitsOf (w hi lo : Nat) : Nat := w / 2 ^ lo % 2 ^ (hi + 1 - lo)

/-- The number with bits hi down to lo replaced by v. -/
def putBits (w hi lo v : Nat) : Nat :=
  w / 2 ^ (hi + 1) * 2 ^ (hi + 1) + v % 2 ^ (hi + 1 - lo) * 2 ^ lo + w % 2 ^ lo

/-- Bit i of a number. -/
def bit (w i : Nat) : Bool := w / 2 ^ i % 2 == 1

/-- 1 for true, 0 for false. -/
def b2n (b : Bool) : Nat := if b then 1 else 0

/-- An n-bit number read as two's complement. -/
def sext (n w : Nat) : Int := if w % 2 ^ n < 2 ^ (n - 1) then (w % 2 ^ n : Nat) else (w % 2 ^ n : Nat) - (2 ^ n : Nat)

/-- The low n bits of an integer, as a natural number. -/
def unsx (n : Nat) (x : Int) : Nat := (x % (2 ^ n : Nat)).toNat

/-- A value clamped into a range. -/
def clamp (lo hi x : Int) : Int := if x < lo then lo else if hi < x then hi else x

/-- Signed saturation to n bits. -/
def satS (n : Nat) (x : Int) : Int := clamp (-(2 ^ (n - 1) : Nat)) ((2 ^ (n - 1) : Nat) - 1) x

/-- x / 2^n rounded to nearest, ties towards plus infinity. -/
def rnd (n : Nat) (x : Int) : Int := if n = 0 then x else (x + (2 ^ (n - 1) : Nat)) / (2 ^ n : Nat)

/-- x / 2^n rounded towards minus infinity. -/
def flr (n : Nat) (x : Int) : Int := x / (2 ^ n : Nat)

/-- Bytes of a number, least significant first (R7). -/
def toLE : Nat → Nat → List Byte
  | 0, _ => []
  | n + 1, v => BitVec.ofNat 8 v :: toLE n (v / 256)

/-- The number that bytes spell, least significant first (R7). -/
def ofLE : List Byte → Nat
  | [] => 0
  | b :: bs => b.toNat + 256 * ofLE bs

/-- n bytes of a list from an offset, read little-endian; bytes past the end count as 0. -/
def leAt (bs : List Byte) (off n : Nat) : Nat := ofLE ((bs.drop off).take n)

/-- A signed little-endian field of a list of bytes. -/
def leAtS (bs : List Byte) (off n : Nat) : Int := sext (8 * n) (leAt bs off n)

/-- One bit step of a reflected CRC. -/
def crcBit (poly c : Nat) : Nat := if c % 2 = 1 then Nat.xor (c / 2) poly else c / 2

/-- One byte of a reflected CRC. -/
def crcByte (poly c : Nat) (b : Byte) : Nat :=
  let c := Nat.xor c b.toNat
  crcBit poly (crcBit poly (crcBit poly (crcBit poly (crcBit poly (crcBit poly (crcBit poly (crcBit poly c)))))))

/-- A reflected CRC-32 over bytes with initial value and final inversion 0xFFFF_FFFF. -/
def crc32With (poly : Nat) (bs : List Byte) : Nat :=
  Nat.xor (bs.foldl (crcByte poly) 0xFFFFFFFF) 0xFFFFFFFF

/-- CRC-32C (Castagnoli). -/
def crc32c (bs : List Byte) : Nat := crc32With 0x82F63B78 bs

/-- The CRC-32 of Ethernet. -/
def crc32 (bs : List Byte) : Nat := crc32With 0xEDB88320 bs

/-- One step of the 32-bit xorshift generator with shifts 13, 17, 5. -/
def xorshift32 (x : Nat) : Nat :=
  let a := Nat.xor x (x * 2 ^ 13 % 2 ^ 32)
  let b := Nat.xor a (a / 2 ^ 17)
  Nat.xor b (b * 2 ^ 5 % 2 ^ 32)

/-- Entry i of a list, or a value where the list is shorter. -/
def nth {α : Type} (d : α) (l : List α) (i : Nat) : α := l.getD i d

/-- A list with entry i changed; unchanged where the list is shorter. -/
def setNth {α : Type} (l : List α) (i : Nat) (v : α) : List α := l.set i v

/-- The entry of a sparse map, or what an unlisted key reads as. -/
def smGet {α : Type} (d : Nat → α) : List (Nat × α) → Nat → α
  | [], k => d k
  | (a, x) :: m, k => if a = k then x else smGet d m k

/-- A sparse map without one key. -/
def smErase {α : Type} (m : List (Nat × α)) (k : Nat) : List (Nat × α) := m.filter (fun e => e.1 != k)

/-- Puts a key that is not listed into its place. -/
def smInsert {α : Type} : List (Nat × α) → Nat → α → List (Nat × α)
  | [], k, v => [(k, v)]
  | (a, x) :: m, k, v => if k < a then (k, v) :: (a, x) :: m else (a, x) :: smInsert m k v

/-- Writes a sparse map, keeping the canonical form: a value equal to what an unlisted key reads as is not listed. -/
def smSet {α : Type} [DecidableEq α] (d : Nat → α) (m : List (Nat × α)) (k : Nat) (v : α) : List (Nat × α) :=
  if v = d k then smErase m k else smInsert (smErase m k) k v

/-- The canonical form: keys strictly rising, no entry equal to what an unlisted key reads as. -/
def smWf {α : Type} [DecidableEq α] (d : Nat → α) : List (Nat × α) → Bool
  | [] => true
  | [(a, x)] => decide (x ≠ d a)
  | (a, x) :: (b, y) :: m => decide (x ≠ d a) && decide (a < b) && smWf d ((b, y) :: m)

/-- n consecutive entries of a sparse map. -/
def smRange {α : Type} (d : Nat → α) (m : List (Nat × α)) (k : Nat) : Nat → List α
  | 0 => []
  | n + 1 => smGet d m k :: smRange d m (k + 1) n

/-- Writes consecutive entries of a sparse map. -/
def smWriteAll {α : Type} [DecidableEq α] (d : Nat → α) (m : List (Nat × α)) (k : Nat) : List α → List (Nat × α)
  | [] => m
  | v :: vs => smWriteAll d (smSet d m k v) (k + 1) vs

/-- The numbers below n. -/
def upto (n : Nat) : List Nat := List.range n

/-- Folds an action over the numbers below n. -/
def forN {σ : Type} (n : Nat) (f : Nat → σ → σ) (s : σ) : σ := (List.range n).foldl (fun s i => f i s) s

/-- Folds an action over a list. -/
def forL {α σ : Type} (l : List α) (f : α → σ → σ) (s : σ) : σ := l.foldl (fun s a => f a s) s

end Sys2Proof.Machine
end

