-- ==== Sys2Proof/Machine/Events.lean ====
section
/-! DEFINITION. The numbers of event sources and reason codes (18 R575, R582). -/

namespace Sys2Proof.Machine

def evXA_FAIL := 0
def evXB_FAIL := 1
def evIRC_FAIL := 2
/-- APLL_UNLOCK, CPLL_UNLOCK, MPLL_UNLOCK. -/
def evPLL_UNLOCK (pll : Nat) := 3 + pll
def evCLK_FORCED_SWITCH := 6
def evFALLBACK_ACTIVE := 7
def evBROWNOUT_WARN := 8
def evTHERMAL_WARN := 9
def evTHERMAL_TRIP := 10
def evPD_FAULT := 11
def evWDOG_PROCTOR := 12
def evRESET_CAUSE_PENDING := 13
def evVOICE_OVERRUN (lane : Nat) := 16 + lane
def evRENDER_LATE := 32
def evVOICE_CLIP := 33
def evMOD_ADDR_FAULT := 34
def evPATCH_SWAP_DONE := 35
def evROLL_HIGH_WATER := 48
def evROLL_FULL_BP := 49
def evTT_FULL_BP := 50
def evTT_LATE_INSERT := 51
def evSTEAL := 52
def evSTEAL_NO_VICTIM := 53
def evCANCEL_AT_READY := 54
def evTRACE_WRAP := 55
def evTRACE_STOPPED := 56
def evEVTCORE_HANG := 57
def evTBL_COMMIT := 64
def evTBL_BUILD_FAIL := 65
def evTBL_NOT_READY := 66
def evSTREAM_UNDERRUN := 67
def evSTREAM_END := 68
def evLPDDR_ECC_CORR := 69
def evLPDDR_ECC_UNCORR := 70
def evLPDDR_TRAIN_FAIL := 71
def evFLASH_ERR := 72
def evBDSP_PASS_OVERRUN (core : Nat) := 80 + core
def evBDSP_SWI (core : Nat) := 84 + core
def evBDSP_ACC_OVF := 88
def evBDSP_CIRC_FAULT := 89
def evBDSP_ILLEGAL := 90
def evSLATE_COLLISION := 96
def evSLATE_OWNER_FAULT := 97
def evSLATE_ECC_CORR := 98
def evSLATE_ECC_UNCORR := 99
def evSLATE_HANDOVER_DONE := 100
def evBIST_BORROW_STALL := 101
def evFUSE_MAP_BAD := 102
def evSER_RX_ERR (port : Nat) := 112 + port
def evSER_AUTOBAUD_DONE (port : Nat) := 117 + port
def evUSB_RESET := 122
def evUSB_SUSPEND := 123
def evUSB_AUDIO_SYNC_LOST := 124
def evHOST_PORT_ERR := 125
def evNET_LINK (port : Nat) := 128 + port
def evNET_FCS_ERR (port : Nat) := 130 + port
def evNET_COLLISION_LIMIT (port : Nat) := 132 + port
def evNET_STRANGER_DROP (port : Nat) := 134 + port
def evNET_DROP_BP (port : Nat) := 136 + port
def evPTP_LOCK := 138
def evPTP_LOST := 139
def evTIDE_CMP (ch : Nat) := 144 + ch
def evTIDE_CAP (ch : Nat) := 160 + ch
def evTIDE_WRAP := 168
def evBELL_SLIP := 169
def evDAC_RANGE_DONE (ch : Nat) := 176 + ch
def evDAC_FAULT := 184
def evTDM_FRAME_ERR := 185
def evSPDIF_LOCK := 186
def evSPDIF_UNLOCK := 187
def evASRC_UNLOCK := 188
def evOUT_CLIP := 189
def evFERRY_LINK_UP := 192
def evFERRY_LINK_DOWN := 193
def evCROSSING_DONE := 194
def evCROSSING_ABANDONED := 195
def evDIVERGENCE := 196
def evLANDING := 197
def evPEER_HEARTBEAT_LOST := 198
def evLIBRARY_MISMATCH := 199
def evBIST_DONE := 208
def evBIST_FAIL := 209
def evLAT_MON_THRESH (m : Nat) := 210 + m
def evLEVEL_MON_THRESH := 218
def evHISTO_SAT := 219
def evROLLCALL_REFUSED := 220
def evABORT_DONE := 221
def evMBX_OVERFLOW := 222

/-- The reserved sources of R575, which never set (R576). -/
def reservedSource (s : Nat) : Bool :=
  s == 14 || s == 15 || (36 ≤ s && s ≤ 47) || (58 ≤ s && s ≤ 63) || (73 ≤ s && s ≤ 79) || (91 ≤ s && s ≤ 95) ||
  (103 ≤ s && s ≤ 111) || s == 126 || s == 127 || (140 ≤ s && s ≤ 143) || (170 ≤ s && s ≤ 175) || s == 190 || s == 191 ||
  (200 ≤ s && s ≤ 207) || 223 ≤ s

/-- The sources that exist, one bit each: the 224 bits without the reserved ones of R575 (R576). -/
def sourceMask : BitVec 224 := 0x7fff00ff3fff03ffffff0fff3fff007f07ff01ff03ff000fffff3fff#224

/-- The sources also delivered to the Proctor as non-maskable events (R575, R581). -/
def nmiSource (s : Nat) : Bool := s == 0 || s == 1 || s == 2 || s == 10 || s == 11 || s == 12

/-- The reason codes (R582). -/
inductive Reason where
  | ok | badOpcode | badLength | badField | busyBackpressure | notInMode | aborted | notOwner | unsignedImage
  | noAudioClock | pllNotLocked | domainOff | rateUnsupported | onFallback
  | rollVoiceBudget | seatsOverlap | patchMissing | patchCostUnknown | modDestInvalid | modSourceInvalid | classLimit
  | reservePoolSize | directSeatingConflict
  | tableNotCommitted | streamRingTooSmall | streamSlotsExhausted | sampleOutOfLibrary | headNotResident | lpddrNotTrained
  | programTooLong | entryInvalid | bufferNotOwned | blockSizeInvalid
  | regionNotOwned | regionBorrowed | regionOverlap | bankDisabled
  | rateOutOfRange | flowModeConflict | usbNotConfigured
  | nodeIdConflict | plcaParamsInvalid | filterFull
  | pinModeConflict | slotMapInvalid | rangeChangePending | shadowOwnsPins
  | noPeer | clockNotShared | libraryHashMismatch | roleConflict | notInStep
  | testRequiresQuiet | monitorBusy
  deriving DecidableEq, Repr

/-- The number of a reason code (R582). -/
def Reason.code : Reason → Nat
  | .ok => 0x00 | .badOpcode => 0x01 | .badLength => 0x02 | .badField => 0x03 | .busyBackpressure => 0x04
  | .notInMode => 0x05 | .aborted => 0x06 | .notOwner => 0x07 | .unsignedImage => 0x08
  | .noAudioClock => 0x10 | .pllNotLocked => 0x11 | .domainOff => 0x12 | .rateUnsupported => 0x13 | .onFallback => 0x14
  | .rollVoiceBudget => 0x20 | .seatsOverlap => 0x21 | .patchMissing => 0x22 | .patchCostUnknown => 0x23
  | .modDestInvalid => 0x24 | .modSourceInvalid => 0x25 | .classLimit => 0x26 | .reservePoolSize => 0x27
  | .directSeatingConflict => 0x28
  | .tableNotCommitted => 0x40 | .streamRingTooSmall => 0x41 | .streamSlotsExhausted => 0x42
  | .sampleOutOfLibrary => 0x43 | .headNotResident => 0x44 | .lpddrNotTrained => 0x45
  | .programTooLong => 0x50 | .entryInvalid => 0x51 | .bufferNotOwned => 0x52 | .blockSizeInvalid => 0x53
  | .regionNotOwned => 0x60 | .regionBorrowed => 0x61 | .regionOverlap => 0x62 | .bankDisabled => 0x63
  | .rateOutOfRange => 0x70 | .flowModeConflict => 0x71 | .usbNotConfigured => 0x72
  | .nodeIdConflict => 0x80 | .plcaParamsInvalid => 0x81 | .filterFull => 0x82
  | .pinModeConflict => 0x90 | .slotMapInvalid => 0x91 | .rangeChangePending => 0x92 | .shadowOwnsPins => 0x93
  | .noPeer => 0xA0 | .clockNotShared => 0xA1 | .libraryHashMismatch => 0xA2 | .roleConflict => 0xA3
  | .notInStep => 0xA4 | .testRequiresQuiet => 0xB0 | .monitorBusy => 0xB1

end Sys2Proof.Machine
end

