-- ==== Sys2Proof/Machine/Regs.lean ====
section
/-! DEFINITION. The register file: every register of the host address map with its fields, their access codes, listed
encodings and reset values, copied from the register tables of the chapters (R9, R12, R54 and the chapter of each block).
A fused field, a field marked U and a field that mirrors a pin reset to 0 (notes/assumptions/3.md, DESIGN CHOICE). -/

namespace Sys2Proof.Machine

/-- Access codes (R9). A WO field and a reserved field are left out of the stored word: they read 0. -/
inductive Acc where
  | rw
  | ro
  | wo
  | w1c
  | w1s
  | rc
  deriving DecidableEq, Repr

/-- One field of a register: its bits, access, reset value (and its step from one instance to the next), and the encodings
listed for it, where the table lists only some (R12; none listed: any value). -/
structure RegField where
  hi : Nat
  lo : Nat
  acc : Acc
  reset : Nat
  resetStep : Nat
  ok : List (Nat × Nat)

/-- A register, or an array of like registers: first address, count and stride, and a second count and stride. -/
structure RegDef where
  base : Nat
  count : Nat
  stride : Nat
  count2 : Nat
  stride2 : Nat
  fields : List RegField

/-- A field as the model names it: address, bits, and the strides of its array. -/
structure Fld where
  addr : Nat
  hi : Nat
  lo : Nat
  stride : Nat
  stride2 : Nat

/-- The field in instance i of a register array. -/
def Fld.at (f : Fld) (i : Nat) : Fld := { f with addr := f.addr + f.stride * i }

/-- The field in instance i, j of a doubly indexed register array. -/
def Fld.at2 (f : Fld) (i j : Nat) : Fld := { f with addr := f.addr + f.stride * i + f.stride2 * j }

def rHIF_ID : Nat := 0x0
def fHIF_ID_ID : Fld := ⟨0x0, 31, 0, 0x0, 0x0⟩
def rHIF_REV : Nat := 0x4
def fHIF_REV_ROM_VER : Fld := ⟨0x4, 15, 8, 0x0, 0x0⟩
def fHIF_REV_REV : Fld := ⟨0x4, 7, 0, 0x0, 0x0⟩
def rHIF_STATUS : Nat := 0x8
def fHIF_STATUS_ABORT_BUSY : Fld := ⟨0x8, 10, 10, 0x0, 0x0⟩
def fHIF_STATUS_BOOT_DONE : Fld := ⟨0x8, 9, 9, 0x0, 0x0⟩
def fHIF_STATUS_PROCTOR_RUN : Fld := ⟨0x8, 8, 8, 0x0, 0x0⟩
def fHIF_STATUS_FERRY_ROLE : Fld := ⟨0x8, 5, 4, 0x0, 0x0⟩
def fHIF_STATUS_MODE : Fld := ⟨0x8, 3, 0, 0x0, 0x0⟩
def rHIF_GRANT : Nat := 0xC
def fHIF_GRANT_LPDDR_WIN : Fld := ⟨0xC, 17, 17, 0x0, 0x0⟩
def fHIF_GRANT_SLATE_WIN : Fld := ⟨0xC, 16, 16, 0x0, 0x0⟩
def fHIF_GRANT_BLOCK : Fld := ⟨0xC, 14, 1, 0x0, 0x0⟩
def fHIF_GRANT_HIF_MBX : Fld := ⟨0xC, 0, 0, 0x0, 0x0⟩
def rHIF_DOORBELL_IN : Nat := 0x10
def fHIF_DOORBELL_IN_RING : Fld := ⟨0x10, 7, 0, 0x0, 0x0⟩
def rHIF_DOORBELL_OUT : Nat := 0x14
def fHIF_DOORBELL_OUT_READY : Fld := ⟨0x14, 15, 8, 0x0, 0x0⟩
def rHIF_IRQ_CFG : Nat := 0x18
def fHIF_IRQ_CFG_DB_EN : Fld := ⟨0x18, 15, 8, 0x0, 0x0⟩
def fHIF_IRQ_CFG_OD : Fld := ⟨0x18, 0, 0, 0x0, 0x0⟩
def rHIF_HOST_CFG : Nat := 0x1C
def fHIF_HOST_CFG_PROTO : Fld := ⟨0x1C, 9, 8, 0x0, 0x0⟩
def fHIF_HOST_CFG_DUMMY : Fld := ⟨0x1C, 6, 0, 0x0, 0x0⟩
def rHIF_HOST_STAT : Nat := 0x20
def fHIF_HOST_STAT_WINDOW_UNMAPPED : Fld := ⟨0x20, 7, 7, 0x0, 0x0⟩
def fHIF_HOST_STAT_MBX_OWNER : Fld := ⟨0x20, 6, 6, 0x0, 0x0⟩
def fHIF_HOST_STAT_ABORT_KEY : Fld := ⟨0x20, 5, 5, 0x0, 0x0⟩
def fHIF_HOST_STAT_PARTIAL_WORD : Fld := ⟨0x20, 4, 4, 0x0, 0x0⟩
def fHIF_HOST_STAT_BAD_OPCODE : Fld := ⟨0x20, 3, 3, 0x0, 0x0⟩
def fHIF_HOST_STAT_READ_UNDERRUN : Fld := ⟨0x20, 2, 2, 0x0, 0x0⟩
def fHIF_HOST_STAT_WRITE_DISCARDED : Fld := ⟨0x20, 1, 1, 0x0, 0x0⟩
def fHIF_HOST_STAT_GRANT_VIOLATION : Fld := ⟨0x20, 0, 0, 0x0, 0x0⟩
def rHIF_ERR_ADDR : Nat := 0x24
def fHIF_ERR_ADDR_ADDR : Fld := ⟨0x24, 31, 0, 0x0, 0x0⟩
def rHIF_LPDDR_PAGE : Nat := 0x28
def fHIF_LPDDR_PAGE_PAGE : Fld := ⟨0x28, 1, 0, 0x0, 0x0⟩
def rHIF_I2C_ADDR : Nat := 0x2C
def fHIF_I2C_ADDR_ADDR : Fld := ⟨0x2C, 6, 0, 0x0, 0x0⟩
def rHIF_ABORT : Nat := 0x30
def fHIF_ABORT_KEY : Fld := ⟨0x30, 31, 24, 0x0, 0x0⟩
def fHIF_ABORT_PROCTOR_RESTART : Fld := ⟨0x30, 15, 15, 0x0, 0x0⟩
def fHIF_ABORT_FUNC : Fld := ⟨0x30, 6, 0, 0x0, 0x0⟩
def rHIF_ABORT_STAT : Nat := 0x34
def fHIF_ABORT_STAT_PROCTOR_RESTARTING : Fld := ⟨0x34, 15, 15, 0x0, 0x0⟩
def fHIF_ABORT_STAT_ACTIVE : Fld := ⟨0x34, 6, 0, 0x0, 0x0⟩
def rROLLCALL_REASON : Nat := 0x38
def fROLLCALL_REASON_BUSY : Fld := ⟨0x38, 31, 31, 0x0, 0x0⟩
def fROLLCALL_REASON_WAITING : Fld := ⟨0x38, 23, 16, 0x0, 0x0⟩
def fROLLCALL_REASON_REFUSALS : Fld := ⟨0x38, 15, 8, 0x0, 0x0⟩
def fROLLCALL_REASON_REASON : Fld := ⟨0x38, 7, 0, 0x0, 0x0⟩
def rROLLCALL_ADDR : Nat := 0x3C
def fROLLCALL_ADDR_ADDR : Fld := ⟨0x3C, 31, 0, 0x0, 0x0⟩
def rHIF_EVT_SUMMARY : Nat := 0x7C
def fHIF_EVT_SUMMARY_PEND_ANY : Fld := ⟨0x7C, 6, 0, 0x0, 0x0⟩
def rVOICE_TUNE_REF : Nat := 0x90040
def fVOICE_TUNE_REF_F_CODE : Fld := ⟨0x90040, 31, 0, 0x0, 0x0⟩
def rVOICE_NOISE_SEED : Nat := 0x90044
def fVOICE_NOISE_SEED_SEED : Fld := ⟨0x90044, 31, 0, 0x0, 0x0⟩
def rVOICE_TEMPO_TPB : Nat := 0x90048
def fVOICE_TEMPO_TPB_TPB : Fld := ⟨0x90048, 31, 0, 0x0, 0x0⟩
def rVOICE_BEAT_ORIGIN_LO : Nat := 0x9004C
def fVOICE_BEAT_ORIGIN_LO_ORIGIN_LO : Fld := ⟨0x9004C, 31, 0, 0x0, 0x0⟩
def rVOICE_BEAT_ORIGIN_HI : Nat := 0x90050
def fVOICE_BEAT_ORIGIN_HI_ORIGIN_HI : Fld := ⟨0x90050, 15, 0, 0x0, 0x0⟩
def rVOICE_SMOOTH : Nat := 0x90054
def fVOICE_SMOOTH_SAMPLES : Fld := ⟨0x90054, 11, 0, 0x0, 0x0⟩
def rVOICE_MOD_FAULT : Nat := 0x90058
def fVOICE_MOD_FAULT_VALID : Fld := ⟨0x90058, 31, 31, 0x0, 0x0⟩
def fVOICE_MOD_FAULT_ADDR : Fld := ⟨0x90058, 17, 0, 0x0, 0x0⟩
def rVOICE_MOD_IDLE : Nat := 0x9005C
def fVOICE_MOD_IDLE_COUNT : Fld := ⟨0x9005C, 31, 0, 0x0, 0x0⟩
def rVOICE_ASSIGN : Nat := 0x90060
def fVOICE_ASSIGN_CC3 : Fld := ⟨0x90060, 31, 24, 0x4, 0x0⟩
def fVOICE_ASSIGN_CC2 : Fld := ⟨0x90060, 23, 16, 0x4, 0x0⟩
def fVOICE_ASSIGN_CC1 : Fld := ⟨0x90060, 15, 8, 0x4, 0x0⟩
def fVOICE_ASSIGN_CC0 : Fld := ⟨0x90060, 7, 0, 0x4, 0x0⟩
def rVOICE_HPARAM : Nat := 0x90100
def fVOICE_HPARAM_VALUE : Fld := ⟨0x90100, 31, 0, 0x4, 0x0⟩
def rSCHED_TT_LEAD : Nat := 0x80000
def fSCHED_TT_LEAD_LEAD : Fld := ⟨0x80000, 15, 0, 0x0, 0x0⟩
def rSCHED_POOL : Nat := 0x80004
def fSCHED_POOL_HWM : Fld := ⟨0x80004, 27, 16, 0x0, 0x0⟩
def fSCHED_POOL_FREE : Fld := ⟨0x80004, 12, 0, 0x0, 0x0⟩
def rSCHED_HANG_LIMIT : Nat := 0x80008
def fSCHED_HANG_LIMIT_CYCLES : Fld := ⟨0x80008, 31, 0, 0x0, 0x0⟩
def rSCHED_NOTE_ID_NEXT : Nat := 0x8000C
def fSCHED_NOTE_ID_NEXT_NEXT : Fld := ⟨0x8000C, 15, 0, 0x0, 0x0⟩
def rSCHED_TT_FILL01 : Nat := 0x80018
def fSCHED_TT_FILL01_TT1 : Fld := ⟨0x80018, 31, 16, 0x0, 0x0⟩
def fSCHED_TT_FILL01_TT0 : Fld := ⟨0x80018, 15, 0, 0x0, 0x0⟩
def rSCHED_TT_FILL23 : Nat := 0x8001C
def fSCHED_TT_FILL23_TT3 : Fld := ⟨0x8001C, 31, 16, 0x0, 0x0⟩
def fSCHED_TT_FILL23_TT2 : Fld := ⟨0x8001C, 15, 0, 0x0, 0x0⟩
def rSCHED_TRACE_BASE : Nat := 0x80020
def fSCHED_TRACE_BASE_ADDR : Fld := ⟨0x80020, 31, 4, 0x0, 0x0⟩
def rSCHED_TRACE_CFG : Nat := 0x80024
def fSCHED_TRACE_CFG_EN : Fld := ⟨0x80024, 31, 31, 0x0, 0x0⟩
def fSCHED_TRACE_CFG_MODE : Fld := ⟨0x80024, 30, 30, 0x0, 0x0⟩
def fSCHED_TRACE_CFG_SIZE : Fld := ⟨0x80024, 29, 16, 0x0, 0x0⟩
def fSCHED_TRACE_CFG_TYPES : Fld := ⟨0x80024, 10, 0, 0x0, 0x0⟩
def rSCHED_TRACE_WPTR : Nat := 0x80028
def fSCHED_TRACE_WPTR_WPTR : Fld := ⟨0x80028, 13, 0, 0x0, 0x0⟩
def rSCHED_STEAL_COUNT : Nat := 0x8002C
def fSCHED_STEAL_COUNT_COUNT : Fld := ⟨0x8002C, 31, 0, 0x0, 0x0⟩
def rSCHED_DROP_COUNT : Nat := 0x80030
def fSCHED_DROP_COUNT_COUNT : Fld := ⟨0x80030, 31, 0, 0x0, 0x0⟩
def rSCHED_CANCEL_COUNT : Nat := 0x80034
def fSCHED_CANCEL_COUNT_COUNT : Fld := ⟨0x80034, 31, 0, 0x0, 0x0⟩
def rSCHED_RESERVE : Nat := 0x80010
def fSCHED_RESERVE_BLOCKS : Fld := ⟨0x80010, 31, 0, 0x4, 0x0⟩
def rCLASS_CFG : Nat := 0x81000
def fCLASS_CFG_ENABLE : Fld := ⟨0x81000, 31, 31, 0x20, 0x0⟩
def fCLASS_CFG_SUSTAIN_HOLD : Fld := ⟨0x81000, 30, 30, 0x20, 0x0⟩
def fCLASS_CFG_RETRIG_SAME : Fld := ⟨0x81000, 29, 29, 0x20, 0x0⟩
def fCLASS_CFG_FALLBACK : Fld := ⟨0x81000, 28, 28, 0x20, 0x0⟩
def fCLASS_CFG_POLICY : Fld := ⟨0x81000, 27, 24, 0x20, 0x0⟩
def fCLASS_CFG_DISMISS : Fld := ⟨0x81000, 19, 16, 0x20, 0x0⟩
def fCLASS_CFG_PATCH : Fld := ⟨0x81000, 8, 0, 0x20, 0x0⟩
def rCLASS_BLOCKS : Nat := 0x81004
def fCLASS_BLOCKS_BLOCKS : Fld := ⟨0x81004, 31, 0, 0x20, 0x4⟩
def rCLASS_POLY : Nat := 0x8100C
def fCLASS_POLY_MIN_GATE : Fld := ⟨0x8100C, 27, 16, 0x20, 0x0⟩
def fCLASS_POLY_MAX : Fld := ⟨0x8100C, 10, 0, 0x20, 0x0⟩
def rCLASS_STAT : Nat := 0x81010
def fCLASS_STAT_RESERVED_IN_USE : Fld := ⟨0x81010, 26, 16, 0x20, 0x0⟩
def fCLASS_STAT_ACTIVE : Fld := ⟨0x81010, 10, 0, 0x20, 0x0⟩
def rSCHED_RULE_W0 : Nat := 0x82000
def fSCHED_RULE_W0_CHANNEL : Fld := ⟨0x82000, 31, 16, 0x10, 0x0⟩
def fSCHED_RULE_W0_PORT : Fld := ⟨0x82000, 15, 8, 0x10, 0x0⟩
def fSCHED_RULE_W0_VALID : Fld := ⟨0x82000, 0, 0, 0x10, 0x0⟩
def rSCHED_RULE_W1 : Nat := 0x82004
def fSCHED_RULE_W1_VEL_HI : Fld := ⟨0x82004, 31, 24, 0x10, 0x0⟩
def fSCHED_RULE_W1_VEL_LO : Fld := ⟨0x82004, 23, 16, 0x10, 0x0⟩
def fSCHED_RULE_W1_NOTE_HI : Fld := ⟨0x82004, 15, 8, 0x10, 0x0⟩
def fSCHED_RULE_W1_NOTE_LO : Fld := ⟨0x82004, 7, 0, 0x10, 0x0⟩
def rSCHED_RULE_W2 : Nat := 0x82008
def fSCHED_RULE_W2_TRANSPOSE : Fld := ⟨0x82008, 23, 16, 0x10, 0x0⟩
def fSCHED_RULE_W2_BANK : Fld := ⟨0x82008, 15, 8, 0x10, 0x0⟩
def fSCHED_RULE_W2_CLASS : Fld := ⟨0x82008, 7, 0, 0x10, 0x0⟩
def rSCHED_RULE_W3 : Nat := 0x8200C
def rTBLD_STAT : Nat := 0xA0000
def fTBLD_STAT_BUSY : Fld := ⟨0xA0000, 31, 31, 0x0, 0x0⟩
def fTBLD_STAT_QUEUED : Fld := ⟨0xA0000, 27, 24, 0x0, 0x0⟩
def fTBLD_STAT_CUR_TABLE : Fld := ⟨0xA0000, 22, 16, 0x0, 0x0⟩
def fTBLD_STAT_CUR_FRAME : Fld := ⟨0xA0000, 8, 0, 0x0, 0x0⟩
def rTBLD_BANKS : Nat := 0xA0004
def fTBLD_BANKS_BANKS : Fld := ⟨0xA0004, 31, 0, 0x4, 0x0⟩
def rTBLD_FREE : Nat := 0xA000C
def fTBLD_FREE_BANKS : Fld := ⟨0xA000C, 31, 0, 0x4, 0x0⟩
def rTBLD_SAT_COUNT : Nat := 0xA0014
def fTBLD_SAT_COUNT_COUNT : Fld := ⟨0xA0014, 31, 0, 0x0, 0x0⟩
def rTBLD_NOTREADY : Nat := 0xA0018
def fTBLD_NOTREADY_VALID : Fld := ⟨0xA0018, 31, 31, 0x0, 0x0⟩
def fTBLD_NOTREADY_TABLE : Fld := ⟨0xA0018, 6, 0, 0x0, 0x0⟩
def rTBL_DESC_W0 : Nat := 0xA1000
def fTBL_DESC_W0_STATE : Fld := ⟨0xA1000, 31, 30, 0x20, 0x0⟩
def fTBL_DESC_W0_PENDING : Fld := ⟨0xA1000, 29, 29, 0x20, 0x0⟩
def fTBL_DESC_W0_MORPHING : Fld := ⟨0xA1000, 28, 28, 0x20, 0x0⟩
def fTBL_DESC_W0_WIDTH : Fld := ⟨0xA1000, 25, 25, 0x20, 0x0⟩
def fTBL_DESC_W0_FRAMES : Fld := ⟨0xA1000, 24, 16, 0x20, 0x0⟩
def fTBL_DESC_W0_MORPH_LEN : Fld := ⟨0xA1000, 10, 0, 0x20, 0x0⟩
def rTBL_DESC_W1 : Nat := 0xA1004
def fTBL_DESC_W1_GEN : Fld := ⟨0xA1004, 31, 16, 0x20, 0x0⟩
def fTBL_DESC_W1_NBANKS : Fld := ⟨0xA1004, 7, 4, 0x20, 0x0⟩
def rTBL_DESC_W23 : Nat := 0xA1008
def fTBL_DESC_W23_BANK3 : Fld := ⟨0xA1008, 29, 24, 0x20, 0x4⟩
def fTBL_DESC_W23_BANK2 : Fld := ⟨0xA1008, 21, 16, 0x20, 0x4⟩
def fTBL_DESC_W23_BANK1 : Fld := ⟨0xA1008, 13, 8, 0x20, 0x4⟩
def fTBL_DESC_W23_BANK0 : Fld := ⟨0xA1008, 5, 0, 0x20, 0x4⟩
def rTBL_DESC_W45 : Nat := 0xA1010
def fTBL_DESC_W45_BANK3 : Fld := ⟨0xA1010, 29, 24, 0x20, 0x4⟩
def fTBL_DESC_W45_BANK2 : Fld := ⟨0xA1010, 21, 16, 0x20, 0x4⟩
def fTBL_DESC_W45_BANK1 : Fld := ⟨0xA1010, 13, 8, 0x20, 0x4⟩
def fTBL_DESC_W45_BANK0 : Fld := ⟨0xA1010, 5, 0, 0x20, 0x4⟩
def rTBL_DESC_W6 : Nat := 0xA1018
def fTBL_DESC_W6_STAMP_LO : Fld := ⟨0xA1018, 31, 0, 0x20, 0x0⟩
def rTBL_DESC_W7 : Nat := 0xA101C
def fTBL_DESC_W7_STAMP_HI : Fld := ⟨0xA101C, 15, 0, 0x20, 0x0⟩
def rSTRM_CTRL : Nat := 0xB0000
def fSTRM_CTRL_ENABLE : Fld := ⟨0xB0000, 31, 31, 0x0, 0x0⟩
def fSTRM_CTRL_END_EVT : Fld := ⟨0xB0000, 0, 0, 0x0, 0x0⟩
def rSTRM_CFG : Nat := 0xB0004
def fSTRM_CFG_RING : Fld := ⟨0xB0004, 31, 30, 0x0, 0x0⟩
def fSTRM_CFG_LEAD : Fld := ⟨0xB0004, 26, 16, 0x0, 0x0⟩
def fSTRM_CFG_SLOTS : Fld := ⟨0xB0004, 11, 0, 0x0, 0x0⟩
def rSTRM_RING_BANK : Nat := 0xB0008
def fSTRM_RING_BANK_BANK : Fld := ⟨0xB0008, 5, 0, 0x0, 0x0⟩
def rSTRM_LIB_BASE : Nat := 0xB0014
def fSTRM_LIB_BASE_SIZE : Fld := ⟨0xB0014, 31, 16, 0x0, 0x0⟩
def fSTRM_LIB_BASE_BASE : Fld := ⟨0xB0014, 15, 0, 0x0, 0x0⟩
def rSTRM_LIB_STAT : Nat := 0xB0018
def fSTRM_LIB_STAT_LPDDR_TRAINED : Fld := ⟨0xB0018, 31, 31, 0x0, 0x0⟩
def fSTRM_LIB_STAT_LOAD_BUSY : Fld := ⟨0xB0018, 30, 30, 0x0, 0x0⟩
def fSTRM_LIB_STAT_VALID : Fld := ⟨0xB0018, 29, 29, 0x0, 0x0⟩
def rSTRM_ACTIVE : Nat := 0xB001C
def fSTRM_ACTIVE_PEAK : Fld := ⟨0xB001C, 27, 16, 0x0, 0x0⟩
def fSTRM_ACTIVE_OPEN : Fld := ⟨0xB001C, 11, 0, 0x0, 0x0⟩
def rSTRM_UNDERRUN : Nat := 0xB0020
def fSTRM_UNDERRUN_VALID : Fld := ⟨0xB0020, 31, 31, 0x0, 0x0⟩
def fSTRM_UNDERRUN_OSC : Fld := ⟨0xB0020, 11, 10, 0x0, 0x0⟩
def fSTRM_UNDERRUN_VOICE : Fld := ⟨0xB0020, 9, 0, 0x0, 0x0⟩
def rSTRM_UNDERRUN_COUNT : Nat := 0xB0024
def fSTRM_UNDERRUN_COUNT_COUNT : Fld := ⟨0xB0024, 31, 0, 0x0, 0x0⟩
def rSTRM_END_LAST : Nat := 0xB0028
def fSTRM_END_LAST_VALID : Fld := ⟨0xB0028, 31, 31, 0x0, 0x0⟩
def fSTRM_END_LAST_OSC : Fld := ⟨0xB0028, 11, 10, 0x0, 0x0⟩
def fSTRM_END_LAST_VOICE : Fld := ⟨0xB0028, 9, 0, 0x0, 0x0⟩
def rSTRM_COLD_COUNT : Nat := 0xB002C
def fSTRM_COLD_COUNT_COUNT : Fld := ⟨0xB002C, 31, 0, 0x0, 0x0⟩
def rSTRM_NOZONE_COUNT : Nat := 0xB0030
def fSTRM_NOZONE_COUNT_COUNT : Fld := ⟨0xB0030, 31, 0, 0x0, 0x0⟩
def rSTRM_HEAD : Nat := 0xB000C
def fSTRM_HEAD_BANKS : Fld := ⟨0xB000C, 31, 0, 0x4, 0x0⟩
def rMIX_CTRL : Nat := 0x68000
def fMIX_CTRL_MUTE : Fld := ⟨0x68000, 12, 12, 0x0, 0x0⟩
def fMIX_CTRL_GLIDE : Fld := ⟨0x68000, 11, 0, 0x0, 0x0⟩
def rMIX_SAT : Nat := 0x68004
def fMIX_SAT_SAT_R : Fld := ⟨0x68004, 31, 16, 0x0, 0x0⟩
def fMIX_SAT_SAT_L : Fld := ⟨0x68004, 15, 0, 0x0, 0x0⟩
def rMIX_OUT_CLIP : Nat := 0x68008
def fMIX_OUT_CLIP_VALID : Fld := ⟨0x68008, 31, 31, 0x0, 0x0⟩
def fMIX_OUT_CLIP_CHANNEL : Fld := ⟨0x68008, 6, 0, 0x0, 0x0⟩
def rMIX_CLIP_COUNT : Nat := 0x6800C
def fMIX_CLIP_COUNT_COUNT : Fld := ⟨0x6800C, 31, 0, 0x0, 0x0⟩
def rMIX_FOLLOW_CFG : Nat := 0x68010
def fMIX_FOLLOW_CFG_RELEASE_SH : Fld := ⟨0x68010, 7, 4, 0x0, 0x0⟩
def fMIX_FOLLOW_CFG_ATTACK_SH : Fld := ⟨0x68010, 3, 0, 0x0, 0x0⟩
def rMIX_CKSUM_MASK : Nat := 0x68014
def fMIX_CKSUM_MASK_MASK : Fld := ⟨0x68014, 15, 0, 0x0, 0x0⟩
def rMIX_CKSUM : Nat := 0x68018
def fMIX_CKSUM_CRC : Fld := ⟨0x68018, 31, 0, 0x0, 0x0⟩
def rMIX_CKSUM_STAMP_LO : Nat := 0x6801C
def fMIX_CKSUM_STAMP_LO_STAMP_LO : Fld := ⟨0x6801C, 31, 0, 0x0, 0x0⟩
def rMIX_CKSUM_STAMP_HI : Nat := 0x68020
def fMIX_CKSUM_STAMP_HI_STAMP_HI : Fld := ⟨0x68020, 15, 0, 0x0, 0x0⟩
def rMIX_FOLLOW : Nat := 0x68040
def fMIX_FOLLOW_Y : Fld := ⟨0x68040, 31, 0, 0x4, 0x0⟩
def rMIX_LIVE_SRC : Nat := 0x68100
def fMIX_LIVE_SRC_SIDE : Fld := ⟨0x68100, 29, 28, 0x4, 0x0⟩
def fMIX_LIVE_SRC_BUS : Fld := ⟨0x68100, 27, 24, 0x4, 0x0⟩
def fMIX_LIVE_SRC_KIND : Fld := ⟨0x68100, 18, 16, 0x4, 0x0⟩
def fMIX_LIVE_SRC_PORT : Fld := ⟨0x68100, 4, 4, 0x4, 0x0⟩
def fMIX_LIVE_SRC_CHAN : Fld := ⟨0x68100, 3, 0, 0x4, 0x0⟩
def rMIX_LIVE_GAIN : Nat := 0x68180
def fMIX_LIVE_GAIN_GAIN : Fld := ⟨0x68180, 31, 0, 0x4, 0x0⟩
def rMIX_RET_ROUTE : Nat := 0x68200
def fMIX_RET_ROUTE_EN : Fld := ⟨0x68200, 31, 31, 0x4, 0x0⟩
def fMIX_RET_ROUTE_BUS : Fld := ⟨0x68200, 3, 0, 0x4, 0x0⟩
def rMIX_RET_GAIN : Nat := 0x68280
def fMIX_RET_GAIN_GAIN : Fld := ⟨0x68280, 31, 0, 0x4, 0x0⟩
def rMIX_OUT_MAP : Nat := 0x68400
def fMIX_OUT_MAP_KIND : Fld := ⟨0x68400, 7, 5, 0x4, 0x0⟩
def fMIX_OUT_MAP_INDEX : Fld := ⟨0x68400, 4, 0, 0x4, 0x0⟩
def rMIX_OUT_GAIN : Nat := 0x68600
def fMIX_OUT_GAIN_GAIN : Fld := ⟨0x68600, 31, 0, 0x4, 0x0⟩
def rBDSP_CTRL : Nat := 0xC0000
def fBDSP_CTRL_RUN : Fld := ⟨0xC0000, 31, 31, 0x1000, 0x0⟩
def fBDSP_CTRL_BLOCK : Fld := ⟨0xC0000, 30, 28, 0x1000, 0x0⟩
def fBDSP_CTRL_TRAP_AOV : Fld := ⟨0xC0000, 9, 9, 0x1000, 0x0⟩
def fBDSP_CTRL_TRAP_CIRC : Fld := ⟨0xC0000, 8, 8, 0x1000, 0x0⟩
def fBDSP_CTRL_LINE_EN : Fld := ⟨0xC0000, 7, 0, 0x1000, 0x0⟩
def rBDSP_ENTRY : Nat := 0xC0004
def fBDSP_ENTRY_LENGTH : Fld := ⟨0xC0004, 30, 16, 0x1000, 0x0⟩
def fBDSP_ENTRY_ENTRY : Fld := ⟨0xC0004, 13, 0, 0x1000, 0x0⟩
def rBDSP_COST : Nat := 0xC0008
def fBDSP_COST_COST : Fld := ⟨0xC0008, 19, 0, 0x1000, 0x0⟩
def rBDSP_STAT : Nat := 0xC000C
def fBDSP_STAT_STATE : Fld := ⟨0xC000C, 31, 30, 0x1000, 0x0⟩
def fBDSP_STAT_LOADED : Fld := ⟨0xC000C, 29, 29, 0x1000, 0x0⟩
def fBDSP_STAT_LA : Fld := ⟨0xC000C, 28, 26, 0x1000, 0x0⟩
def fBDSP_STAT_STICKY : Fld := ⟨0xC000C, 25, 23, 0x1000, 0x0⟩
def fBDSP_STAT_PC : Fld := ⟨0xC000C, 13, 0, 0x1000, 0x0⟩
def rBDSP_CYCLES : Nat := 0xC0010
def fBDSP_CYCLES_LAST : Fld := ⟨0xC0010, 19, 0, 0x1000, 0x0⟩
def rBDSP_PEAK : Nat := 0xC0014
def fBDSP_PEAK_PEAK : Fld := ⟨0xC0014, 19, 0, 0x1000, 0x0⟩
def rBDSP_OVERRUN_COUNT : Nat := 0xC0018
def fBDSP_OVERRUN_COUNT_COUNT : Fld := ⟨0xC0018, 31, 0, 0x1000, 0x0⟩
def rBDSP_FAULT : Nat := 0xC001C
def fBDSP_FAULT_VALID : Fld := ⟨0xC001C, 31, 31, 0x1000, 0x0⟩
def fBDSP_FAULT_CAUSE : Fld := ⟨0xC001C, 23, 22, 0x1000, 0x0⟩
def fBDSP_FAULT_PTR : Fld := ⟨0xC001C, 18, 16, 0x1000, 0x0⟩
def fBDSP_FAULT_PC : Fld := ⟨0xC001C, 13, 0, 0x1000, 0x0⟩
def rBDSP_IRQ : Nat := 0xC0020
def fBDSP_IRQ_HOST : Fld := ⟨0xC0020, 0, 0, 0x1000, 0x0⟩
def rBDSP_SWI_CODE : Nat := 0xC0024
def fBDSP_SWI_CODE_CODE : Fld := ⟨0xC0024, 7, 0, 0x1000, 0x0⟩
def rBDSP_BLK : Nat := 0xC0028
def fBDSP_BLK_OUT_BASE : Fld := ⟨0xC0028, 29, 16, 0x1000, 0x0⟩
def fBDSP_BLK_IN_BASE : Fld := ⟨0xC0028, 13, 0, 0x1000, 0x0⟩
def rBDSP_LINE_LATE : Nat := 0xC0034
def fBDSP_LINE_LATE_COUNT : Fld := ⟨0xC0034, 31, 0, 0x1000, 0x0⟩
def rBDSP_BANKS : Nat := 0xC002C
def fBDSP_BANKS_BANKS : Fld := ⟨0xC002C, 31, 0, 0x1000, 0x4⟩
def rBDSP_CTL : Nat := 0xC0038
def fBDSP_CTL_VALUE : Fld := ⟨0xC0038, 31, 0, 0x1000, 0x4⟩
def rBDSP_PARAM : Nat := 0xC0100
def fBDSP_PARAM_VALUE : Fld := ⟨0xC0100, 31, 0, 0x1000, 0x4⟩
def rBDSP_LINE_BASE : Nat := 0xC0200
def fBDSP_LINE_BASE_BASE : Fld := ⟨0xC0200, 26, 0, 0x1000, 0x10⟩
def rBDSP_LINE_LEN : Nat := 0xC0204
def fBDSP_LINE_LEN_LEN : Fld := ⟨0xC0204, 23, 0, 0x1000, 0x10⟩
def rBDSP_LINE_TAP0 : Nat := 0xC0208
def fBDSP_LINE_TAP0_DELAY : Fld := ⟨0xC0208, 23, 0, 0x1000, 0x10⟩
def rBDSP_LINE_TAP1 : Nat := 0xC020C
def fBDSP_LINE_TAP1_DELAY : Fld := ⟨0xC020C, 23, 0, 0x1000, 0x10⟩
def rSLATE_STAT : Nat := 0xD0000
def fSLATE_STAT_FUSE_DONE : Fld := ⟨0xD0000, 31, 31, 0x0, 0x0⟩
def fSLATE_STAT_FUSE_BAD : Fld := ⟨0xD0000, 30, 30, 0x0, 0x0⟩
def fSLATE_STAT_BORROW_ACTIVE : Fld := ⟨0xD0000, 29, 29, 0x0, 0x0⟩
def fSLATE_STAT_BORROW_BANK : Fld := ⟨0xD0000, 5, 0, 0x0, 0x0⟩
def rSLATE_COLL_ADDR : Nat := 0xD0004
def fSLATE_COLL_ADDR_VALID : Fld := ⟨0xD0004, 31, 31, 0x0, 0x0⟩
def fSLATE_COLL_ADDR_KIND : Fld := ⟨0xD0004, 30, 30, 0x0, 0x0⟩
def fSLATE_COLL_ADDR_OFFSET : Fld := ⟨0xD0004, 24, 0, 0x0, 0x0⟩
def rSLATE_COLL_COUNT : Nat := 0xD0008
def fSLATE_COLL_COUNT_COUNT : Fld := ⟨0xD0008, 31, 0, 0x0, 0x0⟩
def rSLATE_FAULT_ADDR : Nat := 0xD000C
def fSLATE_FAULT_ADDR_VALID : Fld := ⟨0xD000C, 31, 31, 0x0, 0x0⟩
def fSLATE_FAULT_ADDR_REQ : Fld := ⟨0xD000C, 30, 27, 0x0, 0x0⟩
def fSLATE_FAULT_ADDR_OFFSET : Fld := ⟨0xD000C, 24, 0, 0x0, 0x0⟩
def rSLATE_ECC_ADDR : Nat := 0xD0010
def fSLATE_ECC_ADDR_VALID : Fld := ⟨0xD0010, 31, 31, 0x0, 0x0⟩
def fSLATE_ECC_ADDR_UNCORR : Fld := ⟨0xD0010, 30, 30, 0x0, 0x0⟩
def fSLATE_ECC_ADDR_OFFSET : Fld := ⟨0xD0010, 24, 0, 0x0, 0x0⟩
def rSLATE_ECC_CORR_COUNT : Nat := 0xD0014
def fSLATE_ECC_CORR_COUNT_COUNT : Fld := ⟨0xD0014, 31, 0, 0x0, 0x0⟩
def rSLATE_ECC_UNCORR_COUNT : Nat := 0xD0018
def fSLATE_ECC_UNCORR_COUNT_COUNT : Fld := ⟨0xD0018, 31, 0, 0x0, 0x0⟩
def rSLATE_BORROW_STALLS : Nat := 0xD001C
def fSLATE_BORROW_STALLS_COUNT : Fld := ⟨0xD001C, 31, 0, 0x0, 0x0⟩
def rSLATE_COMMONS : Nat := 0xD0030
def fSLATE_COMMONS_MEMBERS : Fld := ⟨0xD0030, 15, 0, 0x0, 0x0⟩
def rSLATE_PINNED : Nat := 0xD0020
def fSLATE_PINNED_BANKS : Fld := ⟨0xD0020, 31, 0, 0x4, 0x0⟩
def rSLATE_DISABLED : Nat := 0xD0028
def fSLATE_DISABLED_BANKS : Fld := ⟨0xD0028, 31, 0, 0x4, 0x0⟩
def rSLATE_OWNER : Nat := 0xD0100
def fSLATE_OWNER_AT_BOUNDARY : Fld := ⟨0xD0100, 8, 8, 0x4, 0x0⟩
def fSLATE_OWNER_PENDING : Fld := ⟨0xD0100, 7, 4, 0x4, 0x0⟩
def fSLATE_OWNER_OWNER : Fld := ⟨0xD0100, 3, 0, 0x4, 0x0⟩
def rTIDE_LO : Nat := 0x20000
def fTIDE_LO_COUNT_LO : Fld := ⟨0x20000, 31, 0, 0x0, 0x0⟩
def rTIDE_HI : Nat := 0x20004
def fTIDE_HI_COUNT_HI : Fld := ⟨0x20004, 15, 0, 0x0, 0x0⟩
def rTIDE_EPOCH : Nat := 0x20008
def fTIDE_EPOCH_EPOCH : Fld := ⟨0x20008, 15, 0, 0x0, 0x0⟩
def rTIDE_CTRL : Nat := 0x2000C
def fTIDE_CTRL_DBG_FREEZE : Fld := ⟨0x2000C, 0, 0, 0x0, 0x0⟩
def rTIDE_STAT : Nat := 0x20010
def fTIDE_STAT_RUNNING : Fld := ⟨0x20010, 31, 31, 0x0, 0x0⟩
def fTIDE_STAT_FAMILY : Fld := ⟨0x20010, 30, 30, 0x0, 0x0⟩
def fTIDE_STAT_FROZEN : Fld := ⟨0x20010, 29, 29, 0x0, 0x0⟩
def fTIDE_STAT_PERIOD : Fld := ⟨0x20010, 10, 0, 0x0, 0x0⟩
def rTIDE_BOUND_LO : Nat := 0x20014
def fTIDE_BOUND_LO_BOUND_LO : Fld := ⟨0x20014, 31, 0, 0x0, 0x0⟩
def rTIDE_BOUND_HI : Nat := 0x20018
def fTIDE_BOUND_HI_BOUND_HI : Fld := ⟨0x20018, 15, 0, 0x0, 0x0⟩
def rBELL_CFG : Nat := 0x2001C
def fBELL_CFG_PERIOD_M1 : Fld := ⟨0x2001C, 15, 0, 0x0, 0x0⟩
def rBELL_COUNT : Nat := 0x20020
def fBELL_COUNT_COUNT : Fld := ⟨0x20020, 15, 0, 0x0, 0x0⟩
def rTIDE_POST_DROP : Nat := 0x20024
def fTIDE_POST_DROP_COUNT : Fld := ⟨0x20024, 31, 0, 0x0, 0x0⟩
def rTIDE_CMP_LO : Nat := 0x20100
def fTIDE_CMP_LO_V_LO : Fld := ⟨0x20100, 31, 0, 0x10, 0x0⟩
def rTIDE_CMP_HI : Nat := 0x20104
def fTIDE_CMP_HI_V_HI : Fld := ⟨0x20104, 15, 0, 0x10, 0x0⟩
def rTIDE_CMP_CTRL : Nat := 0x20108
def fTIDE_CMP_CTRL_EN : Fld := ⟨0x20108, 31, 31, 0x10, 0x0⟩
def fTIDE_CMP_CTRL_PULSE_W : Fld := ⟨0x20108, 29, 16, 0x10, 0x0⟩
def fTIDE_CMP_CTRL_POST : Fld := ⟨0x20108, 13, 13, 0x10, 0x0⟩
def fTIDE_CMP_CTRL_STROBE : Fld := ⟨0x20108, 12, 12, 0x10, 0x0⟩
def fTIDE_CMP_CTRL_PIN_ACT : Fld := ⟨0x20108, 10, 8, 0x10, 0x0⟩
def fTIDE_CMP_CTRL_PIN : Fld := ⟨0x20108, 6, 4, 0x10, 0x0⟩
def rTIDE_CMP_PER : Nat := 0x2010C
def fTIDE_CMP_PER_PER : Fld := ⟨0x2010C, 31, 0, 0x10, 0x0⟩
def rTIDE_CAP_LO : Nat := 0x20200
def fTIDE_CAP_LO_STAMP_LO : Fld := ⟨0x20200, 31, 0, 0x10, 0x0⟩
def rTIDE_CAP_HI : Nat := 0x20204
def fTIDE_CAP_HI_NEW : Fld := ⟨0x20204, 31, 31, 0x10, 0x0⟩
def fTIDE_CAP_HI_OVR : Fld := ⟨0x20204, 30, 30, 0x10, 0x0⟩
def fTIDE_CAP_HI_RISE : Fld := ⟨0x20204, 16, 16, 0x10, 0x0⟩
def fTIDE_CAP_HI_STAMP_HI : Fld := ⟨0x20204, 15, 0, 0x10, 0x0⟩
def rTIDE_CAP_CFG : Nat := 0x20208
def fTIDE_CAP_CFG_EN : Fld := ⟨0x20208, 31, 31, 0x10, 0x0⟩
def fTIDE_CAP_CFG_PRE : Fld := ⟨0x20208, 27, 24, 0x10, 0x0⟩
def fTIDE_CAP_CFG_FILT : Fld := ⟨0x20208, 23, 16, 0x10, 0x0⟩
def fTIDE_CAP_CFG_EDGE : Fld := ⟨0x20208, 9, 8, 0x10, 0x0⟩
def fTIDE_CAP_CFG_PIN : Fld := ⟨0x20208, 2, 0, 0x10, 0x0⟩
def rTIO_CFG : Nat := 0x20280
def fTIO_CFG_LEVEL : Fld := ⟨0x20280, 5, 5, 0x4, 0x0⟩
def fTIO_CFG_LATCH : Fld := ⟨0x20280, 4, 4, 0x4, 0x0⟩
def fTIO_CFG_INVERT : Fld := ⟨0x20280, 3, 3, 0x4, 0x0⟩
def fTIO_CFG_OD : Fld := ⟨0x20280, 2, 2, 0x4, 0x0⟩
def fTIO_CFG_MODE : Fld := ⟨0x20280, 1, 0, 0x4, 0x0⟩
def rTIDE_POST : Nat := 0x20400
def fTIDE_POST_RECORD : Fld := ⟨0x20400, 31, 0, 0x20, 0x4⟩
def rCPR_CLK_CFG : Nat := 0x10000
def fCPR_CLK_CFG_FAIL_SAFE : Fld := ⟨0x10000, 16, 16, 0x0, 0x0⟩
def fCPR_CLK_CFG_MPLL_REF : Fld := ⟨0x10000, 15, 14, 0x0, 0x0⟩
def fCPR_CLK_CFG_CPLL_REF : Fld := ⟨0x10000, 13, 12, 0x0, 0x0⟩
def fCPR_CLK_CFG_APLL_REF : Fld := ⟨0x10000, 10, 8, 0x0, 0x0⟩
def fCPR_CLK_CFG_MCLK_EN : Fld := ⟨0x10000, 4, 4, 0x0, 0x0⟩
def fCPR_CLK_CFG_XB_MODE : Fld := ⟨0x10000, 3, 2, 0x0, 0x0⟩
def fCPR_CLK_CFG_XA_MODE : Fld := ⟨0x10000, 1, 0, 0x0, 0x0⟩
def rCPR_CLK_STAT : Nat := 0x10004
def fCPR_CLK_STAT_FALLBACK : Fld := ⟨0x10004, 31, 31, 0x0, 0x0⟩
def fCPR_CLK_STAT_FB_CAUSE : Fld := ⟨0x10004, 30, 28, 0x0, 0x0⟩
def fCPR_CLK_STAT_OK : Fld := ⟨0x10004, 27, 24, 0x0, 0x0⟩
def fCPR_CLK_STAT_LOCK : Fld := ⟨0x10004, 22, 20, 0x0, 0x0⟩
def fCPR_CLK_STAT_HOLD : Fld := ⟨0x10004, 19, 16, 0x0, 0x0⟩
def fCPR_CLK_STAT_APLL_ACT : Fld := ⟨0x10004, 10, 8, 0x0, 0x0⟩
def fCPR_CLK_STAT_CPLL_ACT : Fld := ⟨0x10004, 3, 2, 0x0, 0x0⟩
def fCPR_CLK_STAT_MPLL_ACT : Fld := ⟨0x10004, 1, 0, 0x0, 0x0⟩
def rCPR_APLL_CFG : Nat := 0x10008
def fCPR_APLL_CFG_FAMILY : Fld := ⟨0x10008, 0, 0, 0x0, 0x0⟩
def rCPR_APLL_N : Nat := 0x1000C
def fCPR_APLL_N_N_INT : Fld := ⟨0x1000C, 31, 24, 0x0, 0x0⟩
def fCPR_APLL_N_N_FRAC : Fld := ⟨0x1000C, 23, 0, 0x0, 0x0⟩
def rCPR_MCLK_CFG : Nat := 0x10010
def fCPR_MCLK_CFG_FREQ : Fld := ⟨0x10010, 2, 0, 0x0, 0x0⟩
def rCPR_MON_CFG : Nat := 0x10014
def fCPR_MON_CFG_MON_EN : Fld := ⟨0x10014, 2, 0, 0x0, 0x0⟩
def rCPR_MON_COUNT0 : Nat := 0x10018
def fCPR_MON_COUNT0_XB : Fld := ⟨0x10018, 27, 16, 0x0, 0x0⟩
def fCPR_MON_COUNT0_XA : Fld := ⟨0x10018, 11, 0, 0x0, 0x0⟩
def rCPR_MON_COUNT1 : Nat := 0x1001C
def fCPR_MON_COUNT1_MCLK : Fld := ⟨0x1001C, 11, 0, 0x0, 0x0⟩
def rCPR_IRC_TRIM : Nat := 0x10020
def fCPR_IRC_TRIM_TRIM : Fld := ⟨0x10020, 7, 0, 0x0, 0x0⟩
def rCPR_MEM_CFG : Nat := 0x10024
def fCPR_MEM_CFG_RATE : Fld := ⟨0x10024, 10, 8, 0x0, 0x0⟩
def fCPR_MEM_CFG_SIZE : Fld := ⟨0x10024, 2, 0, 0x0, 0x0⟩
def rCPR_PD_STAT : Nat := 0x10040
def fCPR_PD_STAT_FAULT : Fld := ⟨0x10040, 29, 16, 0x0, 0x0⟩
def fCPR_PD_STAT_ON : Fld := ⟨0x10040, 13, 0, 0x0, 0x0⟩
def rCPR_PD_OPT : Nat := 0x10044
def fCPR_PD_OPT_OPT : Fld := ⟨0x10044, 13, 7, 0x0, 0x0⟩
def rCPR_RST_CAUSE : Nat := 0x10048
def fCPR_RST_CAUSE_ENGINE : Fld := ⟨0x10048, 7, 7, 0x0, 0x0⟩
def fCPR_RST_CAUSE_PROCTOR : Fld := ⟨0x10048, 6, 6, 0x0, 0x0⟩
def fCPR_RST_CAUSE_WDOG_SYS : Fld := ⟨0x10048, 5, 5, 0x0, 0x0⟩
def fCPR_RST_CAUSE_COMMAND : Fld := ⟨0x10048, 4, 4, 0x0, 0x0⟩
def fCPR_RST_CAUSE_SYSRSTN : Fld := ⟨0x10048, 3, 3, 0x0, 0x0⟩
def fCPR_RST_CAUSE_BROWNOUT_CORE : Fld := ⟨0x10048, 2, 2, 0x0, 0x0⟩
def fCPR_RST_CAUSE_BROWNOUT_AON : Fld := ⟨0x10048, 1, 1, 0x0, 0x0⟩
def fCPR_RST_CAUSE_PORN : Fld := ⟨0x10048, 0, 0, 0x0, 0x0⟩
def rCPR_RST_CFG : Nat := 0x1004C
def fCPR_RST_CFG_WDOG_SYS : Fld := ⟨0x1004C, 31, 31, 0x0, 0x0⟩
def fCPR_RST_CFG_WDOG_MS : Fld := ⟨0x1004C, 15, 0, 0x0, 0x0⟩
def rCPR_THERM : Nat := 0x10050
def fCPR_THERM_WARN_AT : Fld := ⟨0x10050, 15, 8, 0x0, 0x0⟩
def fCPR_THERM_TEMP : Fld := ⟨0x10050, 7, 0, 0x0, 0x0⟩
def rCPR_BOOT_STAT : Nat := 0x10058
def fCPR_BOOT_STAT_BOOTSEL : Fld := ⟨0x10058, 31, 31, 0x0, 0x0⟩
def fCPR_BOOT_STAT_SLOT : Fld := ⟨0x10058, 30, 30, 0x0, 0x0⟩
def fCPR_BOOT_STAT_HOST_BOOT : Fld := ⟨0x10058, 29, 29, 0x0, 0x0⟩
def fCPR_BOOT_STAT_ROM_STATE : Fld := ⟨0x10058, 23, 20, 0x0, 0x0⟩
def rCPR_BOOT_SEQ : Nat := 0x1005C
def fCPR_BOOT_SEQ_SEQ : Fld := ⟨0x1005C, 31, 0, 0x0, 0x0⟩
def rCPR_WAKE_CFG : Nat := 0x10060
def fCPR_WAKE_CFG_WAKE_EN : Fld := ⟨0x10060, 31, 31, 0x0, 0x0⟩
def fCPR_WAKE_CFG_WAKE_MODE : Fld := ⟨0x10060, 3, 0, 0x0, 0x0⟩
def rSER_CFG : Nat := 0x30000
def fSER_CFG_EN : Fld := ⟨0x30000, 31, 31, 0x40, 0x0⟩
def fSER_CFG_MODE : Fld := ⟨0x30000, 30, 30, 0x40, 0x0⟩
def fSER_CFG_PARSE : Fld := ⟨0x30000, 29, 29, 0x40, 0x0⟩
def fSER_CFG_XON_EN : Fld := ⟨0x30000, 28, 28, 0x40, 0x0⟩
def fSER_CFG_AUTOBAUD : Fld := ⟨0x30000, 27, 27, 0x40, 0x0⟩
def fSER_CFG_SENSE : Fld := ⟨0x30000, 26, 26, 0x40, 0x0⟩
def fSER_CFG_DATA7 : Fld := ⟨0x30000, 25, 25, 0x40, 0x0⟩
def fSER_CFG_PARITY : Fld := ⟨0x30000, 24, 23, 0x40, 0x0⟩
def fSER_CFG_STOP2 : Fld := ⟨0x30000, 22, 22, 0x40, 0x0⟩
def fSER_CFG_PRIO : Fld := ⟨0x30000, 21, 19, 0x40, 0x0⟩
def rSER_CFG4 : Nat := 0x30100
def fSER_CFG4_EN : Fld := ⟨0x30100, 31, 31, 0x0, 0x0⟩
def fSER_CFG4_MODE : Fld := ⟨0x30100, 30, 30, 0x0, 0x0⟩
def fSER_CFG4_PARSE : Fld := ⟨0x30100, 29, 29, 0x0, 0x0⟩
def fSER_CFG4_XON_EN : Fld := ⟨0x30100, 28, 28, 0x0, 0x0⟩
def fSER_CFG4_AUTOBAUD : Fld := ⟨0x30100, 27, 27, 0x0, 0x0⟩
def fSER_CFG4_SENSE : Fld := ⟨0x30100, 26, 26, 0x0, 0x0⟩
def fSER_CFG4_DATA7 : Fld := ⟨0x30100, 25, 25, 0x0, 0x0⟩
def fSER_CFG4_PARITY : Fld := ⟨0x30100, 24, 23, 0x0, 0x0⟩
def fSER_CFG4_STOP2 : Fld := ⟨0x30100, 22, 22, 0x0, 0x0⟩
def fSER_CFG4_PRIO : Fld := ⟨0x30100, 21, 19, 0x0, 0x0⟩
def rSER_DIV : Nat := 0x30004
def fSER_DIV_INT : Fld := ⟨0x30004, 23, 8, 0x40, 0x0⟩
def fSER_DIV_FRAC : Fld := ⟨0x30004, 7, 0, 0x40, 0x0⟩
def rSER_FLOW : Nat := 0x30008
def fSER_FLOW_XON_AT : Fld := ⟨0x30008, 15, 8, 0x40, 0x0⟩
def fSER_FLOW_XOFF_AT : Fld := ⟨0x30008, 7, 0, 0x40, 0x0⟩
def rSER_STAT : Nat := 0x3000C
def fSER_STAT_RX_FILL : Fld := ⟨0x3000C, 24, 18, 0x40, 0x0⟩
def fSER_STAT_TX_FILL : Fld := ⟨0x3000C, 17, 11, 0x40, 0x0⟩
def fSER_STAT_TX_PAUSED : Fld := ⟨0x3000C, 10, 10, 0x40, 0x0⟩
def fSER_STAT_XOFF_SENT : Fld := ⟨0x3000C, 9, 9, 0x40, 0x0⟩
def fSER_STAT_BRK : Fld := ⟨0x3000C, 3, 3, 0x40, 0x0⟩
def fSER_STAT_OVR : Fld := ⟨0x3000C, 2, 2, 0x40, 0x0⟩
def fSER_STAT_PE : Fld := ⟨0x3000C, 1, 1, 0x40, 0x0⟩
def fSER_STAT_FE : Fld := ⟨0x3000C, 0, 0, 0x40, 0x0⟩
def rSER_RXDATA : Nat := 0x30010
def fSER_RXDATA_VALID : Fld := ⟨0x30010, 31, 31, 0x40, 0x0⟩
def fSER_RXDATA_DATA : Fld := ⟨0x30010, 7, 0, 0x40, 0x0⟩
def rSER_TXDATA : Nat := 0x30014
def fSER_TXDATA_DATA : Fld := ⟨0x30014, 7, 0, 0x40, 0x0⟩
def rSER_ERRCNT : Nat := 0x30018
def fSER_ERRCNT_COUNT : Fld := ⟨0x30018, 31, 0, 0x40, 0x0⟩
def rSER_LASTPROG : Nat := 0x3001C
def fSER_LASTPROG_VALID : Fld := ⟨0x3001C, 31, 31, 0x40, 0x0⟩
def fSER_LASTPROG_CHANNEL : Fld := ⟨0x3001C, 11, 8, 0x40, 0x0⟩
def fSER_LASTPROG_PROGRAM : Fld := ⟨0x3001C, 6, 0, 0x40, 0x0⟩
def rUSB_CTRL : Nat := 0x50000
def fUSB_CTRL_EN : Fld := ⟨0x50000, 31, 31, 0x0, 0x0⟩
def fUSB_CTRL_REF : Fld := ⟨0x50000, 30, 30, 0x0, 0x0⟩
def rUSB_STAT : Nat := 0x50004
def fUSB_STAT_CONFIGURED : Fld := ⟨0x50004, 31, 31, 0x0, 0x0⟩
def fUSB_STAT_HIGH_SPEED : Fld := ⟨0x50004, 30, 30, 0x0, 0x0⟩
def fUSB_STAT_SUSPENDED : Fld := ⟨0x50004, 29, 29, 0x0, 0x0⟩
def fUSB_STAT_DETACHED_FB : Fld := ⟨0x50004, 28, 28, 0x0, 0x0⟩
def fUSB_STAT_ALT_OUT : Fld := ⟨0x50004, 27, 26, 0x0, 0x0⟩
def fUSB_STAT_ALT_IN : Fld := ⟨0x50004, 25, 24, 0x0, 0x0⟩
def fUSB_STAT_ALT_MIDI : Fld := ⟨0x50004, 23, 23, 0x0, 0x0⟩
def fUSB_STAT_OUT_FILL : Fld := ⟨0x50004, 6, 0, 0x0, 0x0⟩
def rUSB_FB : Nat := 0x50008
def fUSB_FB_VALUE : Fld := ⟨0x50008, 31, 0, 0x0, 0x0⟩
def rUSB_UMP_CFG : Nat := 0x5000C
def fUSB_UMP_CFG_NPC_B : Fld := ⟨0x5000C, 15, 8, 0x0, 0x0⟩
def fUSB_UMP_CFG_NPC_A : Fld := ⟨0x5000C, 7, 0, 0x0, 0x0⟩
def rUSB_AUD_ERR : Nat := 0x50010
def fUSB_AUD_ERR_COUNT : Fld := ⟨0x50010, 31, 0, 0x0, 0x0⟩
def rUSB_ID : Nat := 0x50014
def fUSB_ID_PID : Fld := ⟨0x50014, 31, 16, 0x0, 0x0⟩
def fUSB_ID_VID : Fld := ⟨0x50014, 15, 0, 0x0, 0x0⟩
def rNET_CTRL : Nat := 0x40000
def fNET_CTRL_EN : Fld := ⟨0x40000, 31, 31, 0x200, 0x0⟩
def fNET_CTRL_PLCA_EN : Fld := ⟨0x40000, 30, 30, 0x200, 0x0⟩
def fNET_CTRL_SA_CHECK : Fld := ⟨0x40000, 29, 29, 0x200, 0x0⟩
def fNET_CTRL_PRIO : Fld := ⟨0x40000, 27, 25, 0x200, 0x0⟩
def fNET_CTRL_ETYPE : Fld := ⟨0x40000, 15, 0, 0x200, 0x0⟩
def rNET_PLCA : Nat := 0x40004
def fNET_PLCA_NODE_ID : Fld := ⟨0x40004, 31, 24, 0x200, 0x0⟩
def fNET_PLCA_NODE_COUNT : Fld := ⟨0x40004, 23, 16, 0x200, 0x0⟩
def fNET_PLCA_BURST_CNT : Fld := ⟨0x40004, 15, 8, 0x200, 0x0⟩
def fNET_PLCA_TO_TIMER : Fld := ⟨0x40004, 7, 0, 0x200, 0x0⟩
def rNET_PLCA2 : Nat := 0x40008
def fNET_PLCA2_BURST_TMR : Fld := ⟨0x40008, 7, 0, 0x200, 0x0⟩
def rNET_MAC_LO : Nat := 0x4000C
def fNET_MAC_LO_ADDR_LO : Fld := ⟨0x4000C, 31, 0, 0x200, 0x0⟩
def rNET_MAC_HI : Nat := 0x40010
def fNET_MAC_HI_ADDR_HI : Fld := ⟨0x40010, 15, 0, 0x200, 0x0⟩
def rNET_BCAST : Nat := 0x4001C
def fNET_BCAST_DEPTH : Fld := ⟨0x4001C, 31, 24, 0x200, 0x0⟩
def fNET_BCAST_RATE : Fld := ⟨0x4001C, 15, 0, 0x200, 0x0⟩
def rNET_STAT : Nat := 0x40020
def fNET_STAT_LINK : Fld := ⟨0x40020, 31, 31, 0x200, 0x0⟩
def fNET_STAT_MAC_MODE : Fld := ⟨0x40020, 30, 30, 0x200, 0x0⟩
def fNET_STAT_COORD : Fld := ⟨0x40020, 29, 29, 0x200, 0x0⟩
def fNET_STAT_RX_FILL : Fld := ⟨0x40020, 6, 4, 0x200, 0x0⟩
def fNET_STAT_TX_FILL : Fld := ⟨0x40020, 3, 0, 0x200, 0x0⟩
def rNET_RX_FRAMES : Nat := 0x40024
def fNET_RX_FRAMES_COUNT : Fld := ⟨0x40024, 31, 0, 0x200, 0x0⟩
def rNET_FCS_COUNT : Nat := 0x40028
def fNET_FCS_COUNT_COUNT : Fld := ⟨0x40028, 31, 0, 0x200, 0x0⟩
def rNET_SYM_COUNT : Nat := 0x4002C
def fNET_SYM_COUNT_COUNT : Fld := ⟨0x4002C, 31, 0, 0x200, 0x0⟩
def rNET_COLL_COUNT : Nat := 0x40030
def fNET_COLL_COUNT_COUNT : Fld := ⟨0x40030, 31, 0, 0x200, 0x0⟩
def rNET_STRANGER_COUNT : Nat := 0x40034
def fNET_STRANGER_COUNT_COUNT : Fld := ⟨0x40034, 31, 0, 0x200, 0x0⟩
def rNET_BCAST_DROP : Nat := 0x40038
def fNET_BCAST_DROP_COUNT : Fld := ⟨0x40038, 31, 0, 0x200, 0x0⟩
def rNET_BP_COUNT : Nat := 0x4003C
def fNET_BP_COUNT_COUNT : Fld := ⟨0x4003C, 31, 0, 0x200, 0x0⟩
def rNET_BAD_FRAME : Nat := 0x40040
def fNET_BAD_FRAME_COUNT : Fld := ⟨0x40040, 31, 0, 0x200, 0x0⟩
def rNET_OTHER_COUNT : Nat := 0x40044
def fNET_OTHER_COUNT_COUNT : Fld := ⟨0x40044, 31, 0, 0x200, 0x0⟩
def rNET_TX_ABORT : Nat := 0x40048
def fNET_TX_ABORT_COUNT : Fld := ⟨0x40048, 31, 0, 0x200, 0x0⟩
def rNET_HASH : Nat := 0x40014
def fNET_HASH_BINS : Fld := ⟨0x40014, 31, 0, 0x200, 0x4⟩
def rNET_FILT_LO : Nat := 0x40100
def fNET_FILT_LO_ADDR_LO : Fld := ⟨0x40100, 31, 0, 0x200, 0x8⟩
def rNET_FILT_HI : Nat := 0x40104
def fNET_FILT_HI_VALID : Fld := ⟨0x40104, 31, 31, 0x200, 0x8⟩
def fNET_FILT_HI_KIND : Fld := ⟨0x40104, 30, 30, 0x200, 0x8⟩
def fNET_FILT_HI_ADDR_HI : Fld := ⟨0x40104, 15, 0, 0x200, 0x8⟩
def rNET_PTP_CFG : Nat := 0x40400
def fNET_PTP_CFG_EN : Fld := ⟨0x40400, 31, 31, 0x0, 0x0⟩
def fNET_PTP_CFG_PORT : Fld := ⟨0x40400, 24, 24, 0x0, 0x0⟩
def fNET_PTP_CFG_DREQ_LOG : Fld := ⟨0x40400, 23, 16, 0x0, 0x0⟩
def fNET_PTP_CFG_DOMAIN : Fld := ⟨0x40400, 7, 0, 0x0, 0x0⟩
def rNET_PTP_LAT : Nat := 0x4040C
def fNET_PTP_LAT_TX_LAT : Fld := ⟨0x4040C, 31, 16, 0x0, 0x0⟩
def fNET_PTP_LAT_RX_LAT : Fld := ⟨0x4040C, 15, 0, 0x0, 0x0⟩
def rNET_PTP_LOCK : Nat := 0x40410
def fNET_PTP_LOCK_LOCK_NS : Fld := ⟨0x40410, 15, 0, 0x0, 0x0⟩
def rNET_PTP_STAT : Nat := 0x40414
def fNET_PTP_STAT_LOCKED : Fld := ⟨0x40414, 31, 31, 0x0, 0x0⟩
def fNET_PTP_STAT_ANCHORED : Fld := ⟨0x40414, 30, 30, 0x0, 0x0⟩
def fNET_PTP_STAT_OFFSET_NS : Fld := ⟨0x40414, 15, 0, 0x0, 0x0⟩
def rNET_RATE : Nat := 0x40428
def fNET_RATE_RATE : Fld := ⟨0x40428, 31, 0, 0x0, 0x0⟩
def rNET_UNSYNC_COUNT : Nat := 0x4042C
def fNET_UNSYNC_COUNT_COUNT : Fld := ⟨0x4042C, 31, 0, 0x0, 0x0⟩
def rNET_PTP_FOREIGN : Nat := 0x40430
def fNET_PTP_FOREIGN_COUNT : Fld := ⟨0x40430, 31, 0, 0x0, 0x0⟩
def rNET_PTP_GM : Nat := 0x40404
def fNET_PTP_GM_IDENT : Fld := ⟨0x40404, 31, 0, 0x4, 0x0⟩
def rNET_ANCHOR_TIDE_LO : Nat := 0x40418
def fNET_ANCHOR_TIDE_LO_T0 : Fld := ⟨0x40418, 31, 0, 0x0, 0x0⟩
def rNET_ANCHOR_TIDE_HI : Nat := 0x4041C
def fNET_ANCHOR_TIDE_HI_T0 : Fld := ⟨0x4041C, 15, 0, 0x0, 0x0⟩
def rNET_ANCHOR_NET_LO : Nat := 0x40420
def fNET_ANCHOR_NET_LO_N0 : Fld := ⟨0x40420, 31, 0, 0x0, 0x0⟩
def rNET_ANCHOR_NET_HI : Nat := 0x40424
def fNET_ANCHOR_NET_HI_N0 : Fld := ⟨0x40424, 15, 0, 0x0, 0x0⟩
def rAOUT_CTRL : Nat := 0x60000
def fAOUT_CTRL_LDACN_OUT : Fld := ⟨0x60000, 0, 0, 0x0, 0x0⟩
def rAOUT_STAT : Nat := 0x60004
def fAOUT_STAT_SHADOW_HIZ : Fld := ⟨0x60004, 31, 31, 0x0, 0x0⟩
def fAOUT_STAT_RANGE_BUSY : Fld := ⟨0x60004, 23, 16, 0x0, 0x0⟩
def fAOUT_STAT_CONNECTED : Fld := ⟨0x60004, 15, 8, 0x0, 0x0⟩
def rDAC_STROBE : Nat := 0x60020
def fDAC_STROBE_GROUP : Fld := ⟨0x60020, 3, 0, 0x0, 0x0⟩
def rSPDIF_OUT_CFG : Nat := 0x60300
def fSPDIF_OUT_CFG_EN : Fld := ⟨0x60300, 31, 31, 0x0, 0x0⟩
def fSPDIF_OUT_CFG_WIDTH : Fld := ⟨0x60300, 25, 24, 0x0, 0x0⟩
def rSPDIF_OUT_CS : Nat := 0x60304
def fSPDIF_OUT_CS_CS : Fld := ⟨0x60304, 31, 0, 0x0, 0x0⟩
def rSPDIF_IN_CFG : Nat := 0x60308
def fSPDIF_IN_CFG_EN : Fld := ⟨0x60308, 31, 31, 0x0, 0x0⟩
def rSPDIF_IN_STAT : Nat := 0x6030C
def fSPDIF_IN_STAT_LOCK : Fld := ⟨0x6030C, 31, 31, 0x0, 0x0⟩
def fSPDIF_IN_STAT_NON_PCM : Fld := ⟨0x6030C, 30, 30, 0x0, 0x0⟩
def fSPDIF_IN_STAT_RATE : Fld := ⟨0x6030C, 17, 0, 0x0, 0x0⟩
def rASRC_CFG : Nat := 0x60340
def fASRC_CFG_EN : Fld := ⟨0x60340, 31, 31, 0x0, 0x0⟩
def fASRC_CFG_SRC1 : Fld := ⟨0x60340, 15, 14, 0x0, 0x0⟩
def fASRC_CFG_SLOT1 : Fld := ⟨0x60340, 13, 10, 0x0, 0x0⟩
def fASRC_CFG_SRC0 : Fld := ⟨0x60340, 7, 6, 0x0, 0x0⟩
def fASRC_CFG_SLOT0 : Fld := ⟨0x60340, 5, 2, 0x0, 0x0⟩
def rASRC_STAT : Nat := 0x60344
def fASRC_STAT_LOCK : Fld := ⟨0x60344, 31, 30, 0x0, 0x0⟩
def rTDM_ERR_COUNT : Nat := 0x60380
def fTDM_ERR_COUNT_COUNT : Fld := ⟨0x60380, 31, 0, 0x0, 0x0⟩
def rSPDIF_ERR_COUNT : Nat := 0x60384
def fSPDIF_ERR_COUNT_COUNT : Fld := ⟨0x60384, 31, 0, 0x0, 0x0⟩
def rDAC_GRP : Nat := 0x60010
def fDAC_GRP_SRC : Fld := ⟨0x60010, 5, 4, 0x4, 0x0⟩
def fDAC_GRP_TIDE_CH : Fld := ⟨0x60010, 3, 0, 0x4, 0x0⟩
def rDAC_CFG : Nat := 0x60100
def fDAC_CFG_EN : Fld := ⟨0x60100, 31, 31, 0x10, 0x0⟩
def fDAC_CFG_MODE : Fld := ⟨0x60100, 30, 30, 0x10, 0x0⟩
def fDAC_CFG_DSRC : Fld := ⟨0x60100, 29, 29, 0x10, 0x0⟩
def fDAC_CFG_INTERP : Fld := ⟨0x60100, 28, 28, 0x10, 0x0⟩
def fDAC_CFG_SHAPER : Fld := ⟨0x60100, 27, 27, 0x10, 0x0⟩
def fDAC_CFG_RANGE : Fld := ⟨0x60100, 9, 8, 0x10, 0x0⟩
def fDAC_CFG_GROUP : Fld := ⟨0x60100, 5, 4, 0x10, 0x0⟩
def rDAC_CODE : Nat := 0x60104
def fDAC_CODE_CODE : Fld := ⟨0x60104, 15, 0, 0x10, 0x0⟩
def rDAC_STAT : Nat := 0x60108
def fDAC_STAT_RANGE_BUSY : Fld := ⟨0x60108, 31, 31, 0x10, 0x0⟩
def fDAC_STAT_CONNECTED : Fld := ⟨0x60108, 30, 30, 0x10, 0x0⟩
def fDAC_STAT_FAULT : Fld := ⟨0x60108, 29, 29, 0x10, 0x0⟩
def fDAC_STAT_ACTIVE : Fld := ⟨0x60108, 15, 0, 0x10, 0x0⟩
def rTDM_OUT_CFG : Nat := 0x60200
def fTDM_OUT_CFG_EN : Fld := ⟨0x60200, 31, 31, 0x10, 0x0⟩
def fTDM_OUT_CFG_MASTER : Fld := ⟨0x60200, 30, 30, 0x10, 0x0⟩
def fTDM_OUT_CFG_FMT : Fld := ⟨0x60200, 29, 28, 0x10, 0x0⟩
def fTDM_OUT_CFG_WIDTH : Fld := ⟨0x60200, 27, 26, 0x10, 0x0⟩
def fTDM_OUT_CFG_FS_DLY : Fld := ⟨0x60200, 25, 25, 0x10, 0x0⟩
def fTDM_OUT_CFG_BCLK_INV : Fld := ⟨0x60200, 24, 24, 0x10, 0x0⟩
def fTDM_OUT_CFG_SLOTS : Fld := ⟨0x60200, 20, 16, 0x10, 0x0⟩
def rTDM_IN_CFG : Nat := 0x60240
def fTDM_IN_CFG_EN : Fld := ⟨0x60240, 31, 31, 0x10, 0x0⟩
def fTDM_IN_CFG_MASTER : Fld := ⟨0x60240, 30, 30, 0x10, 0x0⟩
def fTDM_IN_CFG_FMT : Fld := ⟨0x60240, 29, 28, 0x10, 0x0⟩
def fTDM_IN_CFG_WIDTH : Fld := ⟨0x60240, 27, 26, 0x10, 0x0⟩
def fTDM_IN_CFG_FS_DLY : Fld := ⟨0x60240, 25, 25, 0x10, 0x0⟩
def fTDM_IN_CFG_BCLK_INV : Fld := ⟨0x60240, 24, 24, 0x10, 0x0⟩
def fTDM_IN_CFG_SLOTS : Fld := ⟨0x60240, 20, 16, 0x10, 0x0⟩
def rFERRY_CTRL : Nat := 0x70000
def fFERRY_CTRL_EN : Fld := ⟨0x70000, 31, 31, 0x0, 0x0⟩
def fFERRY_CTRL_ROLE : Fld := ⟨0x70000, 30, 30, 0x0, 0x0⟩
def fFERRY_CTRL_AUTO_BOARD : Fld := ⟨0x70000, 29, 29, 0x0, 0x0⟩
def fFERRY_CTRL_AUTO_LAND : Fld := ⟨0x70000, 28, 28, 0x0, 0x0⟩
def fFERRY_CTRL_LAND_STALE : Fld := ⟨0x70000, 27, 27, 0x0, 0x0⟩
def rFERRY_STAT : Nat := 0x70004
def fFERRY_STAT_LINK : Fld := ⟨0x70004, 31, 31, 0x0, 0x0⟩
def fFERRY_STAT_STRAP : Fld := ⟨0x70004, 30, 30, 0x0, 0x0⟩
def fFERRY_STAT_FAULTN_IN : Fld := ⟨0x70004, 29, 29, 0x0, 0x0⟩
def fFERRY_STAT_HASH_VALID : Fld := ⟨0x70004, 28, 28, 0x0, 0x0⟩
def fFERRY_STAT_GUARD : Fld := ⟨0x70004, 27, 27, 0x0, 0x0⟩
def fFERRY_STAT_PEER_STATE : Fld := ⟨0x70004, 11, 8, 0x0, 0x0⟩
def fFERRY_STAT_STATE : Fld := ⟨0x70004, 3, 0, 0x0, 0x0⟩
def rFERRY_CROSS : Nat := 0x70018
def fFERRY_CROSS_MIB_COPIED : Fld := ⟨0x70018, 31, 11, 0x0, 0x0⟩
def fFERRY_CROSS_VOICES : Fld := ⟨0x70018, 10, 0, 0x0, 0x0⟩
def rFERRY_CKSUM_FAIL : Nat := 0x70024
def fFERRY_CKSUM_FAIL_COUNT : Fld := ⟨0x70024, 31, 0, 0x0, 0x0⟩
def rFERRY_HB_MISS : Nat := 0x70028
def fFERRY_HB_MISS_COUNT : Fld := ⟨0x70028, 31, 0, 0x0, 0x0⟩
def rFERRY_REPLAY : Nat := 0x7002C
def fFERRY_REPLAY_COUNT : Fld := ⟨0x7002C, 31, 0, 0x0, 0x0⟩
def rFERRY_LATE : Nat := 0x70030
def fFERRY_LATE_COUNT : Fld := ⟨0x70030, 31, 0, 0x0, 0x0⟩
def rFERRY_OWN_DROP : Nat := 0x70034
def fFERRY_OWN_DROP_COUNT : Fld := ⟨0x70034, 31, 0, 0x0, 0x0⟩
def rFERRY_DELTA_LO : Nat := 0x70008
def fFERRY_DELTA_LO_DELTA : Fld := ⟨0x70008, 31, 0, 0x0, 0x0⟩
def rFERRY_DELTA_HI : Nat := 0x7000C
def fFERRY_DELTA_HI_DELTA : Fld := ⟨0x7000C, 15, 0, 0x0, 0x0⟩
def rFERRY_LIB_HASH : Nat := 0x70010
def fFERRY_LIB_HASH_HASH : Fld := ⟨0x70010, 31, 0, 0x4, 0x0⟩
def rFERRY_DIVERGE_LO : Nat := 0x7001C
def fFERRY_DIVERGE_LO_BOUNDARY : Fld := ⟨0x7001C, 31, 0, 0x0, 0x0⟩
def rFERRY_DIVERGE_HI : Nat := 0x70020
def fFERRY_DIVERGE_HI_BOUNDARY : Fld := ⟨0x70020, 15, 0, 0x0, 0x0⟩
def rTEST_BIST_STAT : Nat := 0xE0000
def fTEST_BIST_STAT_VALID : Fld := ⟨0xE0000, 31, 31, 0x0, 0x0⟩
def fTEST_BIST_STAT_BUSY : Fld := ⟨0xE0000, 30, 30, 0x0, 0x0⟩
def rTEST_MBIST_ADDR : Nat := 0xE000C
def fTEST_MBIST_ADDR_VALID : Fld := ⟨0xE000C, 31, 31, 0x0, 0x0⟩
def fTEST_MBIST_ADDR_MEM : Fld := ⟨0xE000C, 30, 28, 0x0, 0x0⟩
def fTEST_MBIST_ADDR_OFFSET : Fld := ⟨0xE000C, 24, 0, 0x0, 0x0⟩
def rTEST_BG_CFG : Nat := 0xE0010
def fTEST_BG_CFG_EN : Fld := ⟨0xE0010, 31, 31, 0x0, 0x0⟩
def fTEST_BG_CFG_SPACING : Fld := ⟨0xE0010, 15, 0, 0x0, 0x0⟩
def rTEST_BG_STAT : Nat := 0xE0014
def fTEST_BG_STAT_SWEEPS : Fld := ⟨0xE0014, 31, 16, 0x0, 0x0⟩
def fTEST_BG_STAT_BG_FAULTS : Fld := ⟨0xE0014, 15, 0, 0x0, 0x0⟩
def rTEST_BG_FAULT : Nat := 0xE0018
def fTEST_BG_FAULT_VALID : Fld := ⟨0xE0018, 31, 31, 0x0, 0x0⟩
def fTEST_BG_FAULT_BANK : Fld := ⟨0xE0018, 16, 11, 0x0, 0x0⟩
def fTEST_BG_FAULT_SLICE : Fld := ⟨0xE0018, 10, 0, 0x0, 0x0⟩
def rTEST_JTAG_STAT : Nat := 0xE001C
def fTEST_JTAG_STAT_LOCKED : Fld := ⟨0xE001C, 31, 31, 0x0, 0x0⟩
def fTEST_JTAG_STAT_BARRED : Fld := ⟨0xE001C, 30, 30, 0x0, 0x0⟩
def fTEST_JTAG_STAT_FAILS : Fld := ⟨0xE001C, 1, 0, 0x0, 0x0⟩
def rTEST_LEVEL_HIT : Nat := 0xE0020
def fTEST_LEVEL_HIT_HIT : Fld := ⟨0xE0020, 15, 0, 0x0, 0x0⟩
def rTEST_SNAP : Nat := 0xE0024
def fTEST_SNAP_CLEAR : Fld := ⟨0xE0024, 31, 31, 0x0, 0x0⟩
def fTEST_SNAP_SNAP : Fld := ⟨0xE0024, 23, 0, 0x0, 0x0⟩
def rTEST_BIST_RES : Nat := 0xE0004
def fTEST_BIST_RES_TARGETS : Fld := ⟨0xE0004, 31, 0, 0x4, 0x0⟩
def rTEST_BIST_SIG : Nat := 0xE0040
def fTEST_BIST_SIG_SIG : Fld := ⟨0xE0040, 31, 0, 0x4, 0x0⟩
def rTEST_LANE_LOAD : Nat := 0xE0100
def fTEST_LANE_LOAD_PEAK : Fld := ⟨0xE0100, 31, 16, 0x8, 0x0⟩
def fTEST_LANE_LOAD_LAST : Fld := ⟨0xE0100, 15, 0, 0x8, 0x0⟩
def rTEST_LANE_SLACK : Nat := 0xE0104
def fTEST_LANE_SLACK_MIN_SLACK : Fld := ⟨0xE0104, 15, 0, 0x8, 0x0⟩
def rMON_CFG_LAT : Nat := 0xE0200
def fMON_CFG_LAT_EN : Fld := ⟨0xE0200, 31, 31, 0x20, 0x0⟩
def fMON_CFG_LAT_KIND : Fld := ⟨0xE0200, 30, 28, 0x20, 0x0⟩
def fMON_CFG_LAT_SHIFT : Fld := ⟨0xE0200, 27, 24, 0x20, 0x0⟩
def fMON_CFG_LAT_PORT : Fld := ⟨0xE0200, 23, 16, 0x20, 0x0⟩
def fMON_CFG_LAT_CLASS : Fld := ⟨0xE0200, 15, 8, 0x20, 0x0⟩
def rMON_CFG_LEV : Nat := 0xE0300
def fMON_CFG_LEV_EN : Fld := ⟨0xE0300, 31, 31, 0x20, 0x0⟩
def fMON_CFG_LEV_COND : Fld := ⟨0xE0300, 30, 30, 0x20, 0x0⟩
def fMON_CFG_LEV_CHANNEL : Fld := ⟨0xE0300, 22, 16, 0x20, 0x0⟩
def fMON_CFG_LEV_WINDOW : Fld := ⟨0xE0300, 15, 0, 0x20, 0x0⟩
def rMON_THRESH_LAT : Nat := 0xE0204
def fMON_THRESH_LAT_THRESH : Fld := ⟨0xE0204, 31, 0, 0x20, 0x0⟩
def rMON_THRESH_LEV : Nat := 0xE0304
def fMON_THRESH_LEV_RUN : Fld := ⟨0xE0304, 21, 6, 0x20, 0x0⟩
def fMON_THRESH_LEV_BIN : Fld := ⟨0xE0304, 5, 0, 0x20, 0x0⟩
def rMON_MIN : Nat := 0xE0208
def fMON_MIN_VALUE : Fld := ⟨0xE0208, 31, 0, 0x20, 0x0⟩
def rMON_MAX : Nat := 0xE020C
def fMON_MAX_VALUE : Fld := ⟨0xE020C, 31, 0, 0x20, 0x0⟩
def rMON_COUNT : Nat := 0xE0210
def fMON_COUNT_COUNT : Fld := ⟨0xE0210, 31, 0, 0x20, 0x0⟩
def rMON_BASE : Nat := 0xE0214
def fMON_BASE_BASE : Fld := ⟨0xE0214, 31, 0, 0x20, 0x0⟩
def rTEST_SNAP_WORD : Nat := 0xE4000
def fTEST_SNAP_WORD_WORD : Fld := ⟨0xE4000, 31, 0, 0x200, 0x4⟩

def regs0_0 : List RegDef := [
  ⟨rHIF_ID, 1, 0x0, 1, 0x0, [⟨31, 0, .ro, 0x4F561024, 0x0, []⟩]⟩,
  ⟨rHIF_REV, 1, 0x0, 1, 0x0, [⟨15, 8, .ro, 0x0, 0x0, []⟩, ⟨7, 0, .ro, 0xB0, 0x0, []⟩]⟩,
  ⟨rHIF_STATUS, 1, 0x0, 1, 0x0, [⟨10, 10, .ro, 0x0, 0x0, []⟩, ⟨9, 9, .ro, 0x0, 0x0, []⟩, ⟨8, 8, .ro, 0x0, 0x0, []⟩, ⟨5, 4, .ro, 0x0, 0x0, []⟩, ⟨3, 0, .ro, 0x1, 0x0, []⟩]⟩,
  ⟨rHIF_GRANT, 1, 0x0, 1, 0x0, [⟨17, 17, .ro, 0x0, 0x0, []⟩, ⟨16, 16, .ro, 0x0, 0x0, []⟩, ⟨14, 1, .ro, 0x0, 0x0, []⟩, ⟨0, 0, .ro, 0x1, 0x0, []⟩]⟩,
  ⟨rHIF_DOORBELL_IN, 1, 0x0, 1, 0x0, [⟨7, 0, .w1s, 0x0, 0x0, []⟩]⟩,
  ⟨rHIF_DOORBELL_OUT, 1, 0x0, 1, 0x0, [⟨15, 8, .w1c, 0x0, 0x0, []⟩]⟩,
  ⟨rHIF_IRQ_CFG, 1, 0x0, 1, 0x0, [⟨15, 8, .rw, 0xFF, 0x0, []⟩, ⟨0, 0, .rw, 0x1, 0x0, []⟩]⟩,
  ⟨rHIF_HOST_CFG, 1, 0x0, 1, 0x0, [⟨9, 8, .rw, 0x0, 0x0, []⟩, ⟨6, 0, .rw, 0x10, 0x0, []⟩]⟩,
  ⟨rHIF_HOST_STAT, 1, 0x0, 1, 0x0, [⟨7, 7, .w1c, 0x0, 0x0, []⟩, ⟨6, 6, .w1c, 0x0, 0x0, []⟩, ⟨5, 5, .w1c, 0x0, 0x0, []⟩, ⟨4, 4, .w1c, 0x0, 0x0, []⟩, ⟨3, 3, .w1c, 0x0, 0x0, []⟩, ⟨2, 2, .w1c, 0x0, 0x0, []⟩, ⟨1, 1, .w1c, 0x0, 0x0, []⟩, ⟨0, 0, .w1c, 0x0, 0x0, []⟩]⟩,
  ⟨rHIF_ERR_ADDR, 1, 0x0, 1, 0x0, [⟨31, 0, .ro, 0x0, 0x0, []⟩]⟩,
  ⟨rHIF_LPDDR_PAGE, 1, 0x0, 1, 0x0, [⟨1, 0, .rw, 0x0, 0x0, []⟩]⟩,
  ⟨rHIF_I2C_ADDR, 1, 0x0, 1, 0x0, [⟨6, 0, .rw, 0x5C, 0x0, []⟩]⟩,
  ⟨rHIF_ABORT, 1, 0x0, 1, 0x0, [⟨31, 24, .wo, 0x0, 0x0, []⟩, ⟨15, 15, .wo, 0x0, 0x0, []⟩, ⟨6, 0, .wo, 0x0, 0x0, []⟩]⟩,
  ⟨rHIF_ABORT_STAT, 1, 0x0, 1, 0x0, [⟨15, 15, .ro, 0x0, 0x0, []⟩, ⟨6, 0, .ro, 0x0, 0x0, []⟩]⟩,
  ⟨rROLLCALL_REASON, 1, 0x0, 1, 0x0, [⟨31, 31, .ro, 0x0, 0x0, []⟩, ⟨23, 16, .ro, 0x0, 0x0, []⟩, ⟨15, 8, .ro, 0x0, 0x0, []⟩, ⟨7, 0, .ro, 0x0, 0x0, []⟩]⟩,
  ⟨rROLLCALL_ADDR, 1, 0x0, 1, 0x0, [⟨31, 0, .ro, 0x0, 0x0, []⟩]⟩,
  ⟨rHIF_EVT_SUMMARY, 1, 0x0, 1, 0x0, [⟨6, 0, .ro, 0x0, 0x0, []⟩]⟩]

def regs0 : List RegDef := regs0_0

def regs1_0 : List RegDef := [
  ⟨rCPR_CLK_CFG, 1, 0x0, 1, 0x0, [⟨16, 16, .rw, 0x0, 0x0, []⟩, ⟨15, 14, .rw, 0x3, 0x0, [(0, 1), (3, 3)]⟩, ⟨13, 12, .rw, 0x3, 0x0, [(0, 1), (3, 3)]⟩, ⟨10, 8, .rw, 0x4, 0x0, [(0, 4)]⟩, ⟨4, 4, .rw, 0x0, 0x0, []⟩, ⟨3, 2, .rw, 0x0, 0x0, [(0, 2)]⟩, ⟨1, 0, .rw, 0x1, 0x0, [(0, 2)]⟩]⟩,
  ⟨rCPR_CLK_STAT, 1, 0x0, 1, 0x0, [⟨31, 31, .ro, 0x0, 0x0, []⟩, ⟨30, 28, .ro, 0x0, 0x0, []⟩, ⟨27, 24, .ro, 0x0, 0x0, []⟩, ⟨22, 20, .ro, 0x0, 0x0, []⟩, ⟨19, 16, .ro, 0x0, 0x0, []⟩, ⟨10, 8, .ro, 0x4, 0x0, []⟩, ⟨3, 2, .ro, 0x3, 0x0, []⟩, ⟨1, 0, .ro, 0x3, 0x0, []⟩]⟩,
  ⟨rCPR_APLL_CFG, 1, 0x0, 1, 0x0, [⟨0, 0, .rw, 0x0, 0x0, []⟩]⟩,
  ⟨rCPR_APLL_N, 1, 0x0, 1, 0x0, [⟨31, 24, .ro, 0x28, 0x0, []⟩, ⟨23, 0, .ro, 0xF5C28F, 0x0, []⟩]⟩,
  ⟨rCPR_MCLK_CFG, 1, 0x0, 1, 0x0, [⟨2, 0, .rw, 0x3, 0x0, [(0, 5)]⟩]⟩,
  ⟨rCPR_MON_CFG, 1, 0x0, 1, 0x0, [⟨2, 0, .rw, 0x7, 0x0, []⟩]⟩,
  ⟨rCPR_MON_COUNT0, 1, 0x0, 1, 0x0, [⟨27, 16, .ro, 0x0, 0x0, []⟩, ⟨11, 0, .ro, 0x0, 0x0, []⟩]⟩,
  ⟨rCPR_MON_COUNT1, 1, 0x0, 1, 0x0, [⟨11, 0, .ro, 0x0, 0x0, []⟩]⟩,
  ⟨rCPR_IRC_TRIM, 1, 0x0, 1, 0x0, [⟨7, 0, .rw, 0x0, 0x0, []⟩]⟩,
  ⟨rCPR_MEM_CFG, 1, 0x0, 1, 0x0, [⟨10, 8, .rw, 0x3, 0x0, [(0, 3)]⟩, ⟨2, 0, .rw, 0x0, 0x0, [(0, 5)]⟩]⟩,
  ⟨rCPR_PD_STAT, 1, 0x0, 1, 0x0, [⟨29, 16, .w1c, 0x0, 0x0, []⟩, ⟨13, 0, .ro, 0x1, 0x0, []⟩]⟩,
  ⟨rCPR_PD_OPT, 1, 0x0, 1, 0x0, [⟨13, 7, .rw, 0x0, 0x0, []⟩]⟩,
  ⟨rCPR_RST_CAUSE, 1, 0x0, 1, 0x0, [⟨7, 7, .w1c, 0x0, 0x0, []⟩, ⟨6, 6, .w1c, 0x0, 0x0, []⟩, ⟨5, 5, .w1c, 0x0, 0x0, []⟩, ⟨4, 4, .w1c, 0x0, 0x0, []⟩, ⟨3, 3, .w1c, 0x0, 0x0, []⟩, ⟨2, 2, .w1c, 0x0, 0x0, []⟩, ⟨1, 1, .w1c, 0x0, 0x0, []⟩, ⟨0, 0, .w1c, 0x1, 0x0, []⟩]⟩,
  ⟨rCPR_RST_CFG, 1, 0x0, 1, 0x0, [⟨31, 31, .rw, 0x0, 0x0, []⟩, ⟨15, 0, .rw, 0x64, 0x0, [(10, 10000)]⟩]⟩,
  ⟨rCPR_THERM, 1, 0x0, 1, 0x0, [⟨15, 8, .rw, 0x64, 0x0, [(70, 110)]⟩, ⟨7, 0, .ro, 0x0, 0x0, []⟩]⟩,
  ⟨rCPR_BOOT_STAT, 1, 0x0, 1, 0x0, [⟨31, 31, .ro, 0x0, 0x0, []⟩, ⟨30, 30, .ro, 0x0, 0x0, []⟩, ⟨29, 29, .ro, 0x0, 0x0, []⟩, ⟨23, 20, .ro, 0x0, 0x0, []⟩]⟩,
  ⟨rCPR_BOOT_SEQ, 1, 0x0, 1, 0x0, [⟨31, 0, .ro, 0x0, 0x0, []⟩]⟩,
  ⟨rCPR_WAKE_CFG, 1, 0x0, 1, 0x0, [⟨31, 31, .rw, 0x0, 0x0, []⟩, ⟨3, 0, .rw, 0x4, 0x0, [(4, 6)]⟩]⟩]

def regs1 : List RegDef := regs1_0

def regs2_0 : List RegDef := [
  ⟨rTIDE_LO, 1, 0x0, 1, 0x0, [⟨31, 0, .ro, 0x0, 0x0, []⟩]⟩,
  ⟨rTIDE_HI, 1, 0x0, 1, 0x0, [⟨15, 0, .ro, 0x0, 0x0, []⟩]⟩,
  ⟨rTIDE_EPOCH, 1, 0x0, 1, 0x0, [⟨15, 0, .ro, 0x0, 0x0, []⟩]⟩,
  ⟨rTIDE_CTRL, 1, 0x0, 1, 0x0, [⟨0, 0, .rw, 0x0, 0x0, []⟩]⟩,
  ⟨rTIDE_STAT, 1, 0x0, 1, 0x0, [⟨31, 31, .ro, 0x0, 0x0, []⟩, ⟨30, 30, .ro, 0x0, 0x0, []⟩, ⟨29, 29, .ro, 0x0, 0x0, []⟩, ⟨10, 0, .ro, 0x400, 0x0, []⟩]⟩,
  ⟨rTIDE_BOUND_LO, 1, 0x0, 1, 0x0, [⟨31, 0, .ro, 0x0, 0x0, []⟩]⟩,
  ⟨rTIDE_BOUND_HI, 1, 0x0, 1, 0x0, [⟨15, 0, .ro, 0x0, 0x0, []⟩]⟩,
  ⟨rBELL_CFG, 1, 0x0, 1, 0x0, [⟨15, 0, .rw, 0x1F, 0x0, []⟩]⟩,
  ⟨rBELL_COUNT, 1, 0x0, 1, 0x0, [⟨15, 0, .ro, 0x0, 0x0, []⟩]⟩,
  ⟨rTIDE_POST_DROP, 1, 0x0, 1, 0x0, [⟨31, 0, .rc, 0x0, 0x0, []⟩]⟩,
  ⟨rTIDE_CMP_LO, 16, 0x10, 1, 0x0, [⟨31, 0, .rw, 0x0, 0x0, []⟩]⟩,
  ⟨rTIDE_CMP_HI, 16, 0x10, 1, 0x0, [⟨15, 0, .rw, 0x0, 0x0, []⟩]⟩,
  ⟨rTIDE_CMP_CTRL, 16, 0x10, 1, 0x0, [⟨31, 31, .rw, 0x0, 0x0, []⟩, ⟨29, 16, .rw, 0x1, 0x0, [(1, 16383)]⟩, ⟨13, 13, .rw, 0x0, 0x0, []⟩, ⟨12, 12, .rw, 0x0, 0x0, []⟩, ⟨10, 8, .rw, 0x0, 0x0, [(0, 4)]⟩, ⟨6, 4, .rw, 0x0, 0x0, []⟩]⟩,
  ⟨rTIDE_CMP_PER, 16, 0x10, 1, 0x0, [⟨31, 0, .rw, 0x0, 0x0, []⟩]⟩,
  ⟨rTIDE_CAP_LO, 8, 0x10, 1, 0x0, [⟨31, 0, .ro, 0x0, 0x0, []⟩]⟩,
  ⟨rTIDE_CAP_HI, 8, 0x10, 1, 0x0, [⟨31, 31, .ro, 0x0, 0x0, []⟩, ⟨30, 30, .ro, 0x0, 0x0, []⟩, ⟨16, 16, .ro, 0x0, 0x0, []⟩, ⟨15, 0, .ro, 0x0, 0x0, []⟩]⟩,
  ⟨rTIDE_CAP_CFG, 8, 0x10, 1, 0x0, [⟨31, 31, .rw, 0x0, 0x0, []⟩, ⟨27, 24, .rw, 0x0, 0x0, []⟩, ⟨23, 16, .rw, 0x0, 0x0, []⟩, ⟨9, 8, .rw, 0x1, 0x0, [(1, 3)]⟩, ⟨2, 0, .rw, 0x0, 0x1, []⟩]⟩,
  ⟨rTIO_CFG, 8, 0x4, 1, 0x0, [⟨5, 5, .ro, 0x0, 0x0, []⟩, ⟨4, 4, .rw, 0x0, 0x0, []⟩, ⟨3, 3, .rw, 0x0, 0x0, []⟩, ⟨2, 2, .rw, 0x0, 0x0, []⟩, ⟨1, 0, .rw, 0x0, 0x0, [(0, 1)]⟩]⟩,
  ⟨rTIDE_POST, 16, 0x20, 6, 0x4, [⟨31, 0, .rw, 0x0, 0x0, []⟩]⟩]

def regs2 : List RegDef := regs2_0

def regs3_0 : List RegDef := [
  ⟨rSER_CFG, 4, 0x40, 1, 0x0, [⟨31, 31, .rw, 0x0, 0x0, []⟩, ⟨30, 30, .rw, 0x0, 0x0, []⟩, ⟨29, 29, .rw, 0x0, 0x0, []⟩, ⟨28, 28, .rw, 0x0, 0x0, []⟩, ⟨27, 27, .rw, 0x0, 0x0, []⟩, ⟨26, 26, .rw, 0x0, 0x0, []⟩, ⟨25, 25, .rw, 0x0, 0x0, []⟩, ⟨24, 23, .rw, 0x0, 0x0, [(0, 2)]⟩, ⟨22, 22, .rw, 0x0, 0x0, []⟩, ⟨21, 19, .rw, 0x3, 0x0, []⟩]⟩,
  ⟨rSER_CFG4, 1, 0x0, 1, 0x0, [⟨31, 31, .rw, 0x0, 0x0, []⟩, ⟨30, 30, .ro, 0x1, 0x0, []⟩, ⟨29, 29, .ro, 0x1, 0x0, []⟩, ⟨28, 28, .rw, 0x0, 0x0, []⟩, ⟨27, 27, .rw, 0x0, 0x0, []⟩, ⟨26, 26, .rw, 0x0, 0x0, []⟩, ⟨25, 25, .rw, 0x0, 0x0, []⟩, ⟨24, 23, .rw, 0x0, 0x0, [(0, 2)]⟩, ⟨22, 22, .rw, 0x0, 0x0, []⟩, ⟨21, 19, .rw, 0x3, 0x0, []⟩]⟩,
  ⟨rSER_DIV, 5, 0x40, 1, 0x0, [⟨23, 8, .rw, 0x190, 0x0, [(1, 41666)]⟩, ⟨7, 0, .rw, 0x0, 0x0, []⟩]⟩,
  ⟨rSER_FLOW, 5, 0x40, 1, 0x0, [⟨15, 8, .rw, 0x10, 0x0, []⟩, ⟨7, 0, .rw, 0x30, 0x0, [(1, 64)]⟩]⟩,
  ⟨rSER_STAT, 5, 0x40, 1, 0x0, [⟨24, 18, .ro, 0x0, 0x0, []⟩, ⟨17, 11, .ro, 0x0, 0x0, []⟩, ⟨10, 10, .ro, 0x0, 0x0, []⟩, ⟨9, 9, .ro, 0x0, 0x0, []⟩, ⟨3, 3, .w1c, 0x0, 0x0, []⟩, ⟨2, 2, .w1c, 0x0, 0x0, []⟩, ⟨1, 1, .w1c, 0x0, 0x0, []⟩, ⟨0, 0, .w1c, 0x0, 0x0, []⟩]⟩,
  ⟨rSER_RXDATA, 5, 0x40, 1, 0x0, [⟨31, 31, .ro, 0x0, 0x0, []⟩, ⟨7, 0, .ro, 0x0, 0x0, []⟩]⟩,
  ⟨rSER_TXDATA, 5, 0x40, 1, 0x0, [⟨7, 0, .wo, 0x0, 0x0, []⟩]⟩,
  ⟨rSER_ERRCNT, 5, 0x40, 1, 0x0, [⟨31, 0, .rc, 0x0, 0x0, []⟩]⟩,
  ⟨rSER_LASTPROG, 5, 0x40, 1, 0x0, [⟨31, 31, .w1c, 0x0, 0x0, []⟩, ⟨11, 8, .ro, 0x0, 0x0, []⟩, ⟨6, 0, .ro, 0x0, 0x0, []⟩]⟩]

def regs3 : List RegDef := regs3_0

def regs4_0 : List RegDef := [
  ⟨rNET_CTRL, 2, 0x200, 1, 0x0, [⟨31, 31, .rw, 0x0, 0x0, []⟩, ⟨30, 30, .rw, 0x1, 0x0, []⟩, ⟨29, 29, .rw, 0x0, 0x0, []⟩, ⟨27, 25, .rw, 0x3, 0x0, []⟩, ⟨15, 0, .rw, 0x88B5, 0x0, [(1536, 35062), (35064, 65535)]⟩]⟩,
  ⟨rNET_PLCA, 2, 0x200, 1, 0x0, [⟨31, 24, .rw, 0xFF, 0x0, []⟩, ⟨23, 16, .rw, 0x8, 0x0, [(1, 255)]⟩, ⟨15, 8, .rw, 0x0, 0x0, []⟩, ⟨7, 0, .rw, 0x20, 0x0, [(1, 255)]⟩]⟩,
  ⟨rNET_PLCA2, 2, 0x200, 1, 0x0, [⟨7, 0, .rw, 0x80, 0x0, []⟩]⟩,
  ⟨rNET_MAC_LO, 2, 0x200, 1, 0x0, [⟨31, 0, .rw, 0x0, 0x0, []⟩]⟩,
  ⟨rNET_MAC_HI, 2, 0x200, 1, 0x0, [⟨15, 0, .rw, 0x0, 0x0, []⟩]⟩,
  ⟨rNET_BCAST, 2, 0x200, 1, 0x0, [⟨31, 24, .rw, 0x10, 0x0, [(1, 255)]⟩, ⟨15, 0, .rw, 0x64, 0x0, []⟩]⟩,
  ⟨rNET_STAT, 2, 0x200, 1, 0x0, [⟨31, 31, .ro, 0x0, 0x0, []⟩, ⟨30, 30, .ro, 0x0, 0x0, []⟩, ⟨29, 29, .ro, 0x0, 0x0, []⟩, ⟨6, 4, .ro, 0x0, 0x0, []⟩, ⟨3, 0, .ro, 0x0, 0x0, []⟩]⟩,
  ⟨rNET_RX_FRAMES, 2, 0x200, 1, 0x0, [⟨31, 0, .rc, 0x0, 0x0, []⟩]⟩,
  ⟨rNET_FCS_COUNT, 2, 0x200, 1, 0x0, [⟨31, 0, .rc, 0x0, 0x0, []⟩]⟩,
  ⟨rNET_SYM_COUNT, 2, 0x200, 1, 0x0, [⟨31, 0, .rc, 0x0, 0x0, []⟩]⟩,
  ⟨rNET_COLL_COUNT, 2, 0x200, 1, 0x0, [⟨31, 0, .rc, 0x0, 0x0, []⟩]⟩,
  ⟨rNET_STRANGER_COUNT, 2, 0x200, 1, 0x0, [⟨31, 0, .rc, 0x0, 0x0, []⟩]⟩,
  ⟨rNET_BCAST_DROP, 2, 0x200, 1, 0x0, [⟨31, 0, .rc, 0x0, 0x0, []⟩]⟩,
  ⟨rNET_BP_COUNT, 2, 0x200, 1, 0x0, [⟨31, 0, .rc, 0x0, 0x0, []⟩]⟩,
  ⟨rNET_BAD_FRAME, 2, 0x200, 1, 0x0, [⟨31, 0, .rc, 0x0, 0x0, []⟩]⟩,
  ⟨rNET_OTHER_COUNT, 2, 0x200, 1, 0x0, [⟨31, 0, .rc, 0x0, 0x0, []⟩]⟩,
  ⟨rNET_TX_ABORT, 2, 0x200, 1, 0x0, [⟨31, 0, .rc, 0x0, 0x0, []⟩]⟩,
  ⟨rNET_HASH, 2, 0x200, 2, 0x4, [⟨31, 0, .rw, 0x0, 0x0, []⟩]⟩,
  ⟨rNET_FILT_LO, 2, 0x200, 32, 0x8, [⟨31, 0, .rw, 0x0, 0x0, []⟩]⟩,
  ⟨rNET_FILT_HI, 2, 0x200, 32, 0x8, [⟨31, 31, .rw, 0x0, 0x0, []⟩, ⟨30, 30, .rw, 0x0, 0x0, []⟩, ⟨15, 0, .rw, 0x0, 0x0, []⟩]⟩]

def regs4_1 : List RegDef := [
  ⟨rNET_PTP_CFG, 1, 0x0, 1, 0x0, [⟨31, 31, .rw, 0x0, 0x0, []⟩, ⟨24, 24, .rw, 0x0, 0x0, []⟩, ⟨23, 16, .rw, 0xFD, 0x0, [(0, 4), (249, 255)]⟩, ⟨7, 0, .rw, 0x0, 0x0, [(0, 127)]⟩]⟩,
  ⟨rNET_PTP_LAT, 1, 0x0, 1, 0x0, [⟨31, 16, .rw, 0xA, 0x0, []⟩, ⟨15, 0, .rw, 0xC, 0x0, []⟩]⟩,
  ⟨rNET_PTP_LOCK, 1, 0x0, 1, 0x0, [⟨15, 0, .rw, 0x1F4, 0x0, [(10, 65535)]⟩]⟩,
  ⟨rNET_PTP_STAT, 1, 0x0, 1, 0x0, [⟨31, 31, .ro, 0x0, 0x0, []⟩, ⟨30, 30, .ro, 0x0, 0x0, []⟩, ⟨15, 0, .ro, 0x0, 0x0, []⟩]⟩,
  ⟨rNET_RATE, 1, 0x0, 1, 0x0, [⟨31, 0, .ro, 0x0, 0x0, []⟩]⟩,
  ⟨rNET_UNSYNC_COUNT, 1, 0x0, 1, 0x0, [⟨31, 0, .rc, 0x0, 0x0, []⟩]⟩,
  ⟨rNET_PTP_FOREIGN, 1, 0x0, 1, 0x0, [⟨31, 0, .rc, 0x0, 0x0, []⟩]⟩,
  ⟨rNET_PTP_GM, 2, 0x4, 1, 0x0, [⟨31, 0, .rw, 0x0, 0x0, []⟩]⟩,
  ⟨rNET_ANCHOR_TIDE_LO, 1, 0x0, 1, 0x0, [⟨31, 0, .ro, 0x0, 0x0, []⟩]⟩,
  ⟨rNET_ANCHOR_TIDE_HI, 1, 0x0, 1, 0x0, [⟨15, 0, .ro, 0x0, 0x0, []⟩]⟩,
  ⟨rNET_ANCHOR_NET_LO, 1, 0x0, 1, 0x0, [⟨31, 0, .ro, 0x0, 0x0, []⟩]⟩,
  ⟨rNET_ANCHOR_NET_HI, 1, 0x0, 1, 0x0, [⟨15, 0, .ro, 0x0, 0x0, []⟩]⟩]

def regs4 : List RegDef := regs4_0 ++ regs4_1

def regs5_0 : List RegDef := [
  ⟨rUSB_CTRL, 1, 0x0, 1, 0x0, [⟨31, 31, .rw, 0x0, 0x0, []⟩, ⟨30, 30, .rw, 0x0, 0x0, []⟩]⟩,
  ⟨rUSB_STAT, 1, 0x0, 1, 0x0, [⟨31, 31, .ro, 0x0, 0x0, []⟩, ⟨30, 30, .ro, 0x0, 0x0, []⟩, ⟨29, 29, .ro, 0x0, 0x0, []⟩, ⟨28, 28, .w1c, 0x0, 0x0, []⟩, ⟨27, 26, .ro, 0x0, 0x0, []⟩, ⟨25, 24, .ro, 0x0, 0x0, []⟩, ⟨23, 23, .ro, 0x0, 0x0, []⟩, ⟨6, 0, .ro, 0x0, 0x0, []⟩]⟩,
  ⟨rUSB_FB, 1, 0x0, 1, 0x0, [⟨31, 0, .ro, 0x0, 0x0, []⟩]⟩,
  ⟨rUSB_UMP_CFG, 1, 0x0, 1, 0x0, [⟨15, 8, .rw, 0x1, 0x0, []⟩, ⟨7, 0, .rw, 0x0, 0x0, []⟩]⟩,
  ⟨rUSB_AUD_ERR, 1, 0x0, 1, 0x0, [⟨31, 0, .rc, 0x0, 0x0, []⟩]⟩,
  ⟨rUSB_ID, 1, 0x0, 1, 0x0, [⟨31, 16, .rw, 0x0, 0x0, []⟩, ⟨15, 0, .rw, 0x0, 0x0, []⟩]⟩]

def regs5 : List RegDef := regs5_0

def regs6_0 : List RegDef := [
  ⟨rMIX_CTRL, 1, 0x0, 1, 0x0, [⟨12, 12, .rw, 0x0, 0x0, []⟩, ⟨11, 0, .rw, 0x40, 0x0, []⟩]⟩,
  ⟨rMIX_SAT, 1, 0x0, 1, 0x0, [⟨31, 16, .w1c, 0x0, 0x0, []⟩, ⟨15, 0, .w1c, 0x0, 0x0, []⟩]⟩,
  ⟨rMIX_OUT_CLIP, 1, 0x0, 1, 0x0, [⟨31, 31, .w1c, 0x0, 0x0, []⟩, ⟨6, 0, .ro, 0x0, 0x0, []⟩]⟩,
  ⟨rMIX_CLIP_COUNT, 1, 0x0, 1, 0x0, [⟨31, 0, .rc, 0x0, 0x0, []⟩]⟩,
  ⟨rMIX_FOLLOW_CFG, 1, 0x0, 1, 0x0, [⟨7, 4, .rw, 0xC, 0x0, []⟩, ⟨3, 0, .rw, 0x4, 0x0, []⟩]⟩,
  ⟨rMIX_CKSUM_MASK, 1, 0x0, 1, 0x0, [⟨15, 0, .rw, 0xFFFF, 0x0, []⟩]⟩,
  ⟨rMIX_CKSUM, 1, 0x0, 1, 0x0, [⟨31, 0, .ro, 0x0, 0x0, []⟩]⟩,
  ⟨rMIX_CKSUM_STAMP_LO, 1, 0x0, 1, 0x0, [⟨31, 0, .ro, 0x0, 0x0, []⟩]⟩,
  ⟨rMIX_CKSUM_STAMP_HI, 1, 0x0, 1, 0x0, [⟨15, 0, .ro, 0x0, 0x0, []⟩]⟩,
  ⟨rMIX_FOLLOW, 16, 0x4, 1, 0x0, [⟨31, 0, .ro, 0x0, 0x0, []⟩]⟩,
  ⟨rMIX_LIVE_SRC, 32, 0x4, 1, 0x0, [⟨29, 28, .rw, 0x3, 0x0, []⟩, ⟨27, 24, .rw, 0x0, 0x0, []⟩, ⟨18, 16, .rw, 0x0, 0x0, [(0, 4)]⟩, ⟨4, 4, .rw, 0x0, 0x0, []⟩, ⟨3, 0, .rw, 0x0, 0x0, []⟩]⟩,
  ⟨rMIX_LIVE_GAIN, 32, 0x4, 1, 0x0, [⟨31, 0, .rw, 0x40000000, 0x0, []⟩]⟩,
  ⟨rMIX_RET_ROUTE, 32, 0x4, 1, 0x0, [⟨31, 31, .rw, 0x0, 0x0, []⟩, ⟨3, 0, .rw, 0x0, 0x0, []⟩]⟩,
  ⟨rMIX_RET_GAIN, 32, 0x4, 1, 0x0, [⟨31, 0, .rw, 0x40000000, 0x0, []⟩]⟩,
  ⟨rMIX_OUT_MAP, 82, 0x4, 1, 0x0, [⟨7, 5, .rw, 0x0, 0x0, [(0, 4)]⟩, ⟨4, 0, .rw, 0x0, 0x0, []⟩]⟩,
  ⟨rMIX_OUT_GAIN, 82, 0x4, 1, 0x0, [⟨31, 0, .rw, 0x40000000, 0x0, []⟩]⟩,
  ⟨rAOUT_CTRL, 1, 0x0, 1, 0x0, [⟨0, 0, .rw, 0x0, 0x0, []⟩]⟩,
  ⟨rAOUT_STAT, 1, 0x0, 1, 0x0, [⟨31, 31, .ro, 0x0, 0x0, []⟩, ⟨23, 16, .ro, 0x0, 0x0, []⟩, ⟨15, 8, .ro, 0x0, 0x0, []⟩]⟩,
  ⟨rDAC_STROBE, 1, 0x0, 1, 0x0, [⟨3, 0, .wo, 0x0, 0x0, []⟩]⟩,
  ⟨rSPDIF_OUT_CFG, 1, 0x0, 1, 0x0, [⟨31, 31, .rw, 0x0, 0x0, []⟩, ⟨25, 24, .rw, 0x2, 0x0, [(0, 2)]⟩]⟩]

def regs6_1 : List RegDef := [
  ⟨rSPDIF_OUT_CS, 1, 0x0, 1, 0x0, [⟨31, 0, .rw, 0x4, 0x0, []⟩]⟩,
  ⟨rSPDIF_IN_CFG, 1, 0x0, 1, 0x0, [⟨31, 31, .rw, 0x0, 0x0, []⟩]⟩,
  ⟨rSPDIF_IN_STAT, 1, 0x0, 1, 0x0, [⟨31, 31, .ro, 0x0, 0x0, []⟩, ⟨30, 30, .ro, 0x0, 0x0, []⟩, ⟨17, 0, .ro, 0x0, 0x0, []⟩]⟩,
  ⟨rASRC_CFG, 1, 0x0, 1, 0x0, [⟨31, 31, .rw, 0x0, 0x0, []⟩, ⟨15, 14, .rw, 0x0, 0x0, []⟩, ⟨13, 10, .rw, 0x0, 0x0, []⟩, ⟨7, 6, .rw, 0x0, 0x0, []⟩, ⟨5, 2, .rw, 0x0, 0x0, []⟩]⟩,
  ⟨rASRC_STAT, 1, 0x0, 1, 0x0, [⟨31, 30, .ro, 0x0, 0x0, []⟩]⟩,
  ⟨rTDM_ERR_COUNT, 1, 0x0, 1, 0x0, [⟨31, 0, .rc, 0x0, 0x0, []⟩]⟩,
  ⟨rSPDIF_ERR_COUNT, 1, 0x0, 1, 0x0, [⟨31, 0, .rc, 0x0, 0x0, []⟩]⟩,
  ⟨rDAC_GRP, 4, 0x4, 1, 0x0, [⟨5, 4, .rw, 0x0, 0x0, []⟩, ⟨3, 0, .rw, 0x0, 0x0, []⟩]⟩,
  ⟨rDAC_CFG, 8, 0x10, 1, 0x0, [⟨31, 31, .rw, 0x0, 0x0, []⟩, ⟨30, 30, .rw, 0x0, 0x0, []⟩, ⟨29, 29, .rw, 0x0, 0x0, []⟩, ⟨28, 28, .rw, 0x0, 0x0, []⟩, ⟨27, 27, .rw, 0x0, 0x0, []⟩, ⟨9, 8, .rw, 0x0, 0x0, []⟩, ⟨5, 4, .rw, 0x0, 0x0, []⟩]⟩,
  ⟨rDAC_CODE, 8, 0x10, 1, 0x0, [⟨15, 0, .rw, 0x8000, 0x0, []⟩]⟩,
  ⟨rDAC_STAT, 8, 0x10, 1, 0x0, [⟨31, 31, .ro, 0x0, 0x0, []⟩, ⟨30, 30, .ro, 0x0, 0x0, []⟩, ⟨29, 29, .w1c, 0x0, 0x0, []⟩, ⟨15, 0, .ro, 0x8000, 0x0, []⟩]⟩,
  ⟨rTDM_OUT_CFG, 4, 0x10, 1, 0x0, [⟨31, 31, .rw, 0x0, 0x0, []⟩, ⟨30, 30, .rw, 0x1, 0x0, []⟩, ⟨29, 28, .rw, 0x0, 0x0, [(0, 2)]⟩, ⟨27, 26, .rw, 0x1, 0x0, [(0, 2)]⟩, ⟨25, 25, .rw, 0x1, 0x0, []⟩, ⟨24, 24, .rw, 0x0, 0x0, []⟩, ⟨20, 16, .rw, 0x2, 0x0, [(1, 16)]⟩]⟩,
  ⟨rTDM_IN_CFG, 2, 0x10, 1, 0x0, [⟨31, 31, .rw, 0x0, 0x0, []⟩, ⟨30, 30, .rw, 0x1, 0x0, []⟩, ⟨29, 28, .rw, 0x0, 0x0, [(0, 2)]⟩, ⟨27, 26, .rw, 0x1, 0x0, [(0, 2)]⟩, ⟨25, 25, .rw, 0x1, 0x0, []⟩, ⟨24, 24, .rw, 0x0, 0x0, []⟩, ⟨20, 16, .rw, 0x2, 0x0, [(1, 16)]⟩]⟩]

def regs6 : List RegDef := regs6_0 ++ regs6_1

def regs7_0 : List RegDef := [
  ⟨rFERRY_CTRL, 1, 0x0, 1, 0x0, [⟨31, 31, .rw, 0x0, 0x0, []⟩, ⟨30, 30, .rw, 0x0, 0x0, []⟩, ⟨29, 29, .rw, 0x1, 0x0, []⟩, ⟨28, 28, .rw, 0x1, 0x0, []⟩, ⟨27, 27, .rw, 0x1, 0x0, []⟩]⟩,
  ⟨rFERRY_STAT, 1, 0x0, 1, 0x0, [⟨31, 31, .ro, 0x0, 0x0, []⟩, ⟨30, 30, .ro, 0x0, 0x0, []⟩, ⟨29, 29, .ro, 0x0, 0x0, []⟩, ⟨28, 28, .ro, 0x0, 0x0, []⟩, ⟨27, 27, .ro, 0x0, 0x0, []⟩, ⟨11, 8, .ro, 0x0, 0x0, []⟩, ⟨3, 0, .ro, 0x0, 0x0, []⟩]⟩,
  ⟨rFERRY_CROSS, 1, 0x0, 1, 0x0, [⟨31, 11, .ro, 0x0, 0x0, []⟩, ⟨10, 0, .ro, 0x0, 0x0, []⟩]⟩,
  ⟨rFERRY_CKSUM_FAIL, 1, 0x0, 1, 0x0, [⟨31, 0, .rc, 0x0, 0x0, []⟩]⟩,
  ⟨rFERRY_HB_MISS, 1, 0x0, 1, 0x0, [⟨31, 0, .rc, 0x0, 0x0, []⟩]⟩,
  ⟨rFERRY_REPLAY, 1, 0x0, 1, 0x0, [⟨31, 0, .rc, 0x0, 0x0, []⟩]⟩,
  ⟨rFERRY_LATE, 1, 0x0, 1, 0x0, [⟨31, 0, .rc, 0x0, 0x0, []⟩]⟩,
  ⟨rFERRY_OWN_DROP, 1, 0x0, 1, 0x0, [⟨31, 0, .rc, 0x0, 0x0, []⟩]⟩,
  ⟨rFERRY_DELTA_LO, 1, 0x0, 1, 0x0, [⟨31, 0, .ro, 0x0, 0x0, []⟩]⟩,
  ⟨rFERRY_DELTA_HI, 1, 0x0, 1, 0x0, [⟨15, 0, .ro, 0x0, 0x0, []⟩]⟩,
  ⟨rFERRY_LIB_HASH, 2, 0x4, 1, 0x0, [⟨31, 0, .ro, 0x0, 0x0, []⟩]⟩,
  ⟨rFERRY_DIVERGE_LO, 1, 0x0, 1, 0x0, [⟨31, 0, .ro, 0x0, 0x0, []⟩]⟩,
  ⟨rFERRY_DIVERGE_HI, 1, 0x0, 1, 0x0, [⟨15, 0, .ro, 0x0, 0x0, []⟩]⟩]

def regs7 : List RegDef := regs7_0

def regs8_0 : List RegDef := [
  ⟨rSCHED_TT_LEAD, 1, 0x0, 1, 0x0, [⟨15, 0, .rw, 0x100, 0x0, [(64, 65535)]⟩]⟩,
  ⟨rSCHED_POOL, 1, 0x0, 1, 0x0, [⟨27, 16, .rw, 0x100, 0x0, []⟩, ⟨12, 0, .ro, 0x1000, 0x0, []⟩]⟩,
  ⟨rSCHED_HANG_LIMIT, 1, 0x0, 1, 0x0, [⟨31, 0, .rw, 0x13880, 0x0, [(1024, 4294967295)]⟩]⟩,
  ⟨rSCHED_NOTE_ID_NEXT, 1, 0x0, 1, 0x0, [⟨15, 0, .rw, 0x1, 0x0, []⟩]⟩,
  ⟨rSCHED_TT_FILL01, 1, 0x0, 1, 0x0, [⟨31, 16, .ro, 0x0, 0x0, []⟩, ⟨15, 0, .ro, 0x0, 0x0, []⟩]⟩,
  ⟨rSCHED_TT_FILL23, 1, 0x0, 1, 0x0, [⟨31, 16, .ro, 0x0, 0x0, []⟩, ⟨15, 0, .ro, 0x0, 0x0, []⟩]⟩,
  ⟨rSCHED_TRACE_BASE, 1, 0x0, 1, 0x0, [⟨31, 4, .rw, 0x0, 0x0, []⟩]⟩,
  ⟨rSCHED_TRACE_CFG, 1, 0x0, 1, 0x0, [⟨31, 31, .rw, 0x0, 0x0, []⟩, ⟨30, 30, .rw, 0x0, 0x0, []⟩, ⟨29, 16, .rw, 0x400, 0x0, [(16, 16383)]⟩, ⟨10, 0, .rw, 0x7FF, 0x0, []⟩]⟩,
  ⟨rSCHED_TRACE_WPTR, 1, 0x0, 1, 0x0, [⟨13, 0, .ro, 0x0, 0x0, []⟩]⟩,
  ⟨rSCHED_STEAL_COUNT, 1, 0x0, 1, 0x0, [⟨31, 0, .rc, 0x0, 0x0, []⟩]⟩,
  ⟨rSCHED_DROP_COUNT, 1, 0x0, 1, 0x0, [⟨31, 0, .rc, 0x0, 0x0, []⟩]⟩,
  ⟨rSCHED_CANCEL_COUNT, 1, 0x0, 1, 0x0, [⟨31, 0, .rc, 0x0, 0x0, []⟩]⟩,
  ⟨rSCHED_RESERVE, 2, 0x4, 1, 0x0, [⟨31, 0, .ro, 0x0, 0x0, []⟩]⟩,
  ⟨rCLASS_CFG, 64, 0x20, 1, 0x0, [⟨31, 31, .rw, 0x0, 0x0, []⟩, ⟨30, 30, .rw, 0x0, 0x0, []⟩, ⟨29, 29, .rw, 0x0, 0x0, []⟩, ⟨28, 28, .rw, 0x0, 0x0, []⟩, ⟨27, 24, .rw, 0x1, 0x0, [(0, 6)]⟩, ⟨19, 16, .rw, 0x3, 0x0, []⟩, ⟨8, 0, .rw, 0x0, 0x0, []⟩]⟩,
  ⟨rCLASS_BLOCKS, 64, 0x20, 2, 0x4, [⟨31, 0, .rw, 0x0, 0x0, []⟩]⟩,
  ⟨rCLASS_POLY, 64, 0x20, 1, 0x0, [⟨27, 16, .rw, 0x0, 0x0, []⟩, ⟨10, 0, .rw, 0x400, 0x0, [(1, 1024)]⟩]⟩,
  ⟨rCLASS_STAT, 64, 0x20, 1, 0x0, [⟨26, 16, .ro, 0x0, 0x0, []⟩, ⟨10, 0, .ro, 0x0, 0x0, []⟩]⟩,
  ⟨rSCHED_RULE_W0, 256, 0x10, 1, 0x0, [⟨31, 16, .rw, 0xFFFF, 0x0, []⟩, ⟨15, 8, .rw, 0xFF, 0x0, []⟩, ⟨0, 0, .rw, 0x0, 0x0, []⟩]⟩,
  ⟨rSCHED_RULE_W1, 256, 0x10, 1, 0x0, [⟨31, 24, .rw, 0xFF, 0x0, []⟩, ⟨23, 16, .rw, 0x0, 0x0, []⟩, ⟨15, 8, .rw, 0x7F, 0x0, [(0, 127)]⟩, ⟨7, 0, .rw, 0x0, 0x0, [(0, 127)]⟩]⟩,
  ⟨rSCHED_RULE_W2, 256, 0x10, 1, 0x0, [⟨23, 16, .rw, 0x0, 0x0, []⟩, ⟨15, 8, .rw, 0x0, 0x0, [(0, 63)]⟩, ⟨7, 0, .rw, 0x0, 0x0, [(0, 63)]⟩]⟩]

def regs8_1 : List RegDef := [
  ⟨rSCHED_RULE_W3, 256, 0x10, 1, 0x0, []⟩]

def regs8 : List RegDef := regs8_0 ++ regs8_1

def regs9_0 : List RegDef := [
  ⟨rVOICE_TUNE_REF, 1, 0x0, 1, 0x0, [⟨31, 0, .rw, 0x1B80000, 0x0, [(26214400, 31457280)]⟩]⟩,
  ⟨rVOICE_NOISE_SEED, 1, 0x0, 1, 0x0, [⟨31, 0, .rw, 0x5EED0001, 0x0, []⟩]⟩,
  ⟨rVOICE_TEMPO_TPB, 1, 0x0, 1, 0x0, [⟨31, 0, .rw, 0x1770000, 0x0, [(16384, 4294967295)]⟩]⟩,
  ⟨rVOICE_BEAT_ORIGIN_LO, 1, 0x0, 1, 0x0, [⟨31, 0, .rw, 0x0, 0x0, []⟩]⟩,
  ⟨rVOICE_BEAT_ORIGIN_HI, 1, 0x0, 1, 0x0, [⟨15, 0, .rw, 0x0, 0x0, []⟩]⟩,
  ⟨rVOICE_SMOOTH, 1, 0x0, 1, 0x0, [⟨11, 0, .rw, 0x40, 0x0, []⟩]⟩,
  ⟨rVOICE_MOD_FAULT, 1, 0x0, 1, 0x0, [⟨31, 31, .w1c, 0x0, 0x0, []⟩, ⟨17, 0, .ro, 0x0, 0x0, []⟩]⟩,
  ⟨rVOICE_MOD_IDLE, 1, 0x0, 1, 0x0, [⟨31, 0, .rc, 0x0, 0x0, []⟩]⟩,
  ⟨rVOICE_ASSIGN, 4, 0x4, 1, 0x0, [⟨31, 24, .rw, 0x13, 0x4, [(0, 127)]⟩, ⟨23, 16, .rw, 0x12, 0x4, [(0, 127)]⟩, ⟨15, 8, .rw, 0x11, 0x4, [(0, 127)]⟩, ⟨7, 0, .rw, 0x10, 0x4, [(0, 127)]⟩]⟩,
  ⟨rVOICE_HPARAM, 32, 0x4, 1, 0x0, [⟨31, 0, .rw, 0x0, 0x0, []⟩]⟩]

def regs9 : List RegDef := regs9_0

def regsA_0 : List RegDef := [
  ⟨rTBLD_STAT, 1, 0x0, 1, 0x0, [⟨31, 31, .ro, 0x0, 0x0, []⟩, ⟨27, 24, .ro, 0x0, 0x0, []⟩, ⟨22, 16, .ro, 0x0, 0x0, []⟩, ⟨8, 0, .ro, 0x0, 0x0, []⟩]⟩,
  ⟨rTBLD_BANKS, 2, 0x4, 1, 0x0, [⟨31, 0, .ro, 0x0, 0x0, []⟩]⟩,
  ⟨rTBLD_FREE, 2, 0x4, 1, 0x0, [⟨31, 0, .ro, 0x0, 0x0, []⟩]⟩,
  ⟨rTBLD_SAT_COUNT, 1, 0x0, 1, 0x0, [⟨31, 0, .rc, 0x0, 0x0, []⟩]⟩,
  ⟨rTBLD_NOTREADY, 1, 0x0, 1, 0x0, [⟨31, 31, .w1c, 0x0, 0x0, []⟩, ⟨6, 0, .ro, 0x0, 0x0, []⟩]⟩,
  ⟨rTBL_DESC_W0, 128, 0x20, 1, 0x0, [⟨31, 30, .ro, 0x0, 0x0, []⟩, ⟨29, 29, .ro, 0x0, 0x0, []⟩, ⟨28, 28, .ro, 0x0, 0x0, []⟩, ⟨25, 25, .ro, 0x0, 0x0, []⟩, ⟨24, 16, .ro, 0x0, 0x0, []⟩, ⟨10, 0, .ro, 0x0, 0x0, []⟩]⟩,
  ⟨rTBL_DESC_W1, 128, 0x20, 1, 0x0, [⟨31, 16, .ro, 0x0, 0x0, []⟩, ⟨7, 4, .ro, 0x0, 0x0, []⟩]⟩,
  ⟨rTBL_DESC_W23, 128, 0x20, 2, 0x4, [⟨29, 24, .ro, 0x0, 0x0, []⟩, ⟨21, 16, .ro, 0x0, 0x0, []⟩, ⟨13, 8, .ro, 0x0, 0x0, []⟩, ⟨5, 0, .ro, 0x0, 0x0, []⟩]⟩,
  ⟨rTBL_DESC_W45, 128, 0x20, 2, 0x4, [⟨29, 24, .ro, 0x0, 0x0, []⟩, ⟨21, 16, .ro, 0x0, 0x0, []⟩, ⟨13, 8, .ro, 0x0, 0x0, []⟩, ⟨5, 0, .ro, 0x0, 0x0, []⟩]⟩,
  ⟨rTBL_DESC_W6, 128, 0x20, 1, 0x0, [⟨31, 0, .ro, 0x0, 0x0, []⟩]⟩,
  ⟨rTBL_DESC_W7, 128, 0x20, 1, 0x0, [⟨15, 0, .ro, 0x0, 0x0, []⟩]⟩]

def regsA : List RegDef := regsA_0

def regsB_0 : List RegDef := [
  ⟨rSTRM_CTRL, 1, 0x0, 1, 0x0, [⟨31, 31, .rw, 0x0, 0x0, []⟩, ⟨0, 0, .rw, 0x0, 0x0, []⟩]⟩,
  ⟨rSTRM_CFG, 1, 0x0, 1, 0x0, [⟨31, 30, .rw, 0x1, 0x0, []⟩, ⟨26, 16, .rw, 0x80, 0x0, [(64, 1024)]⟩, ⟨11, 0, .rw, 0x400, 0x0, [(1, 2048)]⟩]⟩,
  ⟨rSTRM_RING_BANK, 1, 0x0, 1, 0x0, [⟨5, 0, .rw, 0x0, 0x0, []⟩]⟩,
  ⟨rSTRM_LIB_BASE, 1, 0x0, 1, 0x0, [⟨31, 16, .ro, 0x0, 0x0, []⟩, ⟨15, 0, .ro, 0x0, 0x0, []⟩]⟩,
  ⟨rSTRM_LIB_STAT, 1, 0x0, 1, 0x0, [⟨31, 31, .ro, 0x0, 0x0, []⟩, ⟨30, 30, .ro, 0x0, 0x0, []⟩, ⟨29, 29, .ro, 0x0, 0x0, []⟩]⟩,
  ⟨rSTRM_ACTIVE, 1, 0x0, 1, 0x0, [⟨27, 16, .rc, 0x0, 0x0, []⟩, ⟨11, 0, .ro, 0x0, 0x0, []⟩]⟩,
  ⟨rSTRM_UNDERRUN, 1, 0x0, 1, 0x0, [⟨31, 31, .w1c, 0x0, 0x0, []⟩, ⟨11, 10, .ro, 0x0, 0x0, []⟩, ⟨9, 0, .ro, 0x0, 0x0, []⟩]⟩,
  ⟨rSTRM_UNDERRUN_COUNT, 1, 0x0, 1, 0x0, [⟨31, 0, .rc, 0x0, 0x0, []⟩]⟩,
  ⟨rSTRM_END_LAST, 1, 0x0, 1, 0x0, [⟨31, 31, .w1c, 0x0, 0x0, []⟩, ⟨11, 10, .ro, 0x0, 0x0, []⟩, ⟨9, 0, .ro, 0x0, 0x0, []⟩]⟩,
  ⟨rSTRM_COLD_COUNT, 1, 0x0, 1, 0x0, [⟨31, 0, .rc, 0x0, 0x0, []⟩]⟩,
  ⟨rSTRM_NOZONE_COUNT, 1, 0x0, 1, 0x0, [⟨31, 0, .rc, 0x0, 0x0, []⟩]⟩,
  ⟨rSTRM_HEAD, 2, 0x4, 1, 0x0, [⟨31, 0, .ro, 0x0, 0x0, []⟩]⟩]

def regsB : List RegDef := regsB_0

def regsC_0 : List RegDef := [
  ⟨rBDSP_CTRL, 4, 0x1000, 1, 0x0, [⟨31, 31, .rw, 0x0, 0x0, []⟩, ⟨30, 28, .rw, 0x0, 0x0, [(0, 4)]⟩, ⟨9, 9, .rw, 0x0, 0x0, []⟩, ⟨8, 8, .rw, 0x0, 0x0, []⟩, ⟨7, 0, .rw, 0x0, 0x0, []⟩]⟩,
  ⟨rBDSP_ENTRY, 4, 0x1000, 1, 0x0, [⟨30, 16, .ro, 0x0, 0x0, []⟩, ⟨13, 0, .rw, 0x0, 0x0, []⟩]⟩,
  ⟨rBDSP_COST, 4, 0x1000, 1, 0x0, [⟨19, 0, .ro, 0x0, 0x0, []⟩]⟩,
  ⟨rBDSP_STAT, 4, 0x1000, 1, 0x0, [⟨31, 30, .ro, 0x0, 0x0, []⟩, ⟨29, 29, .ro, 0x0, 0x0, []⟩, ⟨28, 26, .ro, 0x0, 0x0, []⟩, ⟨25, 23, .ro, 0x0, 0x0, []⟩, ⟨13, 0, .ro, 0x0, 0x0, []⟩]⟩,
  ⟨rBDSP_CYCLES, 4, 0x1000, 1, 0x0, [⟨19, 0, .ro, 0x0, 0x0, []⟩]⟩,
  ⟨rBDSP_PEAK, 4, 0x1000, 1, 0x0, [⟨19, 0, .rc, 0x0, 0x0, []⟩]⟩,
  ⟨rBDSP_OVERRUN_COUNT, 4, 0x1000, 1, 0x0, [⟨31, 0, .rc, 0x0, 0x0, []⟩]⟩,
  ⟨rBDSP_FAULT, 4, 0x1000, 1, 0x0, [⟨31, 31, .w1c, 0x0, 0x0, []⟩, ⟨23, 22, .ro, 0x0, 0x0, []⟩, ⟨18, 16, .ro, 0x0, 0x0, []⟩, ⟨13, 0, .ro, 0x0, 0x0, []⟩]⟩,
  ⟨rBDSP_IRQ, 4, 0x1000, 1, 0x0, [⟨0, 0, .w1s, 0x0, 0x0, []⟩]⟩,
  ⟨rBDSP_SWI_CODE, 4, 0x1000, 1, 0x0, [⟨7, 0, .ro, 0x0, 0x0, []⟩]⟩,
  ⟨rBDSP_BLK, 4, 0x1000, 1, 0x0, [⟨29, 16, .rw, 0x2000, 0x0, []⟩, ⟨13, 0, .rw, 0x2000, 0x0, []⟩]⟩,
  ⟨rBDSP_LINE_LATE, 4, 0x1000, 1, 0x0, [⟨31, 0, .rc, 0x0, 0x0, []⟩]⟩,
  ⟨rBDSP_BANKS, 4, 0x1000, 2, 0x4, [⟨31, 0, .ro, 0x0, 0x0, []⟩]⟩,
  ⟨rBDSP_CTL, 4, 0x1000, 2, 0x4, [⟨31, 0, .ro, 0x0, 0x0, []⟩]⟩,
  ⟨rBDSP_PARAM, 4, 0x1000, 64, 0x4, [⟨31, 0, .rw, 0x0, 0x0, []⟩]⟩,
  ⟨rBDSP_LINE_BASE, 4, 0x1000, 8, 0x10, [⟨26, 0, .rw, 0x0, 0x0, []⟩]⟩,
  ⟨rBDSP_LINE_LEN, 4, 0x1000, 8, 0x10, [⟨23, 0, .rw, 0x0, 0x0, [(512, 16777215)]⟩]⟩,
  ⟨rBDSP_LINE_TAP0, 4, 0x1000, 8, 0x10, [⟨23, 0, .rw, 0x100, 0x0, [(256, 16777215)]⟩]⟩,
  ⟨rBDSP_LINE_TAP1, 4, 0x1000, 8, 0x10, [⟨23, 0, .rw, 0x100, 0x0, [(256, 16777215)]⟩]⟩]

def regsC : List RegDef := regsC_0

def regsD_0 : List RegDef := [
  ⟨rSLATE_STAT, 1, 0x0, 1, 0x0, [⟨31, 31, .ro, 0x0, 0x0, []⟩, ⟨30, 30, .ro, 0x0, 0x0, []⟩, ⟨29, 29, .ro, 0x0, 0x0, []⟩, ⟨5, 0, .ro, 0x0, 0x0, []⟩]⟩,
  ⟨rSLATE_COLL_ADDR, 1, 0x0, 1, 0x0, [⟨31, 31, .w1c, 0x0, 0x0, []⟩, ⟨30, 30, .ro, 0x0, 0x0, []⟩, ⟨24, 0, .ro, 0x0, 0x0, []⟩]⟩,
  ⟨rSLATE_COLL_COUNT, 1, 0x0, 1, 0x0, [⟨31, 0, .rc, 0x0, 0x0, []⟩]⟩,
  ⟨rSLATE_FAULT_ADDR, 1, 0x0, 1, 0x0, [⟨31, 31, .w1c, 0x0, 0x0, []⟩, ⟨30, 27, .ro, 0x0, 0x0, []⟩, ⟨24, 0, .ro, 0x0, 0x0, []⟩]⟩,
  ⟨rSLATE_ECC_ADDR, 1, 0x0, 1, 0x0, [⟨31, 31, .w1c, 0x0, 0x0, []⟩, ⟨30, 30, .ro, 0x0, 0x0, []⟩, ⟨24, 0, .ro, 0x0, 0x0, []⟩]⟩,
  ⟨rSLATE_ECC_CORR_COUNT, 1, 0x0, 1, 0x0, [⟨31, 0, .rc, 0x0, 0x0, []⟩]⟩,
  ⟨rSLATE_ECC_UNCORR_COUNT, 1, 0x0, 1, 0x0, [⟨31, 0, .rc, 0x0, 0x0, []⟩]⟩,
  ⟨rSLATE_BORROW_STALLS, 1, 0x0, 1, 0x0, [⟨31, 0, .rc, 0x0, 0x0, []⟩]⟩,
  ⟨rSLATE_COMMONS, 1, 0x0, 1, 0x0, [⟨15, 0, .ro, 0x6, 0x0, []⟩]⟩,
  ⟨rSLATE_PINNED, 2, 0x4, 1, 0x0, [⟨31, 0, .ro, 0x0, 0x0, []⟩]⟩,
  ⟨rSLATE_DISABLED, 2, 0x4, 1, 0x0, [⟨31, 0, .ro, 0x0, 0x0, []⟩]⟩,
  ⟨rSLATE_OWNER, 64, 0x4, 1, 0x0, [⟨8, 8, .ro, 0x0, 0x0, []⟩, ⟨7, 4, .ro, 0x0, 0x0, []⟩, ⟨3, 0, .ro, 0x0, 0x0, []⟩]⟩]

def regsD : List RegDef := regsD_0

def regsE_0 : List RegDef := [
  ⟨rTEST_BIST_STAT, 1, 0x0, 1, 0x0, [⟨31, 31, .ro, 0x0, 0x0, []⟩, ⟨30, 30, .ro, 0x0, 0x0, []⟩]⟩,
  ⟨rTEST_MBIST_ADDR, 1, 0x0, 1, 0x0, [⟨31, 31, .w1c, 0x0, 0x0, []⟩, ⟨30, 28, .ro, 0x0, 0x0, []⟩, ⟨24, 0, .ro, 0x0, 0x0, []⟩]⟩,
  ⟨rTEST_BG_CFG, 1, 0x0, 1, 0x0, [⟨31, 31, .rw, 0x0, 0x0, []⟩, ⟨15, 0, .rw, 0x4, 0x0, [(1, 65535)]⟩]⟩,
  ⟨rTEST_BG_STAT, 1, 0x0, 1, 0x0, [⟨31, 16, .ro, 0x0, 0x0, []⟩, ⟨15, 0, .rc, 0x0, 0x0, []⟩]⟩,
  ⟨rTEST_BG_FAULT, 1, 0x0, 1, 0x0, [⟨31, 31, .w1c, 0x0, 0x0, []⟩, ⟨16, 11, .ro, 0x0, 0x0, []⟩, ⟨10, 0, .ro, 0x0, 0x0, []⟩]⟩,
  ⟨rTEST_JTAG_STAT, 1, 0x0, 1, 0x0, [⟨31, 31, .ro, 0x1, 0x0, []⟩, ⟨30, 30, .ro, 0x0, 0x0, []⟩, ⟨1, 0, .ro, 0x0, 0x0, []⟩]⟩,
  ⟨rTEST_LEVEL_HIT, 1, 0x0, 1, 0x0, [⟨15, 0, .w1c, 0x0, 0x0, []⟩]⟩,
  ⟨rTEST_SNAP, 1, 0x0, 1, 0x0, [⟨31, 31, .wo, 0x0, 0x0, []⟩, ⟨23, 0, .wo, 0x0, 0x0, []⟩]⟩,
  ⟨rTEST_BIST_RES, 2, 0x4, 1, 0x0, [⟨31, 0, .ro, 0x0, 0x0, []⟩]⟩,
  ⟨rTEST_BIST_SIG, 10, 0x4, 1, 0x0, [⟨31, 0, .ro, 0x0, 0x0, []⟩]⟩,
  ⟨rTEST_LANE_LOAD, 16, 0x8, 1, 0x0, [⟨31, 16, .rc, 0x0, 0x0, []⟩, ⟨15, 0, .ro, 0x0, 0x0, []⟩]⟩,
  ⟨rTEST_LANE_SLACK, 16, 0x8, 1, 0x0, [⟨15, 0, .rc, 0xFFFF, 0x0, []⟩]⟩,
  ⟨rMON_CFG_LAT, 8, 0x20, 1, 0x0, [⟨31, 31, .rw, 0x0, 0x0, []⟩, ⟨30, 28, .rw, 0x0, 0x0, [(0, 3)]⟩, ⟨27, 24, .rw, 0x0, 0x0, []⟩, ⟨23, 16, .rw, 0xFF, 0x0, []⟩, ⟨15, 8, .rw, 0xFF, 0x0, []⟩]⟩,
  ⟨rMON_CFG_LEV, 16, 0x20, 1, 0x0, [⟨31, 31, .rw, 0x0, 0x0, []⟩, ⟨30, 30, .rw, 0x0, 0x0, []⟩, ⟨22, 16, .rw, 0x0, 0x0, [(0, 81)]⟩, ⟨15, 0, .rw, 0x1E0, 0x0, [(1, 65535)]⟩]⟩,
  ⟨rMON_THRESH_LAT, 8, 0x20, 1, 0x0, [⟨31, 0, .rw, 0xFFFFFFFF, 0x0, []⟩]⟩,
  ⟨rMON_THRESH_LEV, 16, 0x20, 1, 0x0, [⟨21, 6, .rw, 0x1, 0x0, [(1, 65535)]⟩, ⟨5, 0, .rw, 0x0, 0x0, []⟩]⟩,
  ⟨rMON_MIN, 24, 0x20, 1, 0x0, [⟨31, 0, .ro, 0xFFFFFFFF, 0x0, []⟩]⟩,
  ⟨rMON_MAX, 24, 0x20, 1, 0x0, [⟨31, 0, .ro, 0x0, 0x0, []⟩]⟩,
  ⟨rMON_COUNT, 24, 0x20, 1, 0x0, [⟨31, 0, .ro, 0x0, 0x0, []⟩]⟩,
  ⟨rMON_BASE, 8, 0x20, 1, 0x0, [⟨31, 0, .rw, 0x0, 0x0, []⟩]⟩]

def regsE_1 : List RegDef := [
  ⟨rTEST_SNAP_WORD, 24, 0x200, 67, 0x4, [⟨31, 0, .ro, 0x0, 0x0, []⟩]⟩]

def regsE : List RegDef := regsE_0 ++ regsE_1

/-- The registers of the 64 KiB block an address lies in (R52). -/
def blockRegs (a : Nat) : List RegDef :=
  match a / 0x10000 with
  | 0 => regs0
  | 1 => regs1
  | 2 => regs2
  | 3 => regs3
  | 4 => regs4
  | 5 => regs5
  | 6 => regs6
  | 7 => regs7
  | 8 => regs8
  | 9 => regs9
  | 10 => regsA
  | 11 => regsB
  | 12 => regsC
  | 13 => regsD
  | 14 => regsE
  | _ => []

/-- The index of an address in a register array (outer index, inner index), where the address is one of its words. -/
def RegDef.index (r : RegDef) (a : Nat) : Option (Nat × Nat) :=
  if a < r.base then none
  else
    let off := a - r.base
    let i := if r.count ≤ 1 then 0 else off / r.stride
    let rest := off - r.stride * i
    let j := if r.count2 ≤ 1 then 0 else rest / r.stride2
    if i < max r.count 1 ∧ j < max r.count2 1 ∧ rest = r.stride2 * j then some (i, j) else none

/-- The first register of a list that an address names, with the index in its array. -/
def findReg : List RegDef → Nat → Option (RegDef × Nat)
  | [], _ => none
  | r :: rs, a =>
    match r.index a with
    | some (i, _) => some (r, i)
    | none => findReg rs a

/-- The register an address names (R52). -/
def regAt (a : Nat) : Option (RegDef × Nat) := findReg (blockRegs a) a

/-- The reset value of a register word: every field at its reset value, reserved bits 0. -/
def regReset (a : Nat) : Word :=
  match regAt a with
  | none => 0
  | some (r, i) => BitVec.ofNat 32 (r.fields.foldl (fun w f => putBits w f.hi f.lo (f.reset + f.resetStep * i)) 0)

/-- Whether a field lists an encoding for a value (R12). -/
def RegField.allows (f : RegField) (v : Nat) : Bool :=
  f.ok.isEmpty || f.ok.any (fun p => decide (p.1 ≤ v) && decide (v ≤ p.2))

/-- What one field's bits become when a word is written over the stored one (R9, R12). -/
def RegField.write (f : RegField) (old new : Nat) : Nat :=
  let o := bitsOf old f.hi f.lo
  let v := bitsOf new f.hi f.lo
  match f.acc with
  | .rw => if f.allows v then v else o
  | .w1c => Nat.xor (Nat.lor o v) v
  | .w1s => Nat.lor o v
  | .ro | .wo | .rc => o

/-- The stored word after a host write, field by field (R9, R12). -/
def RegDef.write (r : RegDef) (old new : Nat) : Nat :=
  r.fields.foldl (fun w f => putBits w f.hi f.lo (f.write old new)) old

/-- The stored word after a read: RC fields are back at their reset value (R9; notes/assumptions/4.md, DEDUCED). -/
def RegDef.afterRead (r : RegDef) (i old : Nat) : Nat :=
  r.fields.foldl (fun w f => if f.acc = .rc then putBits w f.hi f.lo (f.reset + f.resetStep * i) else w) old

end Sys2Proof.Machine
end

