-- ==== Sys2Proof/Machine/State.lean ====
section
/-! DEFINITION. The state of the block as plain data: the queue of commands, and the machine itself in parts, one
structure for each chapter of the spec. Registers of the host address map that the tables give a home stand in `Block.regs`
(their fields, access and reset values in Machine/Regs.lean); what the chapters give beside them stands in the parts.
Each field's docstring names the rule and, where the reset is not simply empty or zero by the rule, what it rests on. -/

namespace Sys2Proof.Machine

/-- Why the machine stops. No command of this part stops it: every error of the spec sets a bit, a counter, a capture or
an event source and the part goes on (R39, R55, R575). -/
inductive Fault where
  /-- Raised by nothing; kept so that the type of outcomes has the host's shape. Safe. -/
  | none
  deriving DecidableEq, Repr

/-- Why a command has no meaning. -/
inductive Refusal where
  /-- Raised by an arm whose meaning is not written yet. Safe: nothing is said of such a command. -/
  | notModelled (mnemonic : String)
  /-- Raised by every arm for an operand that names a unit the part does not have (`Instr.wf`), a lane 16 say: the happening
  cannot occur. Safe: it stops where no hardware goes on. -/
  | illFormed
  deriving DecidableEq, Repr

/-- The reply that a command taken owes its sender (R60, R63, R64): its opcode and tag echoed, NO_REPLY, and LATE. -/
structure Tok where
  op : Nat
  tag : Nat
  noReply : Bool
  late : Bool
  /-- R77: the start of the Proctor that took it; a restart loses its reply. Model's own. -/
  gen : Nat
  deriving DecidableEq, Repr

/-- A reply not yet read, waiting for a free mailbox (R62). -/
structure Reply where
  op : Nat
  tag : Nat
  status : Nat
  reason : Nat
  stamp : Nat
  late : Bool
  payload : List Byte
  deriving DecidableEq, Repr

/-- A command held for its boundary (R64). -/
structure Held where
  tok : Tok
  at_ : Nat
  payload : List Byte
  /-- Taken with a due time still to come, so that it counts among the due-timed commands held. -/
  timed : Bool
  /-- Its place in the order in which events and commands come (R155). -/
  seq : Nat
  deriving DecidableEq, Repr

/-- A roll-call check, waiting or running (R70 to R73): the enable written, the command to reply to where a command started
it, with the words that a refusal puts back (R60: REFUSED has no effect), and the restarts so far. -/
structure Check where
  addr : Nat
  tok : Option Tok
  stamp : Nat
  undo : List (Nat × Nat)
  restarts : Nat
  /-- R71: it has had its turn and runs. -/
  begun : Bool
  deriving DecidableEq, Repr

/-- A word in the write buffer (R45), with the transaction it came by (R46). -/
structure BufWord where
  addr : Nat
  data : Nat
  txn : Nat
  deriving DecidableEq, Repr

/-- The octal-SPI or I2C transaction in progress: its number, whether HBUSY reports a discard in it (R46), and the address
and count of bytes of a partial last word (R40). -/
structure Txn where
  id : Nat
  busy : Bool
  part : Option Nat
  deriving DecidableEq, Repr

/-- Event pending and enable registers (R54, R56, R575): 224 bits each, source s in bit s. Reset 0. -/
structure Events where
  pend : BitVec 224
  en : BitVec 224
  deriving DecidableEq, Repr

/-- The host ports (02 R36 to R51). -/
structure HostPort where
  /-- R45: the write buffer, up to 64 words, oldest first. Reset empty. -/
  wbuf : List BufWord
  /-- R38: the octal-SPI transaction in progress. Reset none. -/
  txn : Option Txn
  /-- Numbers transactions, so that R46 knows whose words are whose. Model's own. -/
  txnNext : Nat
  /-- R38, R43, R50: the bytes the port drove in the latest transaction. Reset empty. -/
  out : List Byte
  /-- R51: the I2C port has NACKed a byte. Reset false. -/
  nack : Bool
  /-- R47: the port accepts transactions. Reset false. -/
  ready : Bool
  /-- R45, R46, R47: the HBUSY pin. Reset asserted (R540). -/
  hbusy : Bool
  /-- R48: the HIRQN pin is asserted (low). Reset released (R540). -/
  hirq : Bool
  deriving DecidableEq, Repr

/-- The Proctor's side of the mailboxes (02 R57 to R77). -/
structure Proctor where
  /-- R57: the bytes of MB0 to MB15, sparse, key = offset from 0x1000; unlisted bytes read 0 (DESIGN CHOICE, entry 3). -/
  mbx : List Host.Cell
  /-- R61: the RING bits set and not yet taken, in order of ringing. -/
  rung : List Nat
  /-- R64: due-timed commands held, at most 256 accepted. -/
  held : List Held
  /-- R62: replies waiting for a mailbox, oldest first. -/
  replies : List Reply
  /-- R62: MBX_OVERFLOW has been raised for the present fullness of the queue. -/
  overflow : Bool
  /-- R71: checks, the running one first. -/
  checks : List Check
  /-- R406, R581: NMI-class sources waiting for the Proctor to run. -/
  nmi : List Nat
  /-- R76: functions of a write are in progress, and ABORT_DONE is owed. -/
  abortOwed : Bool
  /-- R541: the RESET commands of scope ENGINE that wait for ABORT_DONE, in order. -/
  engineReset : List (Tok × Nat)
  /-- R74: MUTE_OUTPUTS, STOP_BDSP and STOP_STREAMS wait for the next boundary (function bits). -/
  abortAtBound : Nat
  /-- R77: starts of the Proctor, by which replies lost to a restart are known. Model's own. Reset 0. -/
  gen : Nat
  deriving DecidableEq, Repr

/-- A host or Proctor write on its way to a live comparator (R376). -/
structure CmpWrite where
  addr : Nat
  value : Nat
  done : Nat
  deriving DecidableEq, Repr

/-- A comparator in a tick in which a write reaches it (R376): its channel, the tick, the words of LO, HI, CTRL and PER that it still
uses, and which of them have been written. -/
structure CmpHold where
  chan : Nat
  tick : Nat
  old : List Nat
  fresh : List Nat
  deriving DecidableEq, Repr

/-- What one requester has latched (R371, R389, R385): TIDE_HI, TIDE_EPOCH, TIDE_BOUND_HI, and TIDE_CAP0_HI to
TIDE_CAP7_HI. -/
structure Latch where
  hi : Nat
  epoch : Nat
  boundHi : Nat
  capHi : List Nat
  deriving DecidableEq, Repr

/-- The actions of one tick on a pin's latch (R382): the tick, the latch before the first of them, and each action with its channel,
in ascending channel number. -/
structure PinTick where
  tick : Nat
  base : Bool
  acts : List (Nat × Nat)
  deriving DecidableEq, Repr

/-- The state of a TIO pin beside TIO_CFGm (R382 to R384): the level driven from outside, the ticks at which its pulses end, and the
actions of the tick that acted on it last. -/
structure TioPin where
  ext : Bool
  ends : List Nat
  acts : Option PinTick
  deriving DecidableEq, Repr

/-- A capture channel's filter (R384): the level accepted last, and the tick from which the new level has been sampled; and the tick in
which the latest capture landed (R385). -/
structure CapState where
  level : Bool
  since : Option Nat
  landed : Option Nat
  deriving DecidableEq, Repr

def TioPin.reset : TioPin := { ext := false, ends := [], acts := none }

def CapState.reset : CapState := { level := false, since := none, landed := none }

/-- The Tide (10 R367 to R388). -/
structure Tide where
  /-- R367, R368: the 48-bit count. Reset 0. -/
  count : Tick
  /-- R373: the epoch. Reset 0. -/
  epoch : BitVec 16
  /-- R16: the latest boundary whose work has been done; none before the first. -/
  bound : Option Nat
  /-- R386: the count at which the bell counter was 0. Reset 0. -/
  bellFrom : Nat
  /-- R388: the timetables are still releasing the entries of the previous bell tick. -/
  releasing : Bool
  /-- R371: latches of the octal-SPI port (0), the I2C port (1) and the Proctor (2). Reset 0. -/
  latch : List Latch
  /-- R376: writes that have not reached their comparators, oldest first. -/
  cmpWrites : List CmpWrite
  /-- R376: what the comparators that writes have reached in this tick still use. -/
  cmpHold : List CmpHold
  /-- R381: the post buffers, one record each with its stamp, oldest first. -/
  postBuf : List (Nat × List Byte × Nat)
  /-- R382 to R384: the eight pins. -/
  pins : List TioPin
  /-- R384: the eight capture channels. -/
  caps : List CapState
  deriving DecidableEq, Repr

/-- Clock state beside the CPR registers (11). -/
structure Clocks where
  /-- R407, R415: references (APLL, CPLL, MPLL codes) held before the fallback. -/
  before : Option (Nat × Nat × Nat)
  /-- R407: PLLs (0 APLL, 1 CPLL, 2 MPLL) switched by the fallback that are not locked again yet. -/
  fbWait : List Nat
  /-- R408: a failed source (1 XA, 2 XB, 3 MCLK_IN, 4 S/PDIF) whose switch waits for the IRC. -/
  fbHeld : List Nat
  /-- R415: the CLOCK_SET_REF or CLOCK_RESTORE that replies when its PLLs are locked, with its stamp and PLLs. -/
  waiting : List (Tok × Nat × List Nat)
  /-- R411, R394: a switch back waits for a boundary at which every source it names is proven. -/
  restoreAtBound : Bool
  /-- R411: PLLs switched back from fallback that must lock before FALLBACK clears. -/
  clearing : List Nat
  /-- R369: a change of family holds the Tide until the APLL locks. -/
  tideHeld : Bool
  /-- R405: a trim restart began or the IRC was unproven in the present window. -/
  windowTainted : Bool
  /-- R412: the AON domain runs from the backup oscillator. Reset false. -/
  backupOsc : Bool
  /-- R485: the S/PDIF receiver is locked and its recovered clock runs (the APLL reference of R396). -/
  spdifClock : Bool
  /-- R398: the LPDDR5 RATE and SIZE codes taken when MEM was switched on. Reset 0. -/
  memRate : Nat
  memSize : Nat
  deriving DecidableEq, Repr

/-- A mode change taken and not yet in effect (R532). -/
structure ModeChg where
  mode : Nat
  rate : Nat
  clk : Nat
  /-- The due boundary, where one was given. -/
  due : Nat
  tok : Option Tok
  late : Bool
  /-- A due time still to come was given, so that it counts among the due-timed commands held (R64). -/
  timed : Bool
  /-- The mode it was judged from (R531); none where nothing is judged. -/
  src : Option Nat
  deriving DecidableEq, Repr

/-- A firmware update in progress (R550). state: 0 IDLE, 1 ERASING, 2 WRITING, 3 VERIFYING, 4 WRITTEN. -/
structure Update where
  state : Nat
  length : Nat
  seq : Nat
  target : Nat
  /-- The command that replies when the flash operation ends, with its payload. -/
  waiting : Option (Tok × List Byte)
  /-- R437: a DFU download: bytes received so far. -/
  dfu : Option (List Byte)
  deriving DecidableEq, Repr

/-- Power, modes, resets and boot (16). -/
structure Power where
  /-- PORN is low (R539). Reset true: State.reset stands right after a power-on reset whose pin is still low. -/
  porn : Bool
  /-- SYSRSTN or the core supply holds the part in system reset (R539). -/
  sysrst : Bool
  /-- R531: rate code (0 44.1, 1 48, 2 88.2, 3 96, 4 176.4, 5 192 kHz) in use or last used. Reset 1 (DESIGN CHOICE,
  entry 3: P resets to 1,024 and FAMILY to 48 kHz). -/
  rate : Nat
  /-- R531: VOICE clock code (0 800 MHz, 1 400 MHz) in use or last used. Reset 0 (DESIGN CHOICE, entry 3). -/
  vclk : Nat
  /-- R532: the mode changes taken and not yet in effect, in order of due time, those of one due time as they were taken. -/
  changes : List ModeChg
  /-- R536: the mode SAFE holds (MODE code). -/
  safeHeld : Nat
  /-- R535: MUTE as it stood on entry to SAFE. -/
  muteSaved : Bool
  /-- R410, R535: a fallback asks for SAFE at the next boundary. -/
  safeAsked : Bool
  /-- R534: records held in LISTEN with the time each counts from, oldest first, at most 64. -/
  wake : List (EventRecord × Nat)
  /-- R34: the grants held before SELFTEST. -/
  grantSaved : Option Nat
  /-- R498: the grants revoked on entry to SHADOW. -/
  grantShadow : Nat
  /-- R542: expiries of the watchdog without service. -/
  wdog : Nat
  /-- R542: the watchdog is armed. -/
  wdogArmed : Bool
  /-- R543: VDD core stays below 0.63 V. -/
  lowCore : Bool
  /-- R545: fuse loading has completed. -/
  fusesLoaded : Bool
  /-- R398, R528: LPDDR5 is training; R579: training failed at this switch-on. -/
  training : Bool
  /-- R528: domains switched on that have not reached their good level (bit d). -/
  rising : Nat
  update : Update
  /-- R546: the image written by BOOT_WRITE, sparse, unlisted bytes read 0 (DESIGN CHOICE, entry 3). -/
  bootRam : List Host.Cell
  /-- R547: the octal-SPI flash outside the part, sparse; an unlisted byte reads 0xFF, an erased flash (DESIGN CHOICE,
  entry 3). -/
  flash : List Host.Cell
  /-- R5, R513, R548: VERSION of the image running (0 before one runs). -/
  release : Nat
  deriving DecidableEq, Repr

def Events.reset : Events := { pend := 0, en := 0 }

def HostPort.reset : HostPort :=
  { wbuf := [], txn := none, txnNext := 0, out := [], nack := false, ready := false, hbusy := true, hirq := false }

def Proctor.reset : Proctor :=
  { mbx := [], rung := [], held := [], replies := [], overflow := false, checks := [], nmi := [], abortOwed := false,
    engineReset := [], abortAtBound := 0, gen := 0 }

def Latch.reset : Latch := { hi := 0, epoch := 0, boundHi := 0, capHi := List.replicate 8 0 }

def Tide.reset : Tide :=
  { count := 0, epoch := 0, bound := none, bellFrom := 0, releasing := false, latch := List.replicate 3 Latch.reset,
    cmpWrites := [], cmpHold := [], postBuf := [], pins := List.replicate 8 TioPin.reset,
    caps := List.replicate 8 CapState.reset }

def Clocks.reset : Clocks :=
  { before := none, fbWait := [], fbHeld := [], waiting := [], restoreAtBound := false, clearing := [], tideHeld := false, windowTainted := false,
    backupOsc := false, spdifClock := false, memRate := 0, memSize := 0 }

def Update.reset : Update := { state := 0, length := 0, seq := 0, target := 0, waiting := none, dfu := none }

def Power.reset : Power :=
  { porn := true, sysrst := false, rate := 1, vclk := 0, changes := [], safeHeld := 0, muteSaved := false,
    safeAsked := false, wake := [], grantSaved := none, grantShadow := 0, wdog := 0, wdogArmed := false, lowCore := false,
    fusesLoaded := false, training := false, rising := 0, update := Update.reset, bootRam := [], flash := [], release := 0 }

/-! ### Slate and LPDDR5 (09, 11) -/

/-- An escort (R354 to R356): its command, stamp, requester, source space, source, destination, length, and words moved. -/
structure Escort where
  tok : Tok
  stamp : Nat
  req : Nat
  space : Nat
  src : Nat
  dst : Nat
  len : Nat
  moved : Nat
  deriving DecidableEq, Repr

/-- Slate memory (09 R341 to R362) and the LPDDR5 outside the part. -/
structure Slate where
  /-- R341: 32 MiB, sparse, key = byte offset; an unlisted byte reads 0 (DESIGN CHOICE, entry 3: undefined after power-on). -/
  mem : List Host.Cell
  /-- R341, R348: what is stored of a storage word that differs from the 72-bit codeword written to it last: key = word number,
  64 data bits and 8 check bits above them. The code is not given; what a read makes of the difference is `eccOf`. Reset none
  (DESIGN CHOICE, entry 3). -/
  hurt : List (Nat × Nat)
  /-- R362: columns steered to spares by the fuse loader: bank, sub-array, spare, column. Reset none. -/
  steered : List (Nat × Nat × Nat × Nat)
  /-- R346: banks whose AT_BOUNDARY change or commit has come while they were borrowed. Reset none. -/
  ripe : List Nat
  /-- R398: LPDDR5 by byte address, sparse; an unlisted byte reads 0 (DESIGN CHOICE, entry 3). -/
  lpddr : List Host.Cell
  /-- R346: handovers in progress: command, stamp, and the banks that have not changed owner. -/
  handovers : List (Tok × Nat × List Nat)
  /-- R348: corrected words waiting to be written back: offset and word. -/
  writeBacks : List (Nat × Nat)
  escorts : List Escort
  /-- R357: the slice under test: bank, slice. -/
  slice : Option (Nat × Nat)
  /-- R560: the next bank and slice of background test. -/
  bgNext : Nat × Nat
  /-- R331: what the latest port-A read returned to its requester. -/
  readOut : Nat
  deriving DecidableEq, Repr

def Slate.reset : Slate :=
  { mem := [], hurt := [], steered := [], ripe := [], lpddr := [], handovers := [], writeBacks := [], escorts := [], slice := none, bgNext := (0, 0),
    readOut := 0 }

/-! ### Voices (03, 04, 05) -/

/-- A layer of a note-on on its way to a seat (R177, R180): class, bank, sounding note and key, port, channel with its
CLASS_TARGET mark, note ID, velocity, the due time of a timed note, the tick of the decision, the stamp of its event (R24), and
MIN_GATE as the decision found it (R171). -/
structure Layer where
  cls : Nat
  bank : Nat
  note : Nat
  key : Nat
  port : Nat
  chan : Nat
  clsTarget : Bool
  noteId : Nat
  vel : Int
  due : Option Nat
  stamp : Nat
  came : Nat
  minGate : Nat
  /-- R195: cancelled while not yet sounding, with MIN_GATE above 0. -/
  cut : Bool
  /-- R562: the first layer of its note, and whether it came by a hand-off. -/
  first : Bool
  moved : Bool
  deriving DecidableEq, Repr

/-- A change that has reached the lane and waits for the seat's next ramp stage (R121). -/
inductive GateChange where
  | off (relVel : Int)
  | retrigger (vel : Int)
  | perNote (which : Nat) (value : Int)
  deriving DecidableEq, Repr

/-- An oscillator's state (R86, R89, R114): the 48-bit accumulator or 64-bit SAMPLE position, the increment of the last
render, the generator, the output, the COLOURED state y or the HOLD value, the drift state, the wrap flag with the
accumulator and increment kept with it (R112), the sync reset whose residual the next read adds (u in 2^-16, the accumulator
before the advance, the increment, SYNC_PHASE: R111), the zone selected, loop passes made, whether the position is set (R99), the glide
of an underrun (value, renders done: R254), whether the stream has ended, and the renders done of a table morph (R231). -/
structure Osc where
  acc : Nat
  inc : Int
  gen : Nat
  out : Int
  cy : Int
  drift : Int
  wrap : Bool
  wrapAcc : Nat
  wrapInc : Int
  sync : Option (Nat × Nat × Int × Nat)
  zone : Option (Nat × Nat)
  loops : Nat
  posSet : Bool
  glide : Option (Int × Nat)
  ended : Bool
  /-- R253: a cold start waits for its frames. -/
  cold : Bool
  morph : Option Nat
  deriving DecidableEq, Repr

/-- An envelope (R142, R161): stage 0 DELAY to 6 IDLE, progress r, L0 and y in coefficient format. -/
structure Env where
  stage : Nat
  r : Nat
  l0 : Int
  y : Int
  deriving DecidableEq, Repr

/-- An LFO (R147, R148, R161): accumulator, generator, h, h_prev, fade count, whether a ONE_CYCLE wrap has stopped it, and the
wave value read last, at 2^80. -/
structure Lfo where
  acc : Nat
  gen : Nat
  h : Int
  hPrev : Int
  fade : Nat
  stopped : Bool
  y : Int
  /-- The phase read last, by which a wrap of a SYNC phase is seen. -/
  last : Nat
  deriving DecidableEq, Repr

/-- A ramp unit (R157, R161): destination, renders left, target, step, and its place in the order of starting. -/
structure Ramp where
  dest : Nat
  left : Nat
  target : Int
  step : Int
  order : Nat
  deriving DecidableEq, Repr

/-- What a render pushes to a bus: bus, left, right (R153, R266). -/
structure Push where
  bus : Nat
  l : Int
  r : Int
  deriving DecidableEq, Repr

/-- A seat and its voice (R114, R161, R168, R209). State: 0 FREE, 1 PENDING, 2 GATED, 3 RELEASED, 4 DISMISSING. -/
structure Voice where
  st : Nat
  held : Bool
  lay : Layer
  patch : Nat
  relVel : Int
  /-- Poly pressure, note bend, note control A and B (R123). -/
  perNote : List Int
  stamp : Nat
  start : Nat
  dismN : Nat
  dismDone : Nat
  /-- R195: renders left until a minimum gate's fall; counts only while `minGate`. -/
  minLeft : Nat
  minGate : Bool
  renders : Nat
  /-- R26, R120: arming has been done; a PENDING seat not yet armed waits for VOICE_ARM. -/
  armed : Bool
  gate : Bool
  /-- R121: changes waiting for the ramp stage, oldest first. -/
  changes : List GateChange
  /-- R74: renders done of the SILENCE_VOICES ramp. -/
  silence : Option Nat
  /-- R190, R191: the layer that waits for the dismissal in place to end. -/
  waiting : Option Layer
  /-- R171, R187: the class whose victim this reserve seat dismisses. -/
  victimOf : Option Nat
  /-- R124. -/
  random : Int
  osc : List Osc
  flt : List (List Int)
  fltOut : List Int
  env : List Env
  lfo : List Lfo
  ramp : List (Option Ramp)
  macros : List Int
  /-- R156, R158: the live base of each of the 256 destinations. -/
  base : List Int
  /-- R119, R161: destination values of envelopes (48) and LFOs (24) carried to the next render. -/
  carried : List Int
  voiceOut : Int
  /-- R185: ENV0 as rendered last. -/
  env0 : Int
  /-- R21: what the voice pushed last. -/
  pushed : List Push
  deriving DecidableEq, Repr

/-- An open stream slot (R249 to R251): voice, map and zone, first frame of the play sequence it fetches, bytes appended,
chunks on their way, bytes the read position has passed, and its deadline. -/
structure Slot where
  id : Nat
  voice : Nat
  map : Nat
  zone : Nat
  first : Nat
  held : Nat
  asked : Nat
  passed : Nat
  deadline : Nat
  deriving DecidableEq, Repr

/-- A lane (R18 to R22, R569): the next slot to start in the open window, the slot in progress with the voice's state and stream
slots before its render and the values to push, the VOICE cycles spent in the window, and the tick of its latest completion there.
-/
structure Lane where
  next : Nat
  busy : Option Nat
  saved : Option (Nat × Voice × List Slot)
  push : List Push
  cycles : Nat
  doneAt : Option Nat
  deriving DecidableEq, Repr

/-- A mod write waiting for its boundary (R155), with its place in the order of arrival. -/
structure ModWrite where
  at_ : Nat
  seq : Nat
  addr : Nat
  value : Int
  deriving DecidableEq, Repr

/-- A global LFO (R151): its parameters and its state. -/
structure GLfo where
  wave : Nat
  mode : Nat
  flags : Nat
  num : Nat
  den : Nat
  rate : Int
  depth : Int
  phase : Int
  shape : Int
  st : Lfo
  out : Int
  deriving DecidableEq, Repr

/-- A host parameter's ramp (R159). -/
structure HParam where
  cur : Int
  target : Int
  step : Int
  left : Nat
  deriving DecidableEq, Repr

/-- A channel bank (R179): 128 controllers, channel pressure, pitch bend. -/
structure Bank where
  cc : List Int
  press : Int
  bend : Int
  deriving DecidableEq, Repr

/-- Sources and settings of all voices, as latched at boundaries (R126, R149 to R151, R163, R83, R159). -/
structure Global where
  /-- R83: F in effect. Reset 0x01B8_0000. -/
  tuneF : Nat
  /-- R81: tuning tables, key = table * 128 + note, in pitch units; unlisted 0. -/
  tune : List (Nat × Int)
  /-- R163: TPB and ORIGIN in effect, and those that a write of ORIGIN_HI has committed for the next boundary. -/
  tpb : Nat
  origin : Nat
  beatStaged : Option (Nat × Nat)
  /-- R149: (T_k - ORIGIN) mod 2^48 at the latest boundary. -/
  beat : Nat
  glfo : List GLfo
  hparam : List HParam
  /-- R159, R126: the host parameters as latched. -/
  hparamL : List Int
  /-- R162: SAMPLES as it applies to ramps started now. -/
  smooth : Nat
  /-- VOICE_ASSIGN in effect: 16 controller numbers. -/
  assign : List Nat
  /-- R179: the 64 banks, sparse, and as latched at the boundary. -/
  banks : List (Nat × Bank)
  banksL : List (Nat × Bank)
  /-- R277: live inputs as latched. -/
  live : List Int
  /-- R281: followers as latched. -/
  follow : List Int
  /-- BDSP_CTL0 to 7 as latched. -/
  ctl : List Int
  /-- R155: mod writes waiting for their boundary, in order of arrival. -/
  mods : List ModWrite
  /-- R578: RENDER_LATE has been raised in this window. -/
  lateRaised : Bool
  /-- R234: TBL_NOT_READY has been raised since the boundary. -/
  notReadyRaised : Bool
  deriving DecidableEq, Repr

/-- When an event arrived: the Tide count of its stamp (R24), and its place in the order in which events and commands come to the
event island. -/
structure Arrival where
  tick : Nat
  seq : Nat
  deriving DecidableEq, Repr

/-- A roll item (R199): record, handler, LATE and LATE_CANCEL marks, the next descriptor in the roll, pool index; and when its
event arrived. -/
structure Item where
  ev : EventRecord
  handler : Nat
  roll : Nat
  late : Bool
  lateCancel : Bool
  link : Nat
  handle : Nat
  came : Arrival
  deriving DecidableEq, Repr

/-- A timetable entry (R202), with the mark of a note cancelled whose class has a minimum gate (R195). -/
structure TTEntry where
  ev : EventRecord
  due : Nat
  cut : Bool
  came : Arrival
  deriving DecidableEq, Repr

/-- A hand-off planned (R187): victim, reserve seat, the new layer, whether the copy waits for the victim's render of this window,
the boundary of the new layer's first render, and N of the dismissal as the decision found it (R171, R188). -/
structure HandOff where
  victim : Nat
  reserve : Nat
  layer : Layer
  wait : Bool
  start : Nat
  dismN : Nat
  deriving DecidableEq, Repr

/-- What waits for a boundary after its release or decision: a direct or channel event, or the retrigger of a seat (R181,
R205). -/
inductive TimedAct where
  | event (ev : EventRecord) (came : Arrival)
  | retrigger (seat : Nat) (layer : Layer)
  deriving DecidableEq, Repr

/-- What takes effect at a boundary, and which. -/
structure Timed where
  at_ : Nat
  act : TimedAct
  deriving DecidableEq, Repr

/-- The event island (05). -/
structure Sched where
  /-- R205: releases that take effect at a boundary, in order. -/
  timed : List Timed
  /-- R202: four timetables, sorted by DUE_TIME. -/
  tts : List (List TTEntry)
  /-- R198: eight rolls. -/
  rolls : List (List Item)
  /-- R198: eight event cores and what each runs. -/
  cores : List (Option Item)
  /-- R206, R605: the record that a core's handler has posted and that finds no place; the core stalls. -/
  posts : List (Option EventRecord)
  handoffs : List HandOff
  /-- R206: onset marks: rolls full, timetables full, below the high-water mark. -/
  rollFull : Bool
  ttFull : List Bool
  lowPool : Bool
  /-- R208: STOP mode has stopped the trace. -/
  traceStopped : Bool
  /-- R215: PATCH_SWAPs not yet done (class, old patch). -/
  swaps : List (Nat × Nat)
  /-- R424, R605: serial messages waiting for room: port, record, stamp. -/
  waitSer : List (Nat × EventRecord × Nat)
  /-- R213: the words W0 to W2 of the seating rules as lookups see them, by register address; unlisted 0. -/
  rules : List (Nat × Nat)
  /-- Model's own: how many events and commands have come, which gives each its place in the order of arrival (R155). -/
  arrivals : Nat
  /-- Counts of R171 kept with the seats; the classes that are draining are those not enabled with seats left. Model's own:
  the order in which ramp units start. -/
  rampOrder : Nat
  deriving DecidableEq, Repr

/-! ### Tables and streams (06) -/

/-- A generation of a table: its banks, number, build flags and the boundary asked for its commit. -/
structure Gen where
  banks : List Nat
  commitAt : Option Nat
  deriving DecidableEq, Repr

/-- What a table holds beside its descriptor words (R220, R229 to R236): the pending generation; the retiring generation's banks
and those of a freed table, each with the number of boundaries left until they return. -/
structure TableX where
  pend : Option Gen
  retire : Option (List Nat × Nat)
  freed : Option (List Nat × Nat)
  deriving DecidableEq, Repr

/-- A TABLE_BUILD taken (R226): its command, table, flags, source space and address, and once begun its banks. -/
structure Build where
  tok : Tok
  stamp : Nat
  table : Nat
  flags : Nat
  space : Nat
  addr : Nat
  banks : List Nat
  deriving DecidableEq, Repr

/-- A sample map (R240): 0 UNDEFINED, 1 DEFINING, 2 DEFINED, 3 RESIDENT; its zones as written; where each zone's resident
data lies in slate. -/
structure SampleMap where
  state : Nat
  zones : List (Option (List Byte))
  heads : List Nat
  deriving DecidableEq, Repr

/-- What voices and the stream engine see of the stream descriptors, as the latest boundary found it (R23): the maps, and the
ring size code, first ring bank and slot count of STRM_CFG and STRM_RING_BANK. -/
structure StreamView where
  maps : List (Nat × SampleMap)
  code : Nat
  bank : Nat
  slots : Nat
  deriving DecidableEq, Repr

/-- Tables, library, maps and streams beside their registers. -/
structure Store where
  /-- R210, R215: resident patches, 2,048 bytes each, and staging copies, by number. -/
  patches : List (Nat × List Byte)
  staging : List (Nat × List Byte)
  tables : List (Nat × TableX)
  builds : List Build
  running : Option Build
  /-- R229, R236: commits and frees of tables that wait for their boundary, in order. -/
  acts : List Held
  maps : List (Nat × SampleMap)
  /-- R246: the seals in order, each with its command, stamp and map; the first one's copy is under way. -/
  sealing : List (Tok × Nat × Nat)
  /-- R238: the LIBRARY_LOADs in order: command, stamp, flash address, library offset, length; the first is under way. -/
  loading : List (Tok × Nat × Nat × Nat × Nat)
  /-- R23: the stream descriptors in effect. -/
  seen : StreamView
  slots : List Slot
  /-- R250: chunk requests on their way to LPDDR5 (slot numbers, oldest first). -/
  requests : List Nat
  /-- R255: streams stop at the next boundary. -/
  stopAtBound : Bool
  deriving DecidableEq, Repr

def Layer.reset : Layer :=
  { cls := 0, bank := 0, note := 0, key := 0, port := 0, chan := 0, clsTarget := false, noteId := 0, vel := 0, due := none,
    stamp := 0, came := 0, minGate := 0, cut := false, first := false, moved := false }

/-- R105: after reset every generator holds 1. -/
def Osc.reset : Osc :=
  { acc := 0, inc := 0, gen := 1, out := 0, cy := 0, drift := 0, wrap := false, wrapAcc := 0, wrapInc := 0, sync := none,
    zone := none, loops := 0, posSet := false, glide := none, ended := false, cold := false, morph := none }

def Env.reset : Env := { stage := 0, r := 0, l0 := 0, y := 0 }

def Lfo.reset : Lfo := { acc := 0, gen := 1, h := 0, hPrev := 0, fade := 0, stopped := false, y := 0, last := 0 }

def Voice.reset : Voice :=
  { st := 0, held := false, lay := Layer.reset, patch := 0, relVel := 0, perNote := [0, 0, 0, 0], stamp := 0, start := 0,
    dismN := 0, dismDone := 0, minLeft := 0, minGate := false, renders := 0, armed := false, gate := false, changes := [],
    silence := none, waiting := none, victimOf := none, random := 0, osc := List.replicate 4 Osc.reset,
    flt := List.replicate 2 [0, 0, 0, 0, 0], fltOut := [0, 0], env := List.replicate 6 Env.reset,
    lfo := List.replicate 4 Lfo.reset, ramp := List.replicate 4 none, macros := List.replicate 32 0,
    base := List.replicate 256 0, carried := List.replicate 72 0, voiceOut := 0, env0 := 0, pushed := [] }

def Lane.reset : Lane :=
  { next := 0, busy := none, saved := none, push := [], cycles := 0, doneAt := none }

/-- R179: the values every bank holds after a reset that reaches EVT: round(2^27 * v) (R429). -/
def Bank.reset : Bank :=
  { cc := ((((List.replicate 128 0).set 7 105683250).set 10 67637280).set 11 134217728), press := 0, bend := 0 }

/-- A global LFO at reset; its parameters are DESIGN CHOICE, notes/assumptions/47.md -/
def GLfo.reset (l : Nat) : GLfo :=
  { wave := 0, mode := 0, flags := 0, num := 1, den := 1, rate := 0, depth := 0, phase := 0, shape := 0,
    st := { Lfo.reset with gen := (0x5EED0001 ^^^ (0x4C464F00 + l)) }, out := 0 }

def Global.reset : Global :=
  { tuneF := 0x01B80000, tune := [], tpb := 0x01770000, origin := 0, beatStaged := none, beat := 0,
    glfo := [GLfo.reset 0, GLfo.reset 1, GLfo.reset 2, GLfo.reset 3],
    hparam := List.replicate 32 { cur := 0, target := 0, step := 0, left := 0 }, hparamL := List.replicate 32 0, smooth := 64,
    assign := [16, 17, 18, 19, 20, 21, 22, 23, 24, 25, 26, 27, 28, 29, 30, 31], banks := [], banksL := [],
    live := List.replicate 32 0, follow := List.replicate 16 0, ctl := List.replicate 8 0, mods := [], lateRaised := false,
    notReadyRaised := false }

def Sched.reset : Sched :=
  { timed := [], tts := List.replicate 4 [], rolls := List.replicate 8 [], cores := List.replicate 8 none, posts := List.replicate 8 none, handoffs := [],
    rollFull := false, ttFull := List.replicate 4 false, lowPool := false, traceStopped := false, swaps := [], waitSer := [],
    rules := [], arrivals := 0, rampOrder := 0 }

def TableX.reset : TableX := { pend := none, retire := none, freed := none }

def SampleMap.reset : SampleMap := { state := 0, zones := [], heads := [] }

def Store.reset : Store :=
  { patches := [], staging := [], tables := [], builds := [], running := none, acts := [], maps := [], sealing := [], loading := [],
    seen := { maps := [], code := 1, bank := 0, slots := 1024 }, slots := [], requests := [], stopAtBound := false }


/-! ### The ferry link (15) -/

/-- A ferry frame as sent: TYPE, SEQ and payload (R494). -/
structure FryFrame where
  type : Nat
  seq : Nat
  payload : List Byte
  deriving DecidableEq, Repr

/-- The ferry link beside its registers (15 R492 to R526). -/
structure Ferry where
  /-- R494: SEQ of the next frame. Reset 0 (DESIGN CHOICE, entry 3). -/
  seq : Nat
  /-- R494: frames sent and not acknowledged, oldest first, at most the 32 that the sender holds for replay. Reset empty. -/
  sent : List FryFrame
  /-- R494: frames that wait to be sent, TYPE and payload, in the order formed. Reset empty. -/
  queue : List (Nat × List Byte)
  /-- R507: what a PRIMARY is still to copy: first address and words. Reset empty. -/
  plan : List (Nat × Nat)
  /-- R508: the slate banks that the current crossing copies. Reset empty. -/
  copyBanks : List Nat
  /-- R493: replays so far of the oldest frame held. Reset 0. -/
  replays : Nat
  /-- R506: EVENT credits held. Reset 256. -/
  credits : Nat
  /-- R494, R497, R513: the peer's latest STATUS: role, state, revision, firmware release. Reset none. -/
  peer : Option (Nat × Nat × Nat × Nat)
  /-- R497: EN was written 0, and the device becomes unpaired at the next boundary. -/
  unpair : Bool
  /-- R497, R517, R518: the output pins are released. -/
  released : Bool
  /-- R513: heartbeats missed in succession. Reset 0. -/
  missed : Nat
  /-- R516: ticks in succession in which FRY_FAULTN was sampled low, and the tick of the latest. Reset 0. -/
  lowTicks : Nat
  lowAt : Nat
  /-- R495, R518: the part pulls FRY_FAULTN low. Reset true: low while in reset. -/
  pulls : Bool
  /-- R495: the tick at which this device last drove FRY_HB high, for 4 ticks. Reset none. -/
  hbFrom : Option Nat
  /-- R517: left IN_STEP because the link went down. -/
  orphan : Bool
  /-- R499: the Tide count captured at the latest FRY_HB rising edge. Reset 0. -/
  edge : Nat
  /-- R499: ticks the Tide is still to be held, and the DELTA to store then. -/
  hold : Option (Nat × Nat)
  /-- R508: the wake journal runs, and the entries logged and not yet sent: address, data, boundary. -/
  journaling : Bool
  journal : List (Nat × Nat × Nat)
  /-- R510: voices crossed. -/
  crossed : List Nat
  /-- R511: step-in boundary. -/
  stepAt : Option Nat
  /-- R516, R519, R520: landing boundary, and whether it is a planned swap. -/
  landAt : Option (Nat × Bool)
  /-- R526: FERRY_BOARD and FERRY_LAND that reply when they end, with their stamps. -/
  boardTok : Option (Tok × Nat)
  landTok : Option (Tok × Nat)
  /-- R64: that FERRY_LAND was taken with a due time still to come. Reset false. -/
  landTimed : Bool
  /-- R507: a hash is being computed: the FERRY_HASH commands that wait for it, and whether a boarding does. -/
  hashing : Option (List (Tok × Nat))
  hashThenBoard : Bool
  /-- R514: own checksums of the latest boundaries, newest first, at most five. -/
  sums : List (Nat × Nat)
  /-- R515: checksums are compared from this boundary on. -/
  compareFrom : Nat
  /-- R521: a new boarding starts after 100 ms. -/
  retry : Bool
  /-- R507, FERRY_CROSS: bytes copied in the current crossing. Reset 0. -/
  copied : Nat
  /-- R503, R506: forwarded records that found their place full, oldest first. Reset empty. -/
  waiting : List EventRecord
  /-- R504: mirrored writes and commands that wait for their boundary, in order of arrival. Reset empty. -/
  mirrors : List (Nat × MirrorEntry × Nat)
  /-- R514: checksums of the peer that came before the own one: boundary and CRC. Reset empty. -/
  early : List (Nat × Nat)
  /-- R522: boarding starts again after ABORT_DONE. -/
  boardAfterAbort : Bool
  /-- R507: STATE before the boarding under way, which a refusal leaves. Reset 0. -/
  prior : Nat
  deriving DecidableEq, Repr

def Ferry.reset : Ferry :=
  { seq := 0, sent := [], queue := [], plan := [], copyBanks := [], replays := 0, credits := 256, peer := none, unpair := false, released := false, missed := 0
    lowTicks := 0, lowAt := 0, pulls := true, hbFrom := none, orphan := false, edge := 0, hold := none
    journaling := false, journal := [], crossed := [], stepAt := none, landAt := none, boardTok := none, landTok := none, landTimed := false
    hashing := none, hashThenBoard := false, sums := [], compareFrom := 0, retry := false, copied := 0, waiting := []
    mirrors := [], early := [], boardAfterAbort := false, prior := 0 }

/-! ### Test and health (17) -/

/-- A BIST run (R555): its command, stamp, target mask and bank mask. -/
structure Bist where
  tok : Tok
  stamp : Nat
  targets : Nat
  banks : Nat
  deriving DecidableEq, Repr

/-- A latency sample that waits for its frame start (R562): monitor, the tick it counts from, the boundary that delivers the
layer's first sample. -/
structure LatWait where
  mon : Nat
  from_ : Nat
  bound : Nat
  deriving DecidableEq, Repr

/-- A level monitor's window (R564, R565): boundaries so far, the largest magnitude, windows met in succession. -/
structure LevelRun where
  n : Nat
  peak : Nat
  run : Nat
  deriving DecidableEq, Repr

/-- Test and health beside the TEST registers (17 R555 to R574). -/
structure Test where
  /-- R555: BIST running. Reset none. -/
  bist : Option Bist
  /-- R563, R564: the live bins, sparse, key = monitor * 64 + bin; unlisted 0. -/
  bins : List (Nat × Nat)
  latWait : List LatWait
  level : List LevelRun
  /-- R570: the instruction selected, 0 BYPASS, 1 IDCODE, 2 SAMPLE/PRELOAD, 3 EXTEST, 4 CHALLENGE, 5 RESPONSE, 6 debug halt.
  Reset 1 (PRESUMED, entry 3: IEEE 1149.1). -/
  ir : Nat
  /-- R570: what the selected register shifts out. Reset empty. -/
  dr : List Byte
  /-- R571: the challenge that an attempt may still use. Reset none. -/
  challenge : Option (List Byte)
  /-- R370, R570: debug halt. Reset false. -/
  halted : Bool
  deriving DecidableEq, Repr

def LevelRun.reset : LevelRun := { n := 0, peak := 0, run := 0 }

def Test.reset : Test :=
  { bist := none, bins := [], latWait := [], level := List.replicate 16 LevelRun.reset, ir := 1, dr := [], challenge := none,
    halted := false }

/-! ### The mix bus (07) -/

/-- A live gain on its way to its target (R285): the value reached, target, step and boundaries left, and whether a write
waits for the boundary at which its glide starts. -/
structure Glide where
  cur : Int
  target : Int
  step : Int
  left : Nat
  start : Bool
  deriving DecidableEq, Repr

/-- The mix bus beside its registers (07 R266 to R286). -/
structure Mix where
  /-- R266: the accumulators of the 16 buses in the open window, left and right, in 2^-57. Reset 0. -/
  accL : List Int
  accR : List Int
  /-- R271: the 32 values closed last, bus 0 left, bus 0 right, bus 1 left and so on. Reset 0. -/
  closed : List Int
  /-- R279, R280: the return values held, pair 0 left, pair 0 right, pair 1 left and so on. Reset 0. -/
  ret : List Int
  /-- R286: MIX_RET_ROUTEn in effect in the open window. Reset 0. -/
  route : List Nat
  /-- R285: live gains of the 32 live channels, the 32 return pairs and the 82 output channels. Reset 1.0. -/
  liveGain : List Glide
  retGain : List Glide
  outGain : List Glide
  /-- R283: the 82 port words of the latest boundary. Reset 0. -/
  words : List Int
  /-- R471: the port words of the boundary before, and whether the handover of the latest ones has completed. Reset 0,
  false. -/
  before : List Int
  handed : Bool
  /-- R472: MUTE has taken effect, at a boundary. Reset false. -/
  muted : Bool
  /-- R275: the stamp latched by the latest read of MIX_CKSUM; none until one has been read. Reset none. -/
  stamp : Option Nat
  deriving DecidableEq, Repr

def Glide.reset : Glide := { cur := 2 ^ 30, target := 2 ^ 30, step := 0, left := 0, start := false }

def Mix.reset : Mix :=
  { accL := List.replicate 16 0, accR := List.replicate 16 0, closed := List.replicate 32 0, ret := List.replicate 64 0,
    route := List.replicate 32 0, liveGain := List.replicate 32 Glide.reset, retGain := List.replicate 32 Glide.reset,
    outGain := List.replicate 82 Glide.reset, words := List.replicate 82 0,
    before := List.replicate 82 0, handed := false, muted := false, stamp := none }

/-! ### Audio outputs (14) -/

/-- A DAC channel beside its registers: the tick at which EN was set (R476), whether its switches would be closed but for
SHADOW (R480), whether they are about to open (R477), the range in use, the new range on its way (R478), and
the tick of the latest write of DAC_CODE with the code staged before it (R474). -/
structure Dac where
  enAt : Nat
  ready : Bool
  closing : Bool
  range : Nat
  next : Option Nat
  written : Option (Nat × Nat)
  deriving DecidableEq, Repr

/-- Audio inputs and outputs beside the AOUT registers (14 R469 to R491). -/
structure Aout where
  dacs : List Dac
  /-- R477, R482: the latest sample received by slot 0 to 15 of the input ports 0 and 1, as port words. Reset 0. -/
  tdmIn : List (List Int)
  /-- R483: output ports whose latest sample has not been sent yet (slave ports). Reset false. -/
  fresh : List Bool
  /-- R482: the slots of the latest frame that output ports 0 to 3 have formed, slot 0 first, MSB-first. Reset empty. -/
  tdmOut : List (List Word)
  /-- R481: FS and SD of that frame, one pair for each BCLK. Reset empty. -/
  tdmWire : List (List (Bool × Bool))
  /-- R484: the latest pair of S/PDIF subframes formed, each sample at its WIDTH. Reset empty. -/
  spdifOut : List Int
  /-- R484, R487: the channel status bytes of the subframe block under way, byte 0 first, and the frames of it that have been formed.
  Reset empty, 0. -/
  spdifCs : List Byte
  spdifPos : Nat
  /-- R485: the latest S/PDIF samples, left and right, and whether a frame came since the boundary. Reset 0. -/
  spdif : List Int
  spdifNew : Bool
  /-- R486: the outputs of the rate converter's four channels. Reset 0. -/
  asrc : List Int
  /-- R475: the Tide count at the latest low pulse driven on LDACN. Reset none. -/
  ldacn : Option Nat
  deriving DecidableEq, Repr

def Dac.reset : Dac := { enAt := 0, ready := false, closing := false, range := 0, next := none, written := none }

def Aout.reset : Aout :=
  { dacs := List.replicate 8 Dac.reset, tdmIn := List.replicate 2 (List.replicate 16 0), fresh := List.replicate 4 false,
    tdmOut := List.replicate 4 [], tdmWire := List.replicate 4 [], spdifOut := [], spdifCs := [], spdifPos := 0, spdif := [0, 0],
    spdifNew := false, asrc := [0, 0, 0, 0], ldacn := none }

/-! ### Serial ports and USB (12) -/

/-- The format of a port's characters (12 R417): data bits, parity (1 even, 2 odd) and stop bits. -/
structure SerFormat where
  bits : Nat
  parity : Nat
  stops : Nat
  deriving DecidableEq, Repr

/-- A serial port beside its registers (12 R416 to R430). -/
structure Ser where
  /-- R424: the receive FIFO, up to 64 bytes, oldest first, each with the Tide count at its centre sample. Reset empty. -/
  rx : List (Byte × Nat)
  /-- R424: the transmit FIFO, up to 64 bytes, oldest first. Reset empty. -/
  tx : List Byte
  /-- R418, R419: the level of the pin at the sample from which the receiver hunts, the centre of the character before. Reset low: a
  start must follow a high sample. -/
  level : Bool
  /-- R422: the formats and divisors, in 1/256, that a character now being received may have begun with, each with the Tide count at
  which a write replaced it, oldest first. Reset empty. -/
  prior : List (SerFormat × Nat × Nat)
  /-- R417, R425: the bits of the character started last, in the order in which they are sent. Reset empty. -/
  shift : List Bool
  /-- R425: a flow-control byte is owed: true for 0x13, false for 0x11. Reset none. -/
  flow : Option Bool
  /-- R427: running status. Reset none. -/
  run : Option Byte
  /-- R427: the message under way: its status byte and the data bytes so far. Reset none. -/
  msg : Option (Byte × List Byte)
  /-- R430: 0xFE has arrived, and silence is watched. Reset false. -/
  sense : Bool
  /-- R400: bytes written to SER_TXDATA that wait for the COMM clock to run, oldest first. Reset empty. -/
  owed : List Byte
  deriving DecidableEq, Repr

/-- The USB function beside its registers (12 R431 to R437). -/
structure Usb where
  /-- R434: the OUT buffer, up to 64 frames of 8 port words, oldest first. Reset empty. -/
  outBuf : List (List Int)
  /-- R434: the IN buffer, up to 64 frames of 8 port words, oldest first. Reset empty. -/
  inBuf : List (List Int)
  /-- R434: the frame taken at the latest boundary. Reset 0. -/
  frame : List Int
  /-- R434: the latest IN frame taken by the host. Reset empty. -/
  sent : List Int
  /-- R434: the conditions of R434 that hold: buffer empty, buffer full. Reset false. -/
  empty : Bool
  full : Bool
  /-- R436: the MIDI OUT endpoint answered NAK to the latest packet. Reset false. -/
  nak : Bool
  /-- R442: the UMP words sent last on the MIDI IN endpoint. Reset empty. -/
  midiIn : List Nat
  /-- R433: the latest request for another rate was stalled; a clock-source interrupt is owed. Reset false. -/
  stalled : Bool
  clockIrq : Bool
  /-- R435: the answer to Endpoint Discovery: groups, MIDI protocol, jitter-reduction timestamps. Reset none. -/
  answer : Option (Nat × Nat × Bool)
  deriving DecidableEq, Repr

def Ser.reset : Ser :=
  { rx := [], tx := [], level := false, prior := [], shift := [], flow := none, run := none, msg := none, sense := false, owed := [] }

def Usb.reset : Usb :=
  { outBuf := [], inBuf := [], frame := List.replicate 8 0, sent := [], empty := false, full := false,
    nak := false, midiIn := [], stalled := false, clockIrq := false, answer := none }

/-! ### The Gralon cores (08) -/

/-- What a register write in flight goes to (R303): a register by its selector (R311), an accumulator as the MAC units see it or
as every other reader does, a part of one in both views, a pointer, or a loop-active bit. -/
inductive GDest where
  | sel (s : Nat)
  | mac (n : Nat)
  | acc (n : Nat)
  | both (n : Nat)
  | la (k : Nat)
  deriving DecidableEq, Repr

/-- A write in flight: the core cycle from which instructions see it, its rank among writes of one cycle (R304), destination
and value. -/
structure GWrite where
  due : Nat
  rank : Nat
  dest : GDest
  value : Int
  deriving DecidableEq, Repr

/-- A far access outstanding (R331): the D register of a load, none for a store, the cycle at which the register is written, the
data, the bank, and whether the bank was borrowed as the access issued (R332). -/
structure FarLoad where
  reg : Option Nat
  due : Nat
  data : Nat
  bank : Nat
  borrowed : Bool
  deriving DecidableEq, Repr

/-- A Gralon core beside its registers in the address map (08 R291 to R335). -/
structure Gralon where
  /-- R291: D0 to D15, 32 bits. RUN rising sets every register to 0 (R295); entry 3 before that. -/
  d : List Nat
  /-- R291, R303: A0 to A3 as the MAC units see them, and as RNDA, stores, MOVR and SHA do. 80 bits, signed. -/
  mac : List Int
  acc : List Int
  /-- R291: P0 to P7, M0 to M7, B0 to B7, L0 to L7, 24 bits. -/
  p : List Nat
  m : List Nat
  b : List Nat
  l : List Nat
  /-- R291: LC0 to LC2 (16 bits), LSA0 to LSA2, LEA0 to LEA2 (14 bits). -/
  lc : List Nat
  lsa : List Nat
  lea : List Nat
  /-- R291: SR, IMASK, IPEND. -/
  sr : Nat
  imask : Nat
  ipend : Nat
  /-- R293: program, X and Y memory, sparse, unlisted words 0 (entry 3). -/
  prog : List (Nat × Nat)
  x : List (Nat × Nat)
  y : List (Nat × Nat)
  /-- R294: staged returns (16), control words (2) and line words (8). Reset 0. -/
  ret : List Nat
  ctl : List Nat
  lineW : List Nat
  /-- R294: what the latest pass start latched: IN (32), BLK_HALF, STAMP, TAP (16), PARAM (64). Reset 0. -/
  inp : List Nat
  half : Nat
  stamp : Nat
  tap : List Nat
  param : List Nat
  /-- R334: taps whose sample has arrived for the next pass. Reset false. -/
  tapReady : List Bool
  /-- R333: the number of samples committed to each line since RUN rose. Reset 0. -/
  linePos : List Nat
  /-- R295, R310: the next instruction to issue, and the last one issued. -/
  npc : Nat
  pc : Nat
  /-- R305: the target of a branch taken, and the instructions left before it, the delay slots. -/
  branch : Option (Nat × Nat)
  /-- R303: cycles since pass start, and the writes in flight. -/
  cyc : Nat
  flight : List GWrite
  /-- R331: far accesses outstanding, oldest first, and whether issue stands still for one. -/
  far : List FarLoad
  stalled : Bool
  /-- R296: the core is in WAIT; R324: the address of the WAIT that an interrupt returns to; handlers entered. -/
  waiting : Bool
  waitRet : Option Nat
  depth : Nat
  /-- R297: the pass start of the latest boundary may take place; a WAIT missed the deadline before the next boundary. -/
  startOk : Bool
  waitLate : Bool
  /-- R300: the pass under way has missed its deadline; the deadline before the next boundary has passed. -/
  noted : Bool
  missNow : Bool
  /-- R300: returns committed too late for the next close. -/
  lateRet : Option (List Nat)
  /-- R299, R300: the block under way, the one committed and not yet taken by a close, one committed too late for the next close, and
  the block now leaving. -/
  blk : Nat
  blkDone : Option Nat
  blkLate : Option Nat
  blkOut : Option Nat
  /-- R302, R335: the core halts at the next boundary. -/
  halting : Bool
  /-- R339: a program is loaded. Reset false. -/
  loaded : Bool
  /-- R400: a write of BDSP_IRQ waits for the BDSP clock to run. Reset false. -/
  irqOwed : Bool
  deriving DecidableEq, Repr

def Gralon.reset : Gralon :=
  { d := List.replicate 16 0, mac := List.replicate 4 0, acc := List.replicate 4 0, p := List.replicate 8 0
    m := List.replicate 8 0, b := List.replicate 8 0, l := List.replicate 8 0, lc := [0, 0, 0], lsa := [0, 0, 0]
    lea := [0, 0, 0], sr := 0, imask := 0, ipend := 0, prog := [], x := [], y := [], ret := List.replicate 16 0
    ctl := [0, 0], lineW := List.replicate 8 0, inp := List.replicate 32 0, half := 0, stamp := 0, tap := List.replicate 16 0
    param := List.replicate 64 0, tapReady := List.replicate 16 false, linePos := List.replicate 8 0, npc := 0, pc := 0
    branch := none, cyc := 0, flight := [], far := [], stalled := false, waiting := false, waitRet := none, depth := 0
    startOk := false, waitLate := false, noted := false, missNow := false, lateRet := none, blk := 0, blkDone := none
    blkLate := none, blkOut := none, halting := false, loaded := false, irqOwed := false }

/-! ### The event network (13) -/

/-- An event frame in a receive buffer (R461): its records with PORT written (R453), NET_TIME, and the stamp. -/
structure NetRx where
  records : List EventRecord
  netTime : Bool
  stamp : Nat
  deriving DecidableEq, Repr

/-- A frame to send (R463): destination, source, EtherType and payload. -/
structure NetTx where
  dst : Nat
  src : Nat
  etype : Nat
  payload : List Byte
  deriving DecidableEq, Repr

/-- A network port beside its registers (13 R443 to R468). -/
structure NetPort where
  /-- R461: the receive buffer, up to 4 frames, oldest first. Reset empty. -/
  rx : List NetRx
  /-- R463: the transmit queue, up to 8 frames, oldest first. Reset empty. -/
  tx : List NetTx
  /-- R463: SEQ of the next frame built. Reset 0. -/
  seq : Nat
  /-- R446: collisions of the frame at the head of the queue. Reset 0. -/
  tries : Nat
  /-- R451: tokens in the broadcast bucket. Reset 0: the bucket is full after the port is enabled. -/
  tokens : Nat
  /-- R463: the frame sent last. Reset none. -/
  sent : Option NetTx
  /-- R468: a NET_CONFIG listens: its command, stamp, and the words that a refusal puts back. Reset none. -/
  listen : Option (Tok × Nat × List (Nat × Nat))
  deriving DecidableEq, Repr

/-- PTP beside its registers (13 R457 to R460). -/
structure Ptp where
  /-- R457: the staged anchor, T0 and N0. Reset 0. -/
  staged : Nat × Nat
  /-- R459: a grandmaster is heard. Reset false. -/
  heard : Bool
  /-- R459: stamps of the latest Sync received and of the latest Delay_Req sent. Reset 0. -/
  syncAt : Nat
  dreqAt : Nat
  /-- R460: Syncs in succession whose estimate stayed within LOCK_NS, at most 8. Reset 0. -/
  good : Nat
  deriving DecidableEq, Repr

def NetPort.reset : NetPort :=
  { rx := [], tx := [], seq := 0, tries := 0, tokens := 0, sent := none, listen := none }

def Ptp.reset : Ptp := { staged := (0, 0), heard := false, syncAt := 0, dreqAt := 0, good := 0 }

/-- The machine: everything but the queue. -/
structure Block where
  /-- Supplies the index of the next fresh free value (Config.freeWord, Config.freeNat). Model's own. Reset 0. -/
  free : Nat
  /-- R54 and the register tables of every chapter: the register file, sparse, key = host address; an unlisted register
  reads its reset value (`regReset`). -/
  regs : List (Nat × Word)
  ev : Events
  host : HostPort
  proc : Proctor
  tide : Tide
  clk : Clocks
  pwr : Power
  slate : Slate
  /-- R114, R209: the 1,024 voices, sparse; an unlisted voice is `Voice.reset`. -/
  voices : List (Nat × Voice)
  /-- The sixteen lanes. -/
  lanes : List Lane
  glob : Global
  sched : Sched
  store : Store
  fry : Ferry
  tst : Test
  mix : Mix
  aout : Aout
  /-- The five serial ports. -/
  ser : List Ser
  usb : Usb
  /-- The four Gralon cores. -/
  bdsp : List Gralon
  /-- The two network ports, and PTP. -/
  net : List NetPort
  ptp : Ptp
  deriving DecidableEq, Repr

/-- The state: the queue of commands waiting, first in first out, and the machine. -/
structure State where
  pending : List Instr
  blk : Block
  deriving DecidableEq, Repr

def Block.reset : Block :=
  { free := 0, regs := [], ev := Events.reset, host := HostPort.reset, proc := Proctor.reset, tide := Tide.reset,
    clk := Clocks.reset, pwr := Power.reset, slate := Slate.reset, voices := [], lanes := List.replicate 16 Lane.reset,
    glob := Global.reset, sched := Sched.reset, store := Store.reset,
    fry := Ferry.reset, tst := Test.reset, mix := Mix.reset, aout := Aout.reset,
    ser := List.replicate 5 Ser.reset, usb := Usb.reset, bdsp := List.replicate 4 Gralon.reset,
    net := List.replicate 2 NetPort.reset, ptp := Ptp.reset }

/-- The state right after a power-on reset, PORN still low: nothing in the queue, every register at its reset value, the
Tide stopped at 0, the port not accepting (R47, R368, R539, R540, R545). -/
def State.reset : State := { pending := [], blk := Block.reset }

end Sys2Proof.Machine
end

