-- ==== Sys2Proof/Machine/Ops.lean ====
section
/-! DEFINITION. The operations every chapter shares: registers, events, the Tide's present, modes and domains, port errors,
and how a meaning answers. -/

namespace Sys2Proof.Machine

/-- The word a register holds. -/
def Block.word (b : Block) (a : Nat) : Nat := (smGet regReset b.regs a).toNat

/-- Stores a register word. -/
def Block.setWord (b : Block) (a v : Nat) : Block := { b with regs := smSet regReset b.regs a (BitVec.ofNat 32 v) }

/-- The value of a register field. -/
def Block.rd (b : Block) (f : Fld) : Nat := bitsOf (b.word f.addr) f.hi f.lo

/-- The value of a register field, signed. -/
def Block.rdS (b : Block) (f : Fld) : Int := sext (f.hi + 1 - f.lo) (b.rd f)

/-- Whether a register field is not zero. -/
def Block.flag (b : Block) (f : Fld) : Bool := b.rd f != 0

/-- Stores a register field. -/
def Block.wr (b : Block) (f : Fld) (v : Nat) : Block := b.setWord f.addr (putBits (b.word f.addr) f.hi f.lo v)

/-- Stores a one-bit field. -/
def Block.wrB (b : Block) (f : Fld) (v : Bool) : Block := b.wr f (b2n v)

/-- A register that holds one 64-bit mask or number in two words, low word first. -/
def Block.word64 (b : Block) (a : Nat) : Nat := b.word a + 2 ^ 32 * b.word (a + 4)

/-- Stores a 64-bit number in two words. -/
def Block.setWord64 (b : Block) (a v : Nat) : Block := (b.setWord a (v % 2 ^ 32)).setWord (a + 4) (v / 2 ^ 32 % 2 ^ 32)

/-- Writes a register as its fields' access codes say (R9, R12). -/
def Block.put (b : Block) (a v : Nat) : Block :=
  match regAt a with
  | none => b
  | some (r, _) => b.setWord a (r.write (b.word a) v)

/-- Whether a word may be written to a register by a command: reserved bits 0 and every RW field at a listed encoding. -/
def regWordOk (a v : Nat) : Bool :=
  match regAt a with
  | none => false
  | some (r, _) =>
    r.fields.all (fun f => f.acc != .rw || f.allows (bitsOf v f.hi f.lo)) &&
    r.fields.foldl (fun w f => putBits w f.hi f.lo 0) v == 0

/-- Raises an event: sets its pending bit (R56, R577), and queues an NMI-class source while the Proctor does not run
(R406, R581). -/
def Block.raise (b : Block) (src : Nat) : Block :=
  let b := { b with ev := { b.ev with pend := b.ev.pend ||| BitVec.ofNat 224 (2 ^ src) } }
  if nmiSource src && !b.flag fHIF_STATUS_PROCTOR_RUN then
    { b with proc := { b.proc with nmi := b.proc.nmi ++ [src] } }
  else b

/-- Raises an event where a condition holds. -/
def Block.raiseIf (b : Block) (c : Bool) (src : Nat) : Block := if c then b.raise src else b

/-- Advances a counter that sticks at 2^32 - 1, raising HISTO_SAT when it gets there (R580). -/
def Block.countUp (b : Block) (f : Fld) (n : Nat) : Block :=
  let v := b.rd f
  let w := min (v + n) (2 ^ 32 - 1)
  (b.wr f w).raiseIf (decide (v < 2 ^ 32 - 1) && decide (w = 2 ^ 32 - 1)) evHISTO_SAT

/-- The next fresh free number of a kind, and the machine that has used it. -/
def Block.fresh (b : Block) (kind : Nat) : Nat × Block := (Config.freeNat kind b.free, { b with free := b.free + 1 })

/-- The next fresh free word. -/
def Block.freshWord (b : Block) : Nat × Block := ((Config.freeWord b.free).toNat, { b with free := b.free + 1 })

/-- What the other port of a slate bank does in a cycle that no operand tells of: a free value. DESIGN CHOICE, notes/assumptions/49.md -/
def Block.freshPort (b : Block) : OtherPort × Block :=
  let (k, b) := b.fresh 350
  (match k % 3 with
    | 0 => .none
    | 1 => .read
    | _ => .write (BitVec.ofNat 64 (k / 3)), b)

/-! ### The Tide's present -/

/-- 2^48, the modulus of Tide counts (R367). -/
def tideMod : Nat := 2 ^ 48

/-- The Tide count. -/
def Block.now (b : Block) : Nat := b.tide.count.toNat

/-- P, the sample period in ticks (R16). -/
def Block.period (b : Block) : Nat := max 1 (b.rd fTIDE_STAT_PERIOD)

/-- Whether the Tide advances (R368 to R370). -/
def Block.tideRuns (b : Block) : Bool := b.flag fTIDE_STAT_RUNNING && !b.flag fTIDE_STAT_FROZEN

/-- How far t lies ahead of the present, modulo 2^48. -/
def Block.ahead (b : Block) (t : Nat) : Nat := (t + tideMod - b.now) % tideMod

/-- t lies in the past: less than 2^47 ticks behind the count, and not at it (R64, R176). -/
def Block.isPast (b : Block) (t : Nat) : Bool :=
  let d := (b.now + tideMod - t % tideMod) % tideMod
  decide (0 < d) && decide (d < 2 ^ 47)

/-- t is not in the future: at the count or less than 2^47 ticks behind it. -/
def Block.hasCome (b : Block) (t : Nat) : Bool := decide ((b.now + tideMod - t % tideMod) % tideMod < 2 ^ 47)

/-- The first boundary at or after a count (R16). -/
def Block.boundAt (b : Block) (t : Nat) : Nat := (t + b.period - 1) / b.period * b.period % tideMod

/-- The next boundary after the present, or the present one where its work is still to be done (R16, R23). -/
def Block.nextBound (b : Block) : Nat :=
  if b.now % b.period = 0 ∧ b.tide.bound ≠ some b.now then b.now else b.boundAt ((b.now + 1) % tideMod)

/-- The latest boundary: the count that TIDE_BOUND reads, 0 before the first (R389). -/
def Block.lastBound (b : Block) : Nat := b.tide.bound.getD 0

/-- Brings the count forward to a tick ahead, wrapping where it passes 2^48 - 1 (R373). -/
def Block.advanceTo (b : Block) (t : Nat) : Block :=
  if t % tideMod < b.now then
    { b with tide := { b.tide with count := BitVec.ofNat 48 t, epoch := b.tide.epoch + 1 } }.raise evTIDE_WRAP
  else { b with tide := { b.tide with count := BitVec.ofNat 48 t } }

/-! ### Modes, rates and domains -/

def mBOOT := 1
def mSTANDBY := 2
def mLISTEN := 3
def mLITE := 4
def mPLAY := 5
def mFULL := 6
def mSAFE := 7
def mSELFTEST := 8
def mUPDATE := 9
def mFAULT := 10

/-- HIF_STATUS.MODE. -/
def Block.mode (b : Block) : Nat := b.rd fHIF_STATUS_MODE

/-- The mode whose domains and rendering are in force: the mode held in SAFE (R535, R536). -/
def Block.effMode (b : Block) : Nat := if b.mode = mSAFE then b.pwr.safeHeld else b.mode

/-- LITE, PLAY or FULL (R527). -/
def isPlaying (m : Nat) : Bool := m == mLITE || m == mPLAY || m == mFULL

def Block.playing (b : Block) : Bool := isPlaying b.effMode

/-- Bit numbers of the power domains (R527). -/
def dAON := 0
def dCORE := 1
def dEVT := 2
def dVQ0 := 3
def dBDSP := 7
def dTBLD := 8
def dMEM := 9
def dAIO := 10
def dDACA := 11
def dCOMM := 12
def dFERRY := 13

/-- A power domain is on (R527). -/
def Block.on (b : Block) (d : Nat) : Bool := bit (b.rd fCPR_PD_STAT_ON) d

/-- The optional domains, CPR_PD_OPT bits 13:7 in their places (R527). -/
def Block.optDomains (b : Block) : Nat := b.rd fCPR_PD_OPT_OPT * 2 ^ 7

/-- The domains a mode needs, as a mask (R530). -/
def Block.domainsOf (b : Block) (m : Nat) : Nat :=
  if m = mLISTEN then 0x1007
  else if m = mLITE then Nat.lor 0x000F (Nat.land b.optDomains 0x1F80)
  else if m = mPLAY ∨ m = mFULL then Nat.lor 0x007F (Nat.land b.optDomains 0x3F80)
  else if m = mSELFTEST then 0x3FFF
  else if m = mUPDATE then 0x1003
  else 0x0003

/-- Ferry roles (HIF_STATUS.FERRY_ROLE). -/
def Block.isPrimary (b : Block) : Bool := b.rd fHIF_STATUS_FERRY_ROLE == 1

def Block.isShadow (b : Block) : Bool := b.rd fHIF_STATUS_FERRY_ROLE == 2

/-- P for a rate code (R19, R367). -/
def periodOf (rate : Nat) : Nat := if rate ≤ 1 then 1024 else if rate ≤ 3 then 512 else 256

/-- S, the active slots of a lane (R19). -/
def slotsFor (mode rate : Nat) : Nat :=
  if mode = mFULL then (if rate ≤ 3 then 64 else 32) else if mode = mPLAY then 32 else if mode = mLITE then 64 else 0

/-- The number of lanes that render (R19). -/
def lanesFor (mode : Nat) : Nat := if mode = mLITE then 4 else if isPlaying mode then 16 else 0

/-- B, VOICE cycles between two slot marks (R19). -/
def budgetFor (mode rate vclk : Nat) : Nat :=
  if mode = mFULL then
    (if rate = 0 then 283 else if rate = 1 then (if vclk = 1 then 130 else 260) else if rate = 2 then 141
     else if rate = 3 then 130 else if rate = 4 then 141 else 130)
  else if mode = mPLAY then (if rate = 0 then 283 else 260)
  else if mode = mLITE then (if rate = 0 then 141 else 130)
  else 0

def Block.slots (b : Block) : Nat := slotsFor b.effMode b.pwr.rate

def Block.laneCount (b : Block) : Nat := lanesFor b.effMode

def Block.budget (b : Block) : Nat := budgetFor b.effMode b.pwr.rate b.pwr.vclk

/-- Whether a voice number is a live seat in the configuration (R19). -/
def liveIn (mode rate v : Nat) : Bool := decide (v % 16 < lanesFor mode) && decide (v / 16 < slotsFor mode rate)

def Block.live (b : Block) (v : Nat) : Bool := liveIn b.effMode b.pwr.rate v

/-- Domains are switched on (R528); MEM takes CPR_MEM_CFG as it stands (R398). -/
def powerUp (mask : Nat) (b : Block) : Block :=
  let new := (List.range 14).filter (fun d => bit mask d && !b.on d && !bit b.pwr.rising d && !bit (b.rd fCPR_PD_STAT_FAULT) d)
  let b := if new.contains dMEM then
      { b with clk := { b.clk with memRate := b.rd fCPR_MEM_CFG_RATE, memSize := b.rd fCPR_MEM_CFG_SIZE } } else b
  { b with pwr := { b.pwr with rising := new.foldl (fun m d => Nat.lor m (2 ^ d)) b.pwr.rising } }

/-! ### Changes of mode (R530, R531) -/

/-- FERRY_CTRL.EN is 1 and the pair's roles are in force as R532 and R504 mean it. -/
def Block.leads (b : Block) : Bool := b.isPrimary && b.flag fFERRY_CTRL_EN

/-- The VOICE clock codes that R530 lists for a playing mode and rate. -/
def clockListed (m rate clk : Nat) : Bool :=
  if m = mFULL then clk == 0 || (clk == 1 && rate == 1) else clk == 1

/-- The rates that R530 lists for a playing mode. -/
def rateListed (m rate : Nat) : Bool := if m = mFULL then decide (rate ≤ 5) else decide (rate ≤ 1)

/-- The transitions of R531, from the present mode. -/
def Block.mayGo (b : Block) (m : Nat) : Bool :=
  let p := b.mode
  if p = mSTANDBY then m == mLISTEN || isPlaying m || m == mSAFE || m == mSELFTEST
  else if p = mLISTEN then m == mSTANDBY || isPlaying m
  else if isPlaying p then m == mSTANDBY || m == mLISTEN || isPlaying m || m == mSAFE
  else if p = mSAFE then m == mSTANDBY || (m == b.pwr.safeHeld && isPlaying m)
  else p == mSELFTEST && m == mSTANDBY

/-- A change that names the present mode, rate and VOICE clock (R531). -/
def Block.sameMode (b : Block) (m rate clk : Nat) : Bool :=
  m == b.mode && (!isPlaying m || (rate == b.pwr.rate && clk == b.pwr.vclk))

/-- The checks of SET_MODE in the order of R531. -/
def Block.modeRefusal (b : Block) (m rate clk rest : Nat) : Option Reason :=
  let play := isPlaying m
  if m < mSTANDBY ∨ mSELFTEST < m ∨ rest ≠ 0 ∨ (play ∧ !clockListed m rate clk) then some .badField
  else if play ∧ (!rateListed m rate ∨ rate % 2 = b.rd fCPR_APLL_CFG_FAMILY) then some .rateUnsupported
  else if b.isShadow then some .roleConflict
  else if b.sameMode m rate clk then none
  else if !b.mayGo m ∨ (b.flag fFERRY_CTRL_EN ∧ m ≠ mPLAY ∧ m ≠ mFULL) then some .notInMode
  else if b.mode = mSAFE ∧ b.flag fCPR_CLK_STAT_FALLBACK ∧ b.flag fCPR_CLK_CFG_FAIL_SAFE then some .onFallback
  else none

/-- The mode whose domains a new mode has: SAFE keeps those of the mode it will hold (R536). -/
def Block.heldBy (b : Block) (m : Nat) : Nat :=
  if m = mSAFE then (if isPlaying b.mode then b.mode else mSTANDBY) else m

/-- A point of time at or before another, within half the range of the count. -/
def notAfter (t u : Nat) : Bool := decide ((u + tideMod - t) % tideMod < 2 ^ 47)

/-- The mode, rate and VOICE clock that the changes taken leave, as far as they are due by a time: what a further SET_MODE finds
(R531). DEDUCED, notes/assumptions/26.md -/
def Block.foreseen (b : Block) (due : Nat) : Block :=
  (b.pwr.changes.filter (fun c => notAfter c.due due)).foldl (fun b c =>
    let held := if c.mode = mSAFE then b.heldBy mSAFE else b.pwr.safeHeld
    let play := isPlaying c.mode
    { b.wr fHIF_STATUS_MODE c.mode with pwr := { b.pwr with
      safeHeld := held, rate := if play then c.rate else b.pwr.rate, vclk := if play then c.clk else b.pwr.vclk } }) b

/-- Places a change behind those that are due no later. -/
def placeChange (c : ModeChg) : List ModeChg → List ModeChg
  | [] => [c]
  | x :: xs => if notAfter x.due c.due then x :: placeChange c xs else c :: x :: xs

/-- A change of mode is taken (R532): the domains it needs switch on at once. -/
def startChange (c : ModeChg) (b : Block) : Block :=
  powerUp (b.domainsOf (b.heldBy c.mode)) { b with pwr := { b.pwr with changes := placeChange c b.pwr.changes } }

/-- The due-timed commands that the Proctor holds (R64). -/
def Block.dueHeld (b : Block) : Nat := (b.proc.held.filter (·.timed)).length + (b.pwr.changes.filter (·.timed)).length +
  b2n (b.fry.landTok.isSome && b.fry.landTimed)

/-! ### Port errors -/

/-- Sets bits of HIF_HOST_STAT for one error, capturing its address where none is held, and raises HOST_PORT_ERR
(R33, R55). -/
def Block.hostErr (b : Block) (bits : List Fld) (addr : Option Nat) : Block :=
  let b := if b.word rHIF_HOST_STAT = 0 then
      b.wr fHIF_ERR_ADDR_ADDR (match addr with | some a => a / 4 * 4 | none => 0xFFFFFFFF)
    else b
  (bits.foldl (fun b f => b.wr f 1) b).raise evHOST_PORT_ERR

/-- The host ports serve: after a failure of the IRC no word takes effect any longer (R412). -/
def portsServe (b : Block) : Bool := b.host.ready && !b.clk.backupOsc

/-- A write word is discarded (R46): WRITE_DISCARDED beside the bit that names the reason, and HBUSY until the end of the
word's own transaction while that is still in progress. -/
def Block.discardWord (b : Block) (bits : List Fld) (addr txn : Nat) : Block :=
  let b := b.hostErr (bits ++ [fHIF_HOST_STAT_WRITE_DISCARDED]) (some addr)
  match b.host.txn with
  | some t => if t.id = txn then { b with host := { b.host with txn := some { t with busy := true } } } else b
  | none => b

end Sys2Proof.Machine
end

