-- ==== Sys2Proof/Machine/Flags.lean ====
section
/-! DEFINITION. Flags and levels that hardware keeps true at every moment: held event sources, HIRQN and HBUSY (02 R45 to R48;
18 R576, R577), and how a meaning answers with them. -/

namespace Sys2Proof.Machine

/-- The sources whose condition holds (R577): BROWNOUT_WARN, THERMAL_WARN, PD_FAULT, RESET_CAUSE_PENDING, DAC_FAULT. None
while the AON domain is in reset. -/
def Block.heldSources (b : Block) : BitVec 224 :=
  if b.pwr.porn then 0
  else
    BitVec.ofNat 224 (b2n b.pwr.lowCore * 2 ^ evBROWNOUT_WARN
      + b2n (decide (b.rdS fCPR_THERM_TEMP ≥ (b.rd fCPR_THERM_WARN_AT : Int))) * 2 ^ evTHERMAL_WARN
      + b2n (b.flag fCPR_PD_STAT_FAULT) * 2 ^ evPD_FAULT
      + b2n (b.word rCPR_RST_CAUSE != 0) * 2 ^ evRESET_CAUSE_PENDING
      + b2n ((List.range 8).any (fun n => b.flag (fDAC_STAT_FAULT.at n))) * 2 ^ evDAC_FAULT)

/-- R48: a pending enabled event, or a READY bit enabled in DB_EN. -/
def Block.irqDue (b : Block) : Bool :=
  (b.ev.pend &&& b.ev.en) != 0 ||
  Nat.land (b.rd fHIF_DOORBELL_OUT_READY) (b.rd fHIF_IRQ_CFG_DB_EN) != 0

/-- R45 to R47: not accepting yet, fewer than 8 words free, or a discard reported in the transaction in progress. -/
def Block.busyDue (b : Block) : Bool :=
  !b.host.ready || decide (56 < b.host.wbuf.length) || (match b.host.txn with | some t => t.busy | none => false)

/-- What hardware keeps true at every moment: held sources pending while their conditions hold (R577), reserved sources
never (R576), and the levels of HIRQN (R48) and HBUSY (R45 to R47). -/
def settle (b : Block) : Block :=
  let b := { b with ev := { pend := (b.ev.pend ||| b.heldSources) &&& sourceMask, en := b.ev.en &&& sourceMask } }
  { b with host := { b.host with hirq := b.irqDue, hbusy := b.busyDue } }

/-- A meaning that always answers a next state: it changes the machine and never the queue. -/
def done (f : Block → Block) (s : State) : Host.Outcome State Fault Refusal := .next { s with blk := settle (f s.blk) }

/-- A meaning whose operands must name units the part has (`Instr.wf`). -/
def doneIf (ok : Bool) (f : Block → Block) (s : State) : Host.Outcome State Fault Refusal :=
  if ok then done f s else .refused .illFormed

end Sys2Proof.Machine
end

