-- ==== Sys2Proof/Machine/Link.lean ====
section
/-! DEFINITION. What every chapter needs of the ferry link: pair counts, frames sent, mirrored state and the wake journal
(15 R494, R500, R501, R504, R507, R508). -/

namespace Sys2Proof.Machine

/-- FERRY_DELTA (R499). -/
def ferryDelta (b : Block) : Nat := b.rd fFERRY_DELTA_LO_DELTA + 2 ^ 32 * b.rd fFERRY_DELTA_HI_DELTA

/-- The pair count at a Tide count (R501): the count plus FERRY_DELTA. -/
def Block.pairCount (b : Block) (t : Nat) : Nat := (t + ferryDelta b) % tideMod

/-- The local count of a pair count (R500). -/
def localCount (b : Block) (t : Nat) : Nat := (t + tideMod - ferryDelta b) % tideMod

/-! ### Frames (R494) -/

/-- The bytes of a frame between its ordered sets (R494). -/
def FryFrame.bytes (f : FryFrame) : List Byte :=
  let body := toLE 1 f.type ++ toLE 1 f.seq ++ toLE 2 f.payload.length ++ f.payload
  body ++ toLE 4 (crc32c body)

/-- The place of a TYPE in the order in which the sender takes them (R494); CKSUM and STATUS have one. -/
def frameRank (type : Nat) : Nat := [7, 8, 1, 6, 2, 9, 4, 5].idxOf (if type = 3 then 2 else type)

/-- The frame that is sent next: the oldest of the first TYPE. -/
def nextFrame (q : List (Nat × List Byte)) : Option (Nat × List Byte) :=
  q.find? (fun f => q.all (fun g => decide (frameRank f.1 ≤ frameRank g.1)))

/-- One frame that waits is sent, where fewer than 32 are unacknowledged (R494). -/
def sendNext (b : Block) : Block :=
  match nextFrame b.fry.queue with
  | some f =>
    if b.fry.sent.length < 32 then
      { b with fry := { b.fry with
        queue := b.fry.queue.erase f, seq := (b.fry.seq + 1) % 256
        sent := b.fry.sent ++ [{ type := f.1, seq := b.fry.seq, payload := f.2 }] } }
    else b
  | none => b

/-- The frames that wait are sent as far as the 32 allow. -/
def sendQueue (b : Block) : Block := forN 32 (fun _ b => sendNext b) b

/-- A payload in pieces of at most 256 bytes (R494). -/
def payloads (bs : List Byte) : List (List Byte) :=
  if bs.isEmpty then [[]] else (List.range ((bs.length + 255) / 256)).map (fun i => (bs.drop (256 * i)).take 256)

/-- A frame is formed and waits its turn; a payload over 256 bytes takes several frames (notes/assumptions/20.md). -/
def sendFrame (type : Nat) (payload : List Byte) (b : Block) : Block :=
  if b.flag fFERRY_STAT_LINK then
    sendQueue { b with fry := { b.fry with queue := b.fry.queue ++ (payloads payload).map (fun p => (type, p)) } }
  else b

/-- FERRY_STAT.STATE (R507). -/
def ferryState (b : Block) : Nat := b.rd fFERRY_STAT_STATE

/-- A PRIMARY is to copy these words too (R504, R507). -/
def addCopy (runs : List (Nat × Nat)) (b : Block) : Block := { b with fry := { b.fry with plan := b.fry.plan ++ runs } }

/-- What the builder holds of table t beside its descriptor is named from here on, 32 bytes each (notes/assumptions/20.md). -/
def copyTables : Nat := 0x07000000

/-- Some of what is to be copied has not arrived: not sent, or not acknowledged. -/
def copyLeft (b : Block) : Bool :=
  !b.fry.plan.isEmpty || b.fry.queue.any (fun f => f.1 == 5) || b.fry.sent.any (fun f => f.type == 5)

/-- A SHADOW is being boarded or in step, and this PRIMARY copies to it. -/
def copies (b : Block) : Bool := b.isPrimary && (ferryState b == 6 || ferryState b == 8)

/-- The codes of DIRECT DAC channels come from the primary (R505). -/
def codesForwarded (b : Block) : Bool :=
  b.isShadow && b.flag fFERRY_STAT_LINK && decide (3 ≤ ferryState b) && decide (ferryState b ≤ 6)

/-! ### Addresses and Tide values on the link (R500)

The address that names an LPDDR5 word to the pair is the model's own (notes/assumptions/20.md). -/

def pairLpddr (o : Nat) : Nat := 0x80000000 + o / 4

/-- A word of a Tide value moved by d: its low word, or its high word beside the low one in the same count. -/
def shiftLow (d v : Nat) : Nat := (v + d) % 2 ^ 32
def shiftHigh (d low v : Nat) : Nat := ((v % 2 ^ 16 * 2 ^ 32 + low + d) % tideMod) / 2 ^ 32

/-- The low and the high word of a Tide value among the mirrored registers: VOICE_BEAT_ORIGIN and the stamp of a table. -/
def tideLow (a : Nat) : Bool :=
  a == rVOICE_BEAT_ORIGIN_LO || (decide (rTBL_DESC_W0 ≤ a) && decide (a < rTBL_DESC_W0 + 0x1000) && a % 0x20 == rTBL_DESC_W6 % 0x20)
def tideHigh (a : Nat) : Bool := decide (4 ≤ a) && tideLow (a - 4)

/-- The word below one of a register pair. -/
def lowBeside (b : Block) (a : Nat) : Nat := b.word (a - 4)

/-- VOICE_BEAT_ORIGIN_LO as the writes still to come leave it. -/
def originLow (b : Block) : Nat :=
  b.fry.mirrors.foldl (fun m e =>
    match e.2.1 with
    | .write a v _ => if a.toNat = rVOICE_BEAT_ORIGIN_LO then v.toNat else m
    | _ => m) (b.word rVOICE_BEAT_ORIGIN_LO)

/-- The word of a mirrored register as the pair counts it, and as a word of the pair counts here; low is the word below, here. -/
def pairWord (low a v : Nat) (b : Block) : Nat :=
  if tideLow a then shiftLow (ferryDelta b) v else if tideHigh a then shiftHigh (ferryDelta b) low v else v

def localWord (low a v : Nat) (b : Block) : Nat :=
  let back := tideMod - ferryDelta b
  if tideLow a then shiftLow back v else if tideHigh a then shiftHigh back (shiftLow (ferryDelta b) low) v else v

/-- The payload of a command, the ORIGIN of a SET_TEMPO moved to another count. -/
def moveOrigin (f : Nat → Nat) (op : Nat) (p : List Byte) : List Byte :=
  if op = 0x0203 ∧ leAt p 4 1 = 1 then p.take 8 ++ toLE 6 (f (leAt p 8 6)) ++ p.drop 14 else p

/-- A block of mirrored state (R498, R504): SCHED, VOICE, TBLD, STRM, BDSP, SLATECTL, AOUT and both windows. -/
def isMirrored (a : Nat) : Bool :=
  let k := a / 2 ^ 16
  k == 6 || (8 ≤ k && k ≤ 0xD) || (decide (0x02000000 ≤ a) && decide (a < 0x04000000)) || decide (0x80000000 ≤ a)

/-- A MIRROR frame for a command (R504). The payload's layout is the model's own (notes/assumptions/20.md). -/
def mirrorCommand (op at_ : Nat) (p : List Byte) (b : Block) : Block :=
  sendFrame 6 (toLE 1 1 ++ toLE 2 op ++ toLE 6 (b.pairCount at_) ++ moveOrigin b.pairCount op p) b

/-- A MIRROR frame for a word written (R504). -/
def mirrorWrite (addr value at_ : Nat) (b : Block) : Block :=
  sendFrame 6 (toLE 1 0 ++ toLE 4 addr ++ toLE 4 (pairWord (originLow b) addr value b) ++ toLE 6 (b.pairCount at_)) b

/-- A MIRROR frame for a DAC code (R505). -/
def mirrorDac (n code : Nat) (b : Block) : Block :=
  if b.isPrimary then sendFrame 6 (toLE 1 2 ++ toLE 1 n ++ toLE 2 code) b else b

/-- FERRY_LIB_HASH is no longer valid (R507). -/
def hashStale (b : Block) : Block := b.wr fFERRY_STAT_HASH_VALID 0

/-- The wake journal logs a write to copied state (R508); entries beyond its 16,384 overflow it, which the boundary sees. -/
def logJournal (addr data : Nat) (b : Block) : Block :=
  let data := pairWord (lowBeside b addr) addr data b
  if b.fry.journaling then { b with fry := { b.fry with journal := b.fry.journal ++ [(addr, data, b.lastBound)] } } else b

/-- The outcomes of the allocator and the sources latched are journaled until the shadow is STEPPING_IN (R509). -/
def Block.logsOutcomes (b : Block) : Bool := b.fry.journaling && decide (b.rd fFERRY_STAT_PEER_STATE < 5)

/-- A journal entry of R509, under an address of the model's own where the spec gives none (notes/assumptions/20.md). -/
def logOutcome (addr data : Nat) (b : Block) : Block := if b.logsOutcomes then logJournal addr data b else b

end Sys2Proof.Machine
end

