-- ==== Sys2Proof/Machine/Command.lean ====
section
/-! DEFINITION. The mailbox pipeline (02 R57 to R65): the checks every command meets, holding for a boundary, replies and
their queue. The command table lists each command of spec/ with its due-time column, payload shape and reserved bytes. -/

namespace Sys2Proof.Machine

/-- What the command tables say of a command: opcode, whether it accepts a due time, payload header bytes, bytes of an
entry, least and most entries, where the payload says how many (offset, bytes), reserved bytes (offset, count), whether it
changes mirrored state (R498, R504), the power domains it needs (R528), whether it takes effect only at a boundary even
without a due time, whether it is a status command (R498, R537), and whether a SHADOW refuses it with SHADOW_OWNS_PINS
(R491). -/
structure CmdInfo where
  op : Nat
  due : Bool
  hdr : Nat
  ent : Nat
  nMin : Nat
  nMax : Nat
  nAt : Option (Nat × Nat)
  zeros : List (Nat × Nat)
  mirrored : Bool
  need : Nat
  bound : Bool
  status : Bool
  pins : Bool

def cmdTable0 : List CmdInfo := [
  ⟨0x0000, false, 0, 1, 0, 240, none, [], false, 0x0, false, true, false⟩,
  ⟨0x0001, false, 0, 0, 0, 0, none, [], false, 0x0, false, true, false⟩,
  ⟨0x0002, true, 4, 0, 0, 0, none, [], false, 0x0, false, false, false⟩,
  ⟨0x0003, false, 0, 24, 1, 10, none, [], false, 0x4, false, false, false⟩,
  ⟨0x0004, false, 4, 0, 0, 0, none, [], false, 0x0, false, false, false⟩,
  ⟨0x0005, false, 8, 0, 0, 0, none, [], false, 0x0, false, true, false⟩,
  ⟨0x0006, true, 4, 0, 0, 0, none, [(1, 3)], false, 0x0, false, false, false⟩,
  ⟨0x0140, true, 4, 0, 0, 0, none, [], true, 0x0, true, false, false⟩,
  ⟨0x0141, true, 4, 4, 1, 56, some (2, 1), [(3, 1)], true, 0x0, true, false, false⟩,
  ⟨0x0142, true, 4, 0, 0, 0, none, [], true, 0x0, true, false, false⟩,
  ⟨0x0200, true, 0, 8, 1, 30, none, [], true, 0x0, true, false, false⟩,
  ⟨0x0201, true, 4, 8, 1, 29, none, [], true, 0x0, true, false, false⟩,
  ⟨0x0202, true, 0, 8, 1, 30, none, [], true, 0x0, true, false, false⟩,
  ⟨0x0203, true, 16, 0, 0, 0, none, [(5, 3), (14, 2)], true, 0x0, true, false, false⟩,
  ⟨0x0204, true, 24, 0, 0, 0, none, [(6, 2)], true, 0x0, true, false, false⟩,
  ⟨0x0205, true, 4, 0, 0, 0, none, [(2, 2)], true, 0x0, false, false, false⟩,
  ⟨0x0100, false, 4, 4, 1, 58, none, [], true, 0x0, false, false, false⟩,
  ⟨0x0101, false, 4, 0, 0, 0, none, [(2, 2)], true, 0x0, false, false, false⟩,
  ⟨0x0102, false, 20, 0, 0, 0, none, [(1, 3)], true, 0x0, false, false, false⟩,
  ⟨0x0103, true, 4, 0, 0, 0, none, [(2, 2)], true, 0x0, false, false, false⟩,
  ⟨0x0104, false, 4, 16, 1, 14, some (1, 1), [(2, 2)], true, 0x0, false, false, false⟩,
  ⟨0x0105, false, 8, 0, 0, 0, none, [], true, 0x0, false, false, false⟩,
  ⟨0x0106, true, 4, 0, 0, 0, none, [(1, 1)], true, 0x0, true, false, false⟩,
  ⟨0x0E00, false, 8, 0, 0, 0, none, [], true, 0x0, false, false, false⟩,
  ⟨0x0E01, false, 12, 0, 0, 0, none, [(10, 2)], false, 0x0, false, false, false⟩,
  ⟨0x0E02, false, 0, 0, 0, 0, none, [], false, 0x0, false, true, false⟩,
  ⟨0x0300, false, 8, 0, 0, 0, none, [(6, 2)], true, 0x0, false, false, false⟩,
  ⟨0x0301, false, 12, 0, 0, 0, none, [(3, 1)], true, 0x100, false, false, false⟩,
  ⟨0x0302, true, 4, 1, 1, 16, some (0, 1), [(1, 3)], true, 0x0, false, false, false⟩,
  ⟨0x0303, true, 4, 0, 0, 0, none, [(2, 2)], true, 0x0, false, false, false⟩,
  ⟨0x0304, false, 4, 0, 0, 0, none, [(1, 3)], false, 0x0, false, true, false⟩,
  ⟨0x0400, false, 4, 0, 0, 0, none, [], true, 0x0, false, false, false⟩,
  ⟨0x0401, false, 12, 0, 0, 0, none, [], true, 0x0, false, false, false⟩,
  ⟨0x0402, false, 16, 0, 0, 0, none, [(6, 2)], true, 0x0, false, false, false⟩,
  ⟨0x0403, false, 4, 0, 0, 0, none, [(2, 2)], true, 0x0, false, false, false⟩,
  ⟨0x0410, false, 4, 0, 0, 0, none, [], true, 0x0, false, false, false⟩,
  ⟨0x0411, false, 4, 40, 1, 5, none, [], true, 0x0, false, false, false⟩,
  ⟨0x0412, false, 4, 0, 0, 0, none, [(2, 2)], true, 0x0, false, false, false⟩,
  ⟨0x0413, false, 4, 0, 0, 0, none, [(2, 2)], true, 0x0, false, false, false⟩,
  ⟨0x0B80, true, 4, 8, 1, 29, some (1, 1), [(2, 2)], true, 0x0, true, false, false⟩]

def cmdTable1 : List CmdInfo := [
  ⟨0x0B81, true, 4, 8, 1, 29, some (1, 1), [(2, 2)], true, 0x0, true, false, false⟩,
  ⟨0x0B82, true, 4, 8, 1, 29, some (1, 1), [(2, 2)], true, 0x0, true, false, false⟩,
  ⟨0x0B83, true, 12, 0, 0, 0, none, [], true, 0x0, true, false, false⟩,
  ⟨0x0B84, false, 0, 0, 0, 0, none, [], false, 0x0, false, true, false⟩,
  ⟨0x0500, false, 20, 0, 0, 0, none, [(1, 1), (6, 2)], true, 0x80, false, false, false⟩,
  ⟨0x0501, false, 4, 8, 1, 29, none, [(1, 1)], true, 0x80, false, false, false⟩,
  ⟨0x0502, false, 8, 0, 0, 0, none, [(1, 3)], true, 0x80, false, false, false⟩,
  ⟨0x0503, true, 4, 4, 1, 58, none, [], true, 0x80, true, false, false⟩,
  ⟨0x0504, false, 8, 0, 0, 0, none, [(6, 2)], false, 0x80, false, false, false⟩,
  ⟨0x0505, true, 4, 0, 0, 0, none, [], true, 0x0, true, false, false⟩,
  ⟨0x0506, true, 4, 4, 1, 58, some (2, 1), [(3, 1)], true, 0x0, true, false, false⟩,
  ⟨0x0507, true, 20, 0, 0, 0, none, [(3, 1)], true, 0x0, true, false, false⟩,
  ⟨0x0508, false, 4, 0, 0, 0, none, [(1, 3)], false, 0x0, false, true, false⟩,
  ⟨0x0600, true, 12, 0, 0, 0, none, [(10, 2)], true, 0x0, false, false, false⟩,
  ⟨0x0601, false, 12, 0, 0, 0, none, [(9, 3)], true, 0x0, false, false, false⟩,
  ⟨0x0602, false, 20, 0, 0, 0, none, [(2, 2)], true, 0x0, false, false, false⟩,
  ⟨0x0603, false, 4, 0, 0, 0, none, [(2, 2)], true, 0x0, false, false, false⟩,
  ⟨0x0604, false, 0, 0, 0, 0, none, [], false, 0x0, false, true, false⟩,
  ⟨0x0900, false, 0, 0, 0, 0, none, [], false, 0x0, false, true, false⟩,
  ⟨0x0901, false, 20, 0, 0, 0, none, [(1, 3), (10, 2)], false, 0x0, false, false, false⟩,
  ⟨0x0902, false, 28, 0, 0, 0, none, [(1, 3)], false, 0x0, false, false, false⟩,
  ⟨0x0903, false, 8, 0, 0, 0, none, [(1, 3)], false, 0x0, false, false, false⟩,
  ⟨0x0904, false, 8, 0, 0, 0, none, [(1, 3)], false, 0x0, false, false, false⟩,
  ⟨0x0905, true, 4, 0, 0, 0, none, [(2, 2)], false, 0x0, false, false, false⟩,
  ⟨0x0A00, true, 12, 0, 0, 0, none, [(9, 3)], false, 0x0, true, false, false⟩,
  ⟨0x0A01, true, 0, 0, 0, 0, none, [], false, 0x0, true, false, false⟩,
  ⟨0x0A02, false, 0, 0, 0, 0, none, [], false, 0x0, false, true, false⟩,
  ⟨0x0A03, false, 4, 0, 0, 0, none, [], false, 0x0, false, false, false⟩,
  ⟨0x0A10, false, 4, 0, 0, 0, none, [], false, 0x0, false, false, false⟩,
  ⟨0x0A11, false, 0, 0, 0, 0, none, [], false, 0x0, false, true, false⟩,
  ⟨0x0700, true, 16, 0, 0, 0, none, [(1, 3)], false, 0x0, false, false, false⟩,
  ⟨0x0701, false, 4, 1, 1, 236, some (2, 2), [(1, 1)], false, 0x1000, false, false, false⟩,
  ⟨0x0702, false, 4, 0, 0, 0, none, [], false, 0x0, false, false, false⟩,
  ⟨0x0703, false, 0, 4, 1, 60, none, [], false, 0x1000, false, false, false⟩,
  ⟨0x0704, false, 0, 0, 0, 0, none, [], false, 0x0, false, true, false⟩,
  ⟨0x0800, false, 20, 0, 0, 0, none, [(2, 2)], false, 0x0, false, false, false⟩,
  ⟨0x0801, false, 8, 0, 0, 0, none, [], false, 0x0, false, false, false⟩,
  ⟨0x0802, false, 8, 0, 0, 0, none, [], false, 0x0, false, false, false⟩,
  ⟨0x0803, false, 12, 0, 0, 0, none, [(1, 3)], false, 0x0, false, false, false⟩,
  ⟨0x0804, false, 20, 0, 0, 0, none, [(18, 2)], false, 0x0, false, false, false⟩]

def cmdTable2 : List CmdInfo := [
  ⟨0x0805, false, 12, 24, 1, 9, some (2, 1), [(3, 1), (10, 2)], false, 0x1000, false, false, false⟩,
  ⟨0x0806, false, 4, 0, 0, 0, none, [(1, 3)], false, 0x0, false, true, false⟩,
  ⟨0x0B00, false, 12, 0, 0, 0, none, [(1, 3)], false, 0x0, false, false, true⟩,
  ⟨0x0B01, true, 4, 0, 0, 0, none, [(2, 2)], false, 0x0, false, false, true⟩,
  ⟨0x0B02, true, 20, 0, 0, 0, none, [(1, 3)], true, 0x0, true, false, false⟩,
  ⟨0x0B03, false, 4, 0, 0, 0, none, [], false, 0x0, false, false, true⟩,
  ⟨0x0B04, false, 12, 0, 0, 0, none, [(2, 2)], false, 0x0, false, false, true⟩,
  ⟨0x0B05, false, 0, 0, 0, 0, none, [], false, 0x0, false, true, false⟩,
  ⟨0x0C00, false, 4, 0, 0, 0, none, [], false, 0x0, false, false, false⟩,
  ⟨0x0C01, false, 0, 0, 0, 0, none, [], false, 0x0, false, false, false⟩,
  ⟨0x0C02, true, 4, 0, 0, 0, none, [(1, 3)], false, 0x0, false, false, false⟩,
  ⟨0x0C03, false, 0, 0, 0, 0, none, [], false, 0x0, false, false, false⟩,
  ⟨0x0C04, false, 0, 0, 0, 0, none, [], false, 0x0, false, true, false⟩,
  ⟨0x0D00, false, 16, 0, 0, 0, none, [(12, 4)], false, 0x0, false, false, false⟩,
  ⟨0x0D01, false, 0, 0, 0, 0, none, [], false, 0x0, false, true, false⟩,
  ⟨0x0D02, false, 4, 0, 0, 0, none, [], false, 0x0, false, false, false⟩,
  ⟨0x0D03, false, 16, 0, 0, 0, none, [(1, 3)], false, 0x0, false, false, false⟩,
  ⟨0x0D04, false, 4, 0, 0, 0, none, [], false, 0x0, false, false, false⟩,
  ⟨0x0D05, false, 0, 0, 0, 0, none, [], false, 0x0, false, true, false⟩,
  ⟨0x0D06, false, 0, 0, 0, 0, none, [], false, 0x0, false, false, false⟩,
  ⟨0x0D07, false, 128, 0, 0, 0, none, [], false, 0x0, false, false, false⟩,
  ⟨0x0F00, false, 4, 0, 0, 0, none, [], false, 0x0, false, false, false⟩,
  ⟨0x0F01, false, 4, 4, 1, 58, none, [], false, 0x0, false, false, false⟩,
  ⟨0x0F02, false, 104, 0, 0, 0, none, [], false, 0x0, false, false, false⟩,
  ⟨0x0F03, true, 0, 0, 0, 0, none, [], false, 0x0, true, false, false⟩,
  ⟨0x0F04, false, 0, 0, 0, 0, none, [], false, 0x0, false, false, false⟩,
  ⟨0x0F05, false, 0, 0, 0, 0, none, [], false, 0x0, false, true, false⟩,
  ⟨0x0F10, false, 4, 4, 1, 58, none, [], false, 0x0, false, false, false⟩,
  ⟨0x0F11, false, 104, 0, 0, 0, none, [], false, 0x0, false, false, false⟩]

/-- Every command of the mailboxes. -/
def cmdTable : List CmdInfo := cmdTable0 ++ cmdTable1 ++ cmdTable2

/-- The entry of a command in the table. -/
def cmdInfo (op : Nat) : Option CmdInfo := cmdTable.find? (fun i => i.op == op)

/-- How a command ends (R60): at once with a status, a reason and a reply payload, or later, when what it began ends. -/
inductive End where
  | reply (status : Nat) (reason : Reason) (payload : List Byte)
  | later
  deriving DecidableEq, Repr

/-- COMPLETE with a reply payload. -/
def ok (payload : List Byte) : End := .reply 0 .ok payload

/-- REFUSED, no effect. -/
def refusedWith (r : Reason) : End := .reply 1 r []

/-- FAILED, effect partial. -/
def failedWith (r : Reason) (payload : List Byte) : End := .reply 2 r payload

/-- CANCELLED with ABORTED. -/
def cancelled : End := .reply 3 .aborted []

/-- What a command means: the chapter's checks on its payload and the machine, its effect at a Tide count, and whether the
checks are made again at the effect. -/
structure Meaning where
  chk : List Byte → Block → Option Reason
  eff : Tok → Nat → List Byte → Block → End × Block
  again : Bool := true

/-! ### Replies -/

/-- Bytes of a mailbox image written from an offset of the mailbox space. -/
def Block.putMbx (b : Block) (off : Nat) (bs : List Byte) : Block :=
  { b with proc := { b.proc with mbx := smWriteAll (fun _ => 0) b.proc.mbx off bs } }

/-- Bytes of the mailbox space. -/
def Block.getMbx (b : Block) (off n : Nat) : List Byte := smRange (fun _ => 0) b.proc.mbx off n

/-- The bytes of a reply (R60). -/
def Reply.bytes (r : Reply) : List Byte :=
  toLE 2 r.op ++ toLE 2 r.tag ++ toLE 2 r.payload.length ++ toLE 1 r.status ++ toLE 1 r.reason ++ toLE 6 r.stamp ++
  toLE 2 (b2n r.late) ++ r.payload

/-- The lowest free reply mailbox, 0 to 7 for MB8 to MB15 (R57, R62). -/
def Block.freeReply (b : Block) : Option Nat :=
  (List.range 8).find? (fun i => !bit (b.rd fHIF_DOORBELL_OUT_READY) i)

/-- Puts a reply into a mailbox and sets its READY bit (R57, R62). -/
def Block.placeReply (b : Block) (i : Nat) (r : Reply) : Block :=
  (b.putMbx ((8 + i) * 0x100) r.bytes).wr fHIF_DOORBELL_OUT_READY (Nat.lor (b.rd fHIF_DOORBELL_OUT_READY) (2 ^ i))

/-- MBX_OVERFLOW once while the queue of 64 is full (R62). -/
def Block.noteOverflow (b : Block) : Block :=
  if 64 ≤ b.proc.replies.length then
    if b.proc.overflow then b
    else { b with proc := { b.proc with overflow := true } }.raise evMBX_OVERFLOW
  else { b with proc := { b.proc with overflow := false } }

/-- Delivers a reply: into the lowest free mailbox, or behind those that wait (R62). -/
def Block.deliver (b : Block) (r : Reply) : Block :=
  match b.proc.replies, b.freeReply with
  | [], some i => b.placeReply i r
  | _, _ => ({ b with proc := { b.proc with replies := b.proc.replies ++ [r] } }).noteOverflow

/-- Moves waiting replies into mailboxes that have come free, oldest first (R62). -/
def Block.drainReplies (b : Block) : Nat → Block
  | 0 => b
  | n + 1 =>
    match b.proc.replies, b.freeReply with
    | r :: rs, some i => (({ b with proc := { b.proc with replies := rs } }.placeReply i r).noteOverflow).drainReplies n
    | _, _ => b

/-- Ends a command: its reply with a stamp, suppressed by NO_REPLY where it ends COMPLETE, and lost where the Proctor has been
restarted since it took the command (R60, R63, R77). A tag of 2^16 marks a command mirrored by the primary (R504), which no host
sent here. -/
def Block.finish (b : Block) (tok : Tok) (stamp : Nat) (late : Bool) (e : End) : Block :=
  match e with
  | .later => b
  | .reply status reason payload =>
    if (status = 0 ∧ tok.noReply) ∨ tok.gen ≠ b.proc.gen ∨ 2 ^ 16 ≤ tok.tag then b
    else b.deliver { op := tok.op, tag := tok.tag, status := status, reason := reason.code, stamp := stamp, late := late || tok.late,
                     payload := payload }

/-! ### The checks every command meets -/

/-- Whether a LENGTH is one the command's table allows (R61). -/
def CmdInfo.lengthOk (i : CmdInfo) (p : List Byte) : Bool :=
  let len := p.length
  if i.ent = 0 then len == i.hdr
  else
    let n := match i.nAt with
      | some (o, k) => leAt p o k
      | none => (len - i.hdr) / i.ent
    decide (len = i.hdr + i.ent * n) && decide (i.nMin ≤ n) && decide (n ≤ i.nMax)

/-- Whether the reserved bytes of a payload are 0 (R61). -/
def CmdInfo.zerosOk (i : CmdInfo) (p : List Byte) : Bool := i.zeros.all (fun z => leAt p z.1 z.2 == 0)

/-- The refusals that come before the chapter's own: mode FAULT (R537), LENGTH and reserved bytes (R61), a due time where
none is accepted (R64), a shadow (R498, R491), and a domain that is off (R528). -/
def precheck (i : CmdInfo) (due : Bool) (p : List Byte) (b : Block) : Option Reason :=
  if b.mode = mFAULT ∧ !i.status ∧ ¬ (i.op = 0x0006 ∧ leAt p 0 1 = 0) then some .notInMode
  else if !i.lengthOk p then some .badLength
  else if !i.zerosOk p then some .badField
  else if due && !i.due then some .badField
  else if b.isShadow && i.pins then some .shadowOwnsPins
  else if b.isShadow && i.mirrored then some .roleConflict
  else if Nat.land i.need (b.rd fCPR_PD_STAT_ON) ≠ i.need then some .domainOff
  else none

/-- Sildacen serves the mailboxes (R77, HIF_STATUS.BOOT_DONE). -/
def Block.serving (b : Block) : Bool := b.flag fHIF_STATUS_PROCTOR_RUN && b.flag fHIF_STATUS_BOOT_DONE

/-- The boot ROM serves the host (R546). -/
def Block.romServing (b : Block) : Bool :=
  b.flag fHIF_STATUS_PROCTOR_RUN && !b.flag fHIF_STATUS_BOOT_DONE && b.rd fCPR_BOOT_STAT_ROM_STATE == 1

/-- The opcodes the boot ROM accepts: PING, BOOT_WRITE, BOOT_RUN (R546). -/
def romAccepts (op : Nat) : Bool := op == 0x0000 || op == 0x0F10 || op == 0x0F11

/-- A PRIMARY forwards a command: one that changes mirrored state, but a table build, which runs on it alone (R504). -/
def CmdInfo.forwarded (i : CmdInfo) : Bool := i.mirrored && i.op != 0x0301

/-- The count from which a command's boundary is sought: its due time where it is given and not past, else the present; on
a PRIMARY with a shadow served, two periods later for mirrored state (R64, R504). -/
def Block.effectFrom (b : Block) (mirrored : Bool) (due : Option Nat) : Nat :=
  let t := match due with
    | some d => if b.isPast d then b.now else d
    | none => b.now
  if mirrored && b.isPrimary then (t + 2 * b.period) % tideMod else t

/-- SET_TUNING, SET_TUNING_TABLE, SET_TEMPO and SET_GLOBAL_LFO, whose effect every voice of a window sees whole (R83, R117, R126,
R149, R151), and MOD_WRITE and MOD_WRITE_NOTE, which apply at a boundary (R155): they take effect at a boundary even where they come
late. -/
def wholeWindow (op : Nat) : Bool := [0x0140, 0x0141, 0x0200, 0x0201, 0x0203, 0x0204].contains op

/-- The present is a boundary whose work has been done. -/
def Block.justOpened (b : Block) : Bool := b.tide.bound == some b.now

/-- Whether a command waits for a boundary (R64, R504): a due time still to come, a meaning tied to a boundary, or mirrored
state on a PRIMARY. A due time that is the boundary just opened, or past, is not waited for but by `wholeWindow`
(DEDUCED, notes/assumptions/16.md). -/
def Block.waits (b : Block) (i : CmdInfo) (due : Option Nat) : Bool :=
  let come := due.any (fun d => b.isPast d || (b.justOpened && d % tideMod == b.now))
  (due.isSome && !come) || (i.bound && (!come || wholeWindow i.op)) || (i.forwarded && b.isPrimary)

/-- The boundary of a command that waits: the first at or after its count, or, without a due time, the first still to
come. -/
def Block.boundaryFor (b : Block) (i : CmdInfo) (due : Option Nat) : Nat :=
  let t := b.effectFrom i.forwarded due
  if t = b.now then b.nextBound else b.boundAt t

/-- A command is held for its boundary. -/
def Block.hold (b : Block) (tok : Tok) (at_ : Nat) (p : List Byte) (timed : Bool) : Block :=
  { b with
    proc := { b.proc with held := b.proc.held ++ [{ tok := tok, at_ := at_, payload := p, timed := timed, seq := b.sched.arrivals }] }
    sched := { b.sched with arrivals := b.sched.arrivals + 1 } }

/-- Runs a command's meaning at a stamp: the chapter's checks again, then the effect and the reply. -/
def Block.runMeaning (b : Block) (m : Meaning) (tok : Tok) (stamp : Nat) (late : Bool) (p : List Byte) : Block :=
  match (if m.again then m.chk p b else none) with
  | some r => b.finish tok stamp late (refusedWith r)
  | none =>
    let (e, b') := m.eff tok stamp p b
    b'.finish tok stamp late e

/-- A command begins: the common checks, then a hold for its boundary, or its meaning at once (R61, R64). -/
def begin_ (op : Nat) (m : Meaning) (c : Cmd) (b : Block) : Block :=
  let due := if c.due then some c.dueTime.toNat else none
  let tok : Tok := { op := op, tag := c.tag.toNat, noReply := c.noReply, late := false, gen := b.proc.gen }
  match cmdInfo op with
  | none => b.finish tok b.now false (refusedWith .badOpcode)
  | some i =>
    match precheck i c.due c.payload b with
    | some r => b.finish tok b.now false (refusedWith r)
    | none =>
      match m.chk c.payload b with
      | some r => b.finish tok b.now false (refusedWith r)
      | none =>
        if b.waits i due then
          let timed := due.isSome && !due.any b.isPast
          if timed && decide (256 ≤ b.dueHeld) then b.finish tok b.now false (refusedWith .busyBackpressure)
          else
            let at_ := b.boundaryFor i due
            let b := if i.forwarded && b.isPrimary then mirrorCommand op at_ c.payload b else b
            b.hold { tok with late := due.any b.isPast } at_ c.payload timed
        else b.runMeaning m { tok with late := due.any b.isPast } b.now false c.payload

/-- The Proctor takes commands: none while its queue of replies is full (R62). -/
def Block.takes (b : Block) : Bool := decide (b.proc.replies.length < 64)

/-- A command row: Sildacen takes the command where it serves the mailboxes; the boot ROM answers the commands of R546 and
refuses the others; otherwise the command waits and nothing changes. -/
def command (op : Nat) (m : Meaning) (c : Cmd) (b : Block) : Block :=
  if !b.takes then b
  else if b.serving then begin_ op m c b
  else if b.romServing then
    if romAccepts op then begin_ op m c b
    else b.finish { op := op, tag := c.tag.toNat, noReply := c.noReply, late := false, gen := b.proc.gen } b.now false (refusedWith .badOpcode)
  else b

/-- A meaning without checks of its own. -/
def plain (eff : List Byte → Block → End × Block) : Meaning := { chk := fun _ _ => none, eff := fun _ _ p b => eff p b }

end Sys2Proof.Machine
end

