-- ==== Sys2Proof/Machine/NetLink.lean ====
section
/-! DEFINITION. Enabling and disabling a network port (13 R444, R445, R447, R451, R462), which the clock fallback does too. -/

namespace Sys2Proof.Machine

def Block.netPort (b : Block) (n : Nat) : NetPort := nth NetPort.reset b.net n

def Block.modNet (b : Block) (n : Nat) (f : NetPort → NetPort) : Block := { b with net := b.net.modify n f }

/-- A port is enabled and powered. -/
def netOn (b : Block) (n : Nat) : Bool := b.flag (fNET_CTRL_EN.at n) && b.on dCOMM

/-- A port receives: it is enabled, or it listens before it is (R468). -/
def netHears (b : Block) (n : Nat) : Bool := (b.flag (fNET_CTRL_EN.at n) || (b.netPort n).listen.isSome) && b.on dCOMM

/-- A port is set to use PLCA (R444). -/
def usesPlca (b : Block) (n : Nat) : Bool := b.flag (fNET_CTRL_PLCA_EN.at n) && b.rd (fNET_PLCA_NODE_ID.at n) != 255

/-- A port is the PLCA coordinator (R444). -/
def isCoord (b : Block) (n : Nat) : Bool := usesPlca b n && b.rd (fNET_PLCA_NODE_ID.at n) == 0

/-- LINK takes a value; NET_LINK at a change (R447). -/
def setLink (n : Nat) (v : Bool) (b : Block) : Block :=
  if b.flag (fNET_STAT_LINK.at n) = v then b else (b.wrB (fNET_STAT_LINK.at n) v).raise (evNET_LINK n)

/-- The bucket is full (R451). -/
def fillBucket (n : Nat) (b : Block) : Block := b.modNet n (fun p => { p with tokens := b.rd (fNET_BCAST_DEPTH.at n) })

/-- An enabled port takes up PLCA or CSMA/CD; a node that is not the coordinator waits for a BEACON (R444, R445, R447). -/
def takeMac (n : Nat) (b : Block) : Block :=
  let b := (b.wrB (fNET_STAT_MAC_MODE.at n) (!usesPlca b n)).wrB (fNET_STAT_COORD.at n) (isCoord b n)
  setLink n (isCoord b n || !usesPlca b n) b

/-- EN rises (R444, R445, R447, R451). -/
def netRises (n : Nat) (b : Block) : Block := takeMac n ((fillBucket n b).modNet n (fun p => { p with tries := 0 }))

/-- EN falls (R462): the frames in the receive buffer and the transmit queue are discarded without counting. A NET_CONFIG that
listens is cancelled. -/
def netFalls (n : Nat) (b : Block) : Block :=
  let b := b.wr (fNET_CTRL_EN.at n) 0
  let b := match (b.netPort n).listen with
    | some (tok, stamp, _) => b.finish tok stamp false cancelled
    | none => b
  let b := b.modNet n (fun p => { p with rx := [], tx := [], tries := 0, listen := none })
  setLink n false ((b.wr (fNET_STAT_MAC_MODE.at n) 0).wr (fNET_STAT_COORD.at n) 0)

/-- What a fallback switch does to the network (R462). -/
def netFallback (b : Block) : Block :=
  forN 2 (fun n b => if b.flag (fNET_CTRL_EN.at n) then netFalls n b else b) b

end Sys2Proof.Machine
end

