-- ==== Sys2Proof/WellFormed.lean ====
section
/-! DEFINITION. Which commands name units the part has: lanes, cores, channels, ports, pins and voices within their number,
part-words of fewer than four bytes, and the crossing time of R376. A command that names another unit cannot occur. -/

namespace Sys2Proof

/-- Whether a command's operands name units the part has. -/
def Instr.wf : Instr → Bool
  | .sampleBoundary => true
  | .slotStart i0 => decide (i0 < 16)
  | .slotComplete i0 => decide (i0 < 16)
  | .tdmFrameStart => true
  | .retiringBanksReturn i0 => decide (i0 < 128)
  | .write _ _ p => decide (p < 4)
  | .read _ _ _ => true
  | .readStatus _ => true
  | .readId _ => true
  | .portReset => true
  | .badOpcode _ => true
  | .hcsnRise => true
  | .writeRetire => true
  | .i2cWrite _ _ _ p => decide (p < 4)
  | .i2cRead _ _ _ => true
  | .registerWrite _ _ => true
  | .lpddrWindowAccess _ _ => true
  | .slateWindowWrite _ _ _ => true
  | .mailboxWrite _ _ => true
  | .hifDoorbellIn _ => true
  | .hifDoorbellOut _ => true
  | .commandTake => true
  | .dueCommandEffect => true
  | .ping _ => true
  | .getInfo _ => true
  | .setMode _ => true
  | .modeChange => true
  | .postEvents _ => true
  | .grant _ => true
  | .rollcallQuery _ => true
  | .reset _ => true
  | .enableWrite _ _ => true
  | .rollcallCheck => true
  | .silenceVoices _ => true
  | .clearEvents _ => true
  | .stopBdsp _ => true
  | .stopStreams _ => true
  | .muteOutputs _ => true
  | .cancelCommands _ => true
  | .stopTbld _ => true
  | .proctorRestart _ => true
  | .abortDone => true
  | .bootDone => true
  | .setTuning _ => true
  | .setTuningTable _ => true
  | .setNoiseSeed _ => true
  | .voiceBeatOriginHi _ => true
  | .modWrite _ => true
  | .modWriteNote _ => true
  | .setHparam _ => true
  | .setTempo _ => true
  | .setGlobalLfo _ => true
  | .setSmooth _ => true
  | .noteOn _ => true
  | .voiceArm i0 => decide (i0 < 1024)
  | .handOff i0 => decide (i0 < 1024)
  | .noteOff _ => true
  | .polyPressure _ => true
  | .noteBend _ => true
  | .noteCtrl _ => true
  | .controller _ => true
  | .channelPressure _ => true
  | .pitchBend _ => true
  | .modWriteRecord _ => true
  | .cancel _ => true
  | .allNotesOff _ => true
  | .allSoundOff _ => true
  | .work _ => true
  | .rollDispatch => true
  | .handlerComplete f => decide (f.core < 8)
  | .evtcoreHang i0 => decide (i0 < 8)
  | .bellTick => true
  | .producerAdmit => true
  | .patchWrite _ => true
  | .patchLoad _ => true
  | .classSet _ => true
  | .classEnable _ => true
  | .ruleWrite _ => true
  | .setReserve _ => true
  | .patchSwap _ => true
  | .setSched _ => true
  | .setTrace _ => true
  | .getSchedStat _ => true
  | .tableDefine _ => true
  | .tableBuild _ => true
  | .buildStart => true
  | .buildComplete => true
  | .tableCommit _ => true
  | .tableFree _ => true
  | .tableStatus _ => true
  | .librarySet _ => true
  | .libraryLoad _ => true
  | .libraryLoadDone _ => true
  | .streamConfig _ => true
  | .streamEnable _ => true
  | .sampleMapBegin _ => true
  | .sampleMapZones _ => true
  | .sampleMapSeal _ => true
  | .sealCopyDone => true
  | .sampleMapFree _ => true
  | .streamFetchIssue => true
  | .streamChunkArrive _ => true
  | .mixSetOut _ => true
  | .mixSetLive _ => true
  | .mixSetReturn _ => true
  | .mixSetCtrl _ => true
  | .mixGetStat _ => true
  | .mixCksumRead => true
  | .rcCounterRead _ => true
  | .passStart i0 => decide (i0 < 4)
  | .bdspPassOverrun i0 => decide (i0 < 4)
  | .parallelWord i0 => decide (i0 < 4)
  | .jump i0 => decide (i0 < 4)
  | .call i0 => decide (i0 < 4)
  | .ret i0 => decide (i0 < 4)
  | .loop i0 => decide (i0 < 4)
  | .endloop i0 => decide (i0 < 4)
  | .ldi i0 => decide (i0 < 4)
  | .movr i0 => decide (i0 < 4)
  | .far i0 => decide (i0 < 4)
  | .farLoadComplete i0 => decide (i0 < 4)
  | .wait i0 => decide (i0 < 4)
  | .swi i0 => decide (i0 < 4)
  | .rti i0 => decide (i0 < 4)
  | .sha i0 => decide (i0 < 4)
  | .interruptTake i0 => decide (i0 < 4)
  | .bdspIrq i0 _ => decide (i0 < 4)
  | .bdspLoadBegin _ => true
  | .bdspLoadProg _ => true
  | .bdspLoadEnd _ => true
  | .bdspWriteData _ => true
  | .bdspReadData _ => true
  | .bdspRun _ => true
  | .bdspSetParam _ => true
  | .bdspSetLine _ => true
  | .bdspStatus _ => true
  | .slateAccess r o _ _ _ => decide (0 < r) && decide (r < 10) && decide (o < 0x2000000)
  | .atomicAdd r o _ _ => decide (0 < r) && decide (r < 10) && decide (o < 0x2000000)
  | .atomicSwap r o _ _ => decide (0 < r) && decide (r < 10) && decide (o < 0x2000000)
  | .eccWriteBack _ => true
  | .ownerChange i0 => decide (i0 < 64)
  | .slateHandover _ => true
  | .slatePin _ => true
  | .slateEscort _ => true
  | .escortTransfer _ => true
  | .slateSetCommons _ => true
  | .slateStatus _ => true
  | .bgSliceStart => true
  | .bgSliceRelease _ => true
  | .fuseLoadDone => true
  | .tideStart => true
  | .tideWrap => true
  | .tideLoRead i0 => decide (i0 < 3)
  | .tideBoundLoRead i0 => decide (i0 < 3)
  | .tideCmp i0 => decide (i0 < 16)
  | .pulseEnd i0 => decide (i0 < 8)
  | .compareWrite _ _ => true
  | .compareWriteArrive t => decide (2 ≤ t) && decide (t ≤ 3)
  | .tioPinEdge i0 _ => decide (i0 < 8)
  | .tideCap i0 => decide (i0 < 8)
  | .tideCapLoRead i0 i1 => decide (i0 < 8) && decide (i1 < 3)
  | .bellCfg _ => true
  | .debugHalt => true
  | .tideGet _ => true
  | .tideArm _ => true
  | .tideSetPost _ => true
  | .tideSetCapture _ => true
  | .tioSet _ => true
  | .bellSet _ => true
  | .sourceProven i0 => decide (i0 < 4)
  | .activityDetectorTrip i0 => decide (i0 < 4)
  | .monitorWindow i0 i1 i2 => decide (i0 < 4096) && decide (i1 < 4096) && decide (i2 < 4096)
  | .pllHoldover i0 => decide (i0 < 3)
  | .pllUnlock i0 => decide (i0 < 3)
  | .pllLock i0 => decide (i0 < 3)
  | .clkForcedSwitch i0 => decide (i0 < 3)
  | .ircFail => true
  | .cprIrcTrim _ => true
  | .cprClkCfg _ => true
  | .clockSetRef _ => true
  | .clockRestore _ => true
  | .clockStatus _ => true
  | .memConfig _ => true
  | .serCharacter i0 _ => decide (i0 < 5)
  | .serTxCharacter i0 => decide (i0 < 5)
  | .serTxdata i0 _ => decide (i0 < 5)
  | .serRxdata i0 => decide (i0 < 5)
  | .midiMessage i0 => decide (i0 < 4)
  | .senseTimeout i0 => decide (i0 < 4)
  | .serConfig _ => true
  | .serSend _ => true
  | .usbReset _ => true
  | .usbSuspend => true
  | .usbOutFrame _ => true
  | .usbFeedback _ => true
  | .usbMidiPacket _ => true
  | .usbRateRequest _ => true
  | .endpointDiscovery => true
  | .dfuDetach => true
  | .dfuDownload _ => true
  | .dfuManifest => true
  | .usbEnable _ => true
  | .usbSendMidi _ => true
  | .serUsbStatus _ => true
  | .netFrameReceive i0 _ => decide (i0 < 2)
  | .netFrameRelease i0 => decide (i0 < 2)
  | .netFrameTransmit i0 _ => decide (i0 < 2)
  | .beacon i0 => decide (i0 < 2)
  | .plcaBeaconTimeout i0 => decide (i0 < 2)
  | .bucketToken i0 => decide (i0 < 2)
  | .ptpSync _ _ => true
  | .followUp _ => true
  | .announce _ => true
  | .delayResp _ => true
  | .delayReq => true
  | .ptpLost => true
  | .netRate _ => true
  | .netListenDone i0 _ => decide (i0 < 2)
  | .netConfig _ => true
  | .netFilterAdd _ => true
  | .netFilterRemove _ => true
  | .netSetHash _ => true
  | .netPtpConfig _ => true
  | .netSendEvents _ => true
  | .netStatus _ => true
  | .dacStrobe _ => true
  | .ldacnFall => true
  | .dacDisconnect i0 => decide (i0 < 8)
  | .dacRangeWrite i0 _ => decide (i0 < 8)
  | .dacRangeDone i0 => decide (i0 < 8)
  | .dacFault i0 => decide (i0 < 8)
  | .tdmFrameErr i0 => decide (i0 < 6)
  | .spdifLock i0 _ => decide (i0 < 262144)
  | .spdifUnlock => true
  | .asrcLock i0 => decide (i0 < 2)
  | .asrcUnlock i0 => decide (i0 < 2)
  | .dacConfig _ => true
  | .dacSetRange _ => true
  | .dacLoad _ => true
  | .dacSetGroup _ => true
  | .portConfig _ => true
  | .aoutStatus _ => true
  | .ferryLinkUp => true
  | .ferryLinkDown => true
  | .frameReplay => true
  | .event _ => true
  | .cksum _ _ => true
  | .status _ _ _ _ _ => true
  | .journal _ => true
  | .copy _ => true
  | .mirror _ => true
  | .abort _ => true
  | .land _ => true
  | .align _ => true
  | .alignHoldDone => true
  | .voiceSweep i0 => decide (i0 < 1024)
  | .crossingTimeout => true
  | .autoBoardRetry => true
  | .heartbeat => true
  | .peerHeartbeatLost => true
  | .fryFaultn => true
  | .outputGuard => true
  | .ferrySetRole _ => true
  | .ferryBoard _ => true
  | .ferryLand _ => true
  | .ferryHash _ => true
  | .ferryStatus _ => true
  | .domainPowerGood i0 => decide (i0 < 14)
  | .pdFault i0 => decide (i0 < 14)
  | .lpddrTrained => true
  | .lpddrTrainFail => true
  | .thermalWarn _ => true
  | .thermalTrip => true
  | .brownoutWarn => true
  | .wdogProctor => true
  | .watchdogSecondExpiry => true
  | .powerOnReset _ => true
  | .pornRelease _ _ => true
  | .systemReset _ => true
  | .powerSet _ => true
  | .powerStatus _ => true
  | .updateBegin _ => true
  | .updateData _ => true
  | .updateEnd _ => true
  | .flashOperationDone _ => true
  | .updateActivate _ => true
  | .updateCancel _ => true
  | .updateStatus _ => true
  | .bootWrite _ => true
  | .bootRun _ => true
  | .bistStart _ => true
  | .bistDone _ => true
  | .bistResult _ => true
  | .bgTestSet _ => true
  | .monConfig _ => true
  | .monRead _ => true
  | .laneLoad _ => true
  | .jtagChallenge _ => true
  | .jtagUnlock _ => true
  | .testSnap _ => true
  | .challenge => true
  | .response _ => true
  | .idcode => true
  | .bypass => true
  | .samplePreload => true
  | .extest => true
  | .eventPendingClear i0 _ => decide (i0 < 7)
  | .debugHaltRelease => true
  | .systemResetRelease => true
  | .cprApllCfg _ => true
  | .cprPdOpt _ => true
  | .lineTapArrive i0 i1 i2 => decide (i0 < 4) && decide (i1 < 8) && decide (i2 < 2)
  | .tdmInputSample i0 i1 _ => decide (i0 < 2) && decide (i1 < 16)
  | .tdmSlaveFs i0 => decide (i0 < 4)
  | .spdifSubframe i0 _ _ => decide (i0 < 2)
  | .usbSetConfiguration => true
  | .usbSetInterface i a => decide (i < 256) && decide (a < 256)
  | .usbResume => true
  | .usbSofTimeout => true
  | .usbInPacket => true
  | .ferryHashDone => true

end Sys2Proof
end

