-- ==== Sys2Proof/Machine/Tide.lean ====
section
/-! DEFINITION. The Tide, its compares, pins, captures and bell (10 R367 to R392). What a match does to DAC groups and to
the event island stands in Machine/Compare.lean. -/

namespace Sys2Proof.Machine

/-- TIDE_START (R367, R368, R545): with the APLL locked and the count standing, the Tide counts from the value it holds and
the bell counter starts at 0 (R386). -/
def tideStart (b : Block) : Block :=
  if bit (b.rd fCPR_CLK_STAT_LOCK) 2 && b.on dCORE && !b.flag fTIDE_STAT_RUNNING then
    let b := { b with tide := { b.tide with bellFrom := b.now } }
    ((b.wr fTIDE_STAT_RUNNING 1).wr fTIDE_STAT_FAMILY (b.rd fCPR_APLL_CFG_FAMILY))
  else b

/-- TIDE_WRAP (R373): on the tick after 0xFFFF_FFFF_FFFF the count reads 0 and the epoch advances. -/
def tideWrap (b : Block) : Block :=
  if b.tideRuns then
    { b with tide := { b.tide with count := 0, epoch := b.tide.epoch + 1 } }.raise evTIDE_WRAP
  else b

/-- One Tide tick in which nothing else is commanded: what a step does on an empty queue. -/
def tick (b : Block) : Block := if b.tideRuns then b.advanceTo ((b.now + 1) % tideMod) else b

/-- Changes what one requester has latched. -/
def Block.setLatch (b : Block) (req : Nat) (f : Latch → Latch) : Block :=
  { b with tide := { b.tide with latch := b.tide.latch.modify req f } }

/-- What one requester has latched. -/
def Block.latch (b : Block) (req : Nat) : Latch := nth Latch.reset b.tide.latch req

/-- A read of TIDE_LO: bits 31:0, latching the rest and the epoch for the requester (R371). -/
def readTideLo (req : Nat) (b : Block) : Nat × Block :=
  (b.now % 2 ^ 32, b.setLatch req (fun l => { l with hi := b.now / 2 ^ 32, epoch := b.tide.epoch.toNat }))

/-- A read of TIDE_BOUND_LO, latching TIDE_BOUND_HI for the requester (R372, R389). -/
def readBoundLo (req : Nat) (b : Block) : Nat × Block :=
  (b.lastBound % 2 ^ 32, b.setLatch req (fun l => { l with boundHi := b.lastBound / 2 ^ 32 }))

/-- A read of TIDE_CAPn_LO: latches TIDE_CAPn_HI for the requester and clears NEW and OVR in the live register; a capture of the same
tick sets NEW again (R385). -/
def readCapLo (n req : Nat) (b : Block) : Nat × Block :=
  let hi := b.word (rTIDE_CAP_HI + 0x10 * n)
  let again := (nth CapState.reset b.tide.caps n).landed == some b.now
  let b' := b.setLatch req (fun l => { l with capHi := l.capHi.set n hi })
  (b.word (rTIDE_CAP_LO + 0x10 * n), (b'.wrB (fTIDE_CAP_HI_NEW.at n) again).wr (fTIDE_CAP_HI_OVR.at n) 0)

/-- BELL_COUNT (R386). -/
def bellCount (b : Block) : Nat :=
  min ((b.now + tideMod - b.tide.bellFrom) % tideMod) (b.rd fBELL_CFG_PERIOD_M1)

/-- A read by a requester puts the word on its port, least significant byte first (R38); the Proctor has no port. -/
def Block.driveWord (b : Block) (req v : Nat) : Block :=
  if req < 2 then { b with host := { b.host with out := toLE 4 v } } else b

def tideLoRead (req : Nat) (b : Block) : Block := let (v, b) := readTideLo req b; b.driveWord req v

def tideBoundLoRead (req : Nat) (b : Block) : Block := let (v, b) := readBoundLo req b; b.driveWord req v

def tideCapLoRead (n req : Nat) (b : Block) : Block := let (v, b) := readCapLo n req b; b.driveWord req v

/-! ### Pins -/

def Block.tioPin (b : Block) (m : Nat) : TioPin := nth TioPin.reset b.tide.pins m

/-- The level at a pin (R382, R383): driven from its latch in COMPARE_OUT mode, inverted by INVERT; else, and where an open-drain
driver leaves the pin high, as it stands. -/
def pinLevel (b : Block) (m : Nat) : Bool :=
  if b.rd (fTIO_CFG_MODE.at m) = 1 then
    let drive := b.flag (fTIO_CFG_LATCH.at m) != b.flag (fTIO_CFG_INVERT.at m)
    if b.flag (fTIO_CFG_OD.at m) && drive then (b.tioPin m).ext else drive
  else (b.tioPin m).ext

/-- What LEVEL reads: the pin level, with INVERT undone in COMPARE_OUT mode (R383). -/
def pinRead (b : Block) (m : Nat) : Bool :=
  if b.rd (fTIO_CFG_MODE.at m) = 1 then pinLevel b m != b.flag (fTIO_CFG_INVERT.at m) else pinLevel b m

def Block.setPin (b : Block) (m : Nat) (f : TioPin → TioPin) : Block :=
  { b with tide := { b.tide with pins := b.tide.pins.modify m f } }

/-- Capture channels that watch a pin whose level is now `level` (R384): a level other than the accepted one starts the
filter, the accepted level again ends it. A channel whose EN is 0 watches nothing. -/
def watchPin (m : Nat) (level : Bool) (b : Block) : Block :=
  { b with tide := { b.tide with
    caps := b.tide.caps.mapIdx (fun n c =>
      if b.rd (fTIDE_CAP_CFG_PIN.at n) = m && b.flag (fTIDE_CAP_CFG_EN.at n) then
        if level = c.level then { c with since := none }
        else if c.since.isSome then c else { c with since := some b.now }
      else c) } }

/-- Changes an output latch and lets the captures see the new level (R382, R384). -/
def Block.setTioLatch (b : Block) (m : Nat) (v : Bool) : Block :=
  let b := b.wrB (fTIO_CFG_LATCH.at m) v
  watchPin m (pinLevel b m) b

/-- What an action makes of a latch (R382): 1 SET, 2 CLEAR, 3 TOGGLE, 4 PULSE. -/
def actOn (v : Bool) (act : Nat) : Bool :=
  match act with
  | 1 => true
  | 2 => false
  | 3 => !v
  | 4 => true
  | _ => v

/-- Pulses of a pin that end by now end (R382). -/
def endPulses (m : Nat) (b : Block) : Block :=
  if (b.tioPin m).ends.any b.hasCome then
    (b.setPin m (fun p => { p with ends := p.ends.filter (fun t => !b.hasCome t), acts := none })).setTioLatch m false
  else b

/-- An action takes its place among those of its tick, by channel number. -/
def placeAct (a : Nat × Nat) : List (Nat × Nat) → List (Nat × Nat)
  | [] => [a]
  | x :: xs => if x.1 ≤ a.1 then x :: placeAct a xs else a :: x :: xs

/-- The pin action of a match (R382). A pulse that is to end by this tick ends before the tick's actions, and these apply in ascending
channel number, whatever the order in which the matches come. -/
def pinAction (ch : Nat) (b : Block) : Block :=
  let m := b.rd (fTIDE_CMP_CTRL_PIN.at ch)
  let act := b.rd (fTIDE_CMP_CTRL_PIN_ACT.at ch)
  let b := endPulses m b
  if act = 0 ∨ 4 < act then b
  else
    let was : PinTick := match (b.tioPin m).acts with
      | some t => if t.tick = b.now then t else { tick := b.now, base := b.flag (fTIO_CFG_LATCH.at m), acts := [] }
      | none => { tick := b.now, base := b.flag (fTIO_CFG_LATCH.at m), acts := [] }
    let t := { was with acts := placeAct (ch, act) was.acts }
    let stop := (b.now + b.rd (fTIDE_CMP_CTRL_PULSE_W.at ch)) % tideMod
    let b := b.setPin m (fun p => { p with acts := some t, ends := if act = 4 then p.ends ++ [stop] else p.ends })
    b.setTioLatch m (t.acts.foldl (fun v a => actOn v a.2) t.base)

/-- The earliest of some ticks ahead. -/
def nextOf (b : Block) (ts : List Nat) : Option Nat :=
  ts.foldl (fun m t =>
    match m with
    | none => some t
    | some u => if b.hasCome t || (!b.hasCome u && decide (b.ahead t < b.ahead u)) then some t else some u) none

/-- PULSE_END (R382): the count reaches the end of the pin's next pulse, and its latch becomes 0. -/
def pulseEnd (m : Nat) (b : Block) : Block :=
  match nextOf b (b.tioPin m).ends with
  | some t =>
    if b.tideRuns || b.hasCome t then endPulses m (if b.hasCome t then b else b.advanceTo t) else b
  | none => b

/-- TIO_PIN_EDGE (R384): the level driven from outside changes; a pin driven by the part follows its own latch. -/
def tioPinEdge (m : Nat) (level : Bool) (b : Block) : Block :=
  let b := b.setPin m (fun p => { p with ext := level })
  watchPin m (pinLevel b m) b

/-- TIDE_CAP (R384, R385): when the new level has been sampled FILT * 2^PRE ticks running, it is accepted; an edge of the
selected kind records the first tick of the new level, sets NEW, or OVR beside it, and raises TIDE_CAPn. -/
def tideCap (n : Nat) (b : Block) : Block :=
  let c := nth CapState.reset b.tide.caps n
  match c.since with
  | some t =>
    if b.flag (fTIDE_CAP_CFG_EN.at n) && b.tideRuns then
      let need := b.rd (fTIDE_CAP_CFG_FILT.at n) * 2 ^ b.rd (fTIDE_CAP_CFG_PRE.at n)
      let at_ := (t + (max need 1 - 1)) % tideMod
      let b := if b.hasCome at_ then b else b.advanceTo at_
      let rise := !c.level
      let e := b.rd (fTIDE_CAP_CFG_EDGE.at n)
      let takes := (rise && bit e 0) || (!rise && bit e 1)
      let b := { b with tide := { b.tide with
        caps := b.tide.caps.set n { level := rise, since := none, landed := if takes then some b.now else c.landed } } }
      if takes then
        let b := b.wrB (fTIDE_CAP_HI_OVR.at n) (b.flag (fTIDE_CAP_HI_OVR.at n) || b.flag (fTIDE_CAP_HI_NEW.at n))
        let b := ((b.wr (fTIDE_CAP_LO_STAMP_LO.at n) t).wr (fTIDE_CAP_HI_STAMP_HI.at n) (t / 2 ^ 32)).wrB
          (fTIDE_CAP_HI_RISE.at n) rise
        (b.wr (fTIDE_CAP_HI_NEW.at n) 1).raise (evTIDE_CAP n)
      else b
    else b
  | none => b

/-! ### Compare channels -/

/-- V of a compare channel (R374). -/
def cmpV (b : Block) (n : Nat) : Nat := b.rd (fTIDE_CMP_LO_V_LO.at n) + 2 ^ 32 * b.rd (fTIDE_CMP_HI_V_HI.at n)

def Block.setCmpV (b : Block) (n v : Nat) : Block :=
  (b.wr (fTIDE_CMP_LO_V_LO.at n) v).wr (fTIDE_CMP_HI_V_HI.at n) (v / 2 ^ 32)

/-- A write to a compare register leaves for its comparator (R376). -/
def sendCompare (addr value : Nat) (b : Block) : Block :=
  { b with tide := { b.tide with cmpWrites := b.tide.cmpWrites ++ [{ addr := addr, value := value, done := b.now }] } }

/-- A new bell period reaches the counter (R387): where it is at or below the counter, the bell ticks on the next tick. -/
def setBellPeriod (value : Nat) (b : Block) : Block :=
  let b := b.put rBELL_CFG value
  let per := b.rd fBELL_CFG_PERIOD_M1
  if per ≤ (b.now + tideMod - b.tide.bellFrom) % tideMod then
    { b with tide := { b.tide with bellFrom := (b.now + tideMod - per) % tideMod } }
  else b

/-- The words of LO, HI, CTRL and PER of a compare channel. -/
def cmpWords (n : Nat) (b : Block) : List Nat := (List.range 4).map (fun i => b.word (rTIDE_CMP_LO + 0x10 * n + 4 * i))

def setCmpWords (n : Nat) (ws : List Nat) (b : Block) : Block :=
  forN 4 (fun i b => b.setWord (rTIDE_CMP_LO + 0x10 * n + 4 * i) (nth 0 ws i)) b

/-- What channel n still uses in this tick, where a write has reached it in it (R376). -/
def cmpHeld (b : Block) (n : Nat) : Option CmpHold := b.tide.cmpHold.find? (fun h => h.chan == n && h.tick == b.now)

/-- A write has reached word i of channel n in this tick: what the channel used before it is kept for the tick. -/
def holdCompare (n i : Nat) (b : Block) : Block :=
  let h := (cmpHeld b n).getD { chan := n, tick := b.now, old := cmpWords n b, fresh := [] }
  let rest := b.tide.cmpHold.filter (fun k => k.tick == b.now && k.chan != n)
  { b with tide := { b.tide with cmpHold := rest ++ [{ h with fresh := h.fresh ++ [i] }] } }

/-- COMPARE_WRITE_ARRIVE (R376 to R378): the oldest write on its way reaches its comparator `ticks` ticks after it
completed; the comparator uses the new value from the following tick. -/
def compareWriteArrive (ticks : Nat) (b : Block) : Block :=
  match b.tide.cmpWrites with
  | [] => b
  | w :: ws =>
    let at_ := (w.done + ticks) % tideMod
    let b := { b with tide := { b.tide with cmpWrites := ws } }
    let b := if b.tideRuns && !b.hasCome at_ then b.advanceTo at_ else b
    (holdCompare ((w.addr - rTIDE_CMP_LO) / 0x10) (w.addr % 0x10 / 4) b).put w.addr w.value

/-- Whether an address is one of the compare registers (R376). -/
def isCompareReg (a : Nat) : Bool := decide (0x20100 ≤ a) && decide (a < 0x20200)

/-! ### Commands of the Tide range (R391, R392) -/

def mTideGet : Meaning := plain (fun _ b =>
  (ok (toLE 6 b.now ++ toLE 2 b.tide.epoch.toNat ++ toLE 6 b.lastBound ++ toLE 2 b.period), b))

/-- A pin action aimed at a pin in INPUT mode (R392). -/
def aimedAtInput (b : Block) (ctrl : Nat) : Bool :=
  bit ctrl 31 && bitsOf ctrl 10 8 != 0 && b.rd (fTIO_CFG_MODE.at (bitsOf ctrl 6 4)) == 0

/-- TIDE_ARM: one match at V (R379, R392). -/
def mTideArm : Meaning where
  chk p b :=
    let ch := leAt p 0 1
    let v := leAt p 4 6
    let ctrl := leAt p 12 4
    if 16 ≤ ch || !regWordOk (rTIDE_CMP_CTRL + 0x10 * ch) ctrl then some .badField
    else if bit ctrl 31 && (decide (b.ahead v < 4) || decide (2 ^ 47 ≤ b.ahead v)) then some .badField
    else if aimedAtInput b ctrl then some .pinModeConflict
    else none
  eff _ _ p b :=
    let ch := leAt p 0 1
    let b := ((b.setCmpV ch (leAt p 4 6)).put (rTIDE_CMP_PER + 0x10 * ch) (leAt p 16 4)).put
      (rTIDE_CMP_CTRL + 0x10 * ch) (leAt p 12 4)
    (ok (toLE 6 b.now ++ toLE 2 0), b)

/-- Whether a TYPE is listed (R174). -/
def typeListed (t : Nat) : Bool := (decide (1 ≤ t) && decide (t ≤ 12)) || t == 16

/-- TIDE_SET_POST: the codes and reserved bits of its record are those of R172 (R392). -/
def mTideSetPost : Meaning where
  chk p _ :=
    let flags := leAt p 5 1
    if 16 ≤ leAt p 0 1 || !typeListed (leAt p 4 1) || bit flags 3 || bit flags 7 then some .badField else none
  eff _ _ p b :=
    let ch := leAt p 0 1
    (ok [], forN 6 (fun i b => b.setWord (rTIDE_POST + 0x20 * ch + 4 * i) (leAt p (4 + 4 * i) 4)) b)

/-- A write of TIDE_CAP_CFGn: a channel that is enabled, or turned to another pin, takes up the level that the pin has (R384; DEDUCED,
notes/assumptions/47.md). -/
def writeCapCfg (n w : Nat) (b : Block) : Block :=
  let on := b.flag (fTIDE_CAP_CFG_EN.at n)
  let pin := b.rd (fTIDE_CAP_CFG_PIN.at n)
  let b := b.put (rTIDE_CAP_CFG + 0x10 * n) w
  if on && b.rd (fTIDE_CAP_CFG_PIN.at n) == pin then b
  else
    let level := pinLevel b (b.rd (fTIDE_CAP_CFG_PIN.at n))
    { b with tide := { b.tide with caps := b.tide.caps.modify n (fun c => { c with level := level, since := none }) } }

def mTideSetCapture : Meaning where
  chk p _ := if 8 ≤ leAt p 0 1 || !regWordOk (rTIDE_CAP_CFG + 0x10 * leAt p 0 1) (leAt p 4 4) then some .badField else none
  eff _ _ p b := (ok [], writeCapCfg (leAt p 0 1) (leAt p 4 4) b)

/-- An enabled channel has a pin action aimed at a pin (R392). -/
def pinAimedAt (b : Block) (m : Nat) : Bool :=
  (List.range 16).any (fun n => b.flag (fTIDE_CMP_CTRL_EN.at n) && b.flag (fTIDE_CMP_CTRL_PIN_ACT.at n) &&
    b.rd (fTIDE_CMP_CTRL_PIN.at n) == m)

/-- A write of TIO_CFGm: a write of LATCH sets the latch, and the captures see the level (R382, R383). -/
def storeTio (m v : Nat) (b : Block) : Block :=
  let b := (b.put (rTIO_CFG + 4 * m) v).setPin m (fun p => { p with acts := none })
  watchPin m (pinLevel b m) b

def mTioSet : Meaning where
  chk p b :=
    let m := leAt p 0 1
    let w := leAt p 4 4
    if 8 ≤ m || !regWordOk (rTIO_CFG + 4 * m) w then some .badField
    else if bitsOf w 1 0 = 0 ∧ pinAimedAt b m then some .pinModeConflict
    else none
  eff _ _ p b := (ok [], storeTio (leAt p 0 1) (leAt p 4 4) b)

def mBellSet : Meaning := plain (fun p b => (ok [], setBellPeriod (leAt p 0 2) b))

def execTideStart (s : State) := done tideStart s
def execTideWrap (s : State) := done tideWrap s
def execTideLoRead (req : Nat) (s : State) := doneIf (Instr.wf (.tideLoRead req)) (tideLoRead req) s
def execTideBoundLoRead (req : Nat) (s : State) := doneIf (Instr.wf (.tideBoundLoRead req)) (tideBoundLoRead req) s
def execPulseEnd (pin : Nat) (s : State) := doneIf (Instr.wf (.pulseEnd pin)) (pulseEnd pin) s
def execCompareWriteArrive (ticks : Nat) (s : State) := doneIf (Instr.wf (.compareWriteArrive ticks)) (compareWriteArrive ticks) s
def execTioPinEdge (pin : Nat) (level : Bool) (s : State) := doneIf (Instr.wf (.tioPinEdge pin level)) (tioPinEdge pin level) s
def execTideCap (ch : Nat) (s : State) := doneIf (Instr.wf (.tideCap ch)) (tideCap ch) s
def execTideCapLoRead (ch req : Nat) (s : State) := doneIf (Instr.wf (.tideCapLoRead ch req)) (tideCapLoRead ch req) s
def execTideGet (c : Cmd) (s : State) := done (command 0x0900 mTideGet c) s
def execTideArm (c : Cmd) (s : State) := done (command 0x0901 mTideArm c) s
def execTideSetPost (c : Cmd) (s : State) := done (command 0x0902 mTideSetPost c) s
def execTideSetCapture (c : Cmd) (s : State) := done (command 0x0903 mTideSetCapture c) s
def execTioSet (c : Cmd) (s : State) := done (command 0x0904 mTioSet c) s
def execBellSet (c : Cmd) (s : State) := done (command 0x0905 mBellSet c) s

end Sys2Proof.Machine
end

