-- ==== Sys2Proof/Machine/Clock.lean ====
section
/-! DEFINITION. Clock sources, PLLs, the clock monitor and fallback (11 R393 to R415). Sources are numbered 0 IRC, 1 XA, 2 XB,
3 MCLK_IN, 4 S/PDIF recovered clock; PLLs 0 APLL, 1 CPLL, 2 MPLL. -/

namespace Sys2Proof.Machine

/-- The source a reference code names (CPR_CLK_CFG, CPR_CLK_STAT). -/
def sourceOf (pll code : Nat) : Nat :=
  if pll = 0 then (match code with | 0 => 1 | 1 => 2 | 2 => 3 | 3 => 4 | _ => 0)
  else (match code with | 0 => 1 | 1 => 2 | _ => 0)

/-- The reference code of the IRC. -/
def ircCode (pll : Nat) : Nat := if pll = 0 then 4 else 3

/-- The reference CPR_CLK_CFG names for a PLL. -/
def cfgRef (b : Block) (pll : Nat) : Nat :=
  match pll with
  | 0 => b.rd fCPR_CLK_CFG_APLL_REF
  | 1 => b.rd fCPR_CLK_CFG_CPLL_REF
  | _ => b.rd fCPR_CLK_CFG_MPLL_REF

/-- The reference in use by a PLL. -/
def actRef (b : Block) (pll : Nat) : Nat :=
  match pll with
  | 0 => b.rd fCPR_CLK_STAT_APLL_ACT
  | 1 => b.rd fCPR_CLK_STAT_CPLL_ACT
  | _ => b.rd fCPR_CLK_STAT_MPLL_ACT

def Block.setActRef (b : Block) (pll code : Nat) : Block :=
  match pll with
  | 0 => b.wr fCPR_CLK_STAT_APLL_ACT code
  | 1 => b.wr fCPR_CLK_STAT_CPLL_ACT code
  | _ => b.wr fCPR_CLK_STAT_MPLL_ACT code

def Block.setCfgRef (b : Block) (pll code : Nat) : Block :=
  match pll with
  | 0 => b.wr fCPR_CLK_CFG_APLL_REF code
  | 1 => b.wr fCPR_CLK_CFG_CPLL_REF code
  | _ => b.wr fCPR_CLK_CFG_MPLL_REF code

/-- A source is proven (R394): its OK bit, or the S/PDIF receiver's lock. -/
def proven (b : Block) (src : Nat) : Bool :=
  if src = 4 then b.clk.spdifClock else bit (b.rd fCPR_CLK_STAT_OK) (3 - src)

def Block.setProven (b : Block) (src : Nat) (v : Bool) : Block :=
  if src = 4 then { b with clk := { b.clk with spdifClock := v } }
  else b.wr fCPR_CLK_STAT_OK (putBits (b.rd fCPR_CLK_STAT_OK) (3 - src) (3 - src) (b2n v))

/-- A source is enabled by CPR_CLK_CFG (R393). -/
def sourceOn (b : Block) (src : Nat) : Bool :=
  match src with
  | 0 => true
  | 1 => b.flag fCPR_CLK_CFG_XA_MODE
  | 2 => b.flag fCPR_CLK_CFG_XB_MODE
  | 3 => b.flag fCPR_CLK_CFG_MCLK_EN
  | _ => b.flag fSPDIF_IN_CFG_EN

def locked (b : Block) (pll : Nat) : Bool := bit (b.rd fCPR_CLK_STAT_LOCK) (2 - pll)

def Block.setLocked (b : Block) (pll : Nat) (v : Bool) : Block :=
  b.wr fCPR_CLK_STAT_LOCK (putBits (b.rd fCPR_CLK_STAT_LOCK) (2 - pll) (2 - pll) (b2n v))

def Block.setHold (b : Block) (pll : Nat) (v : Bool) : Block :=
  b.wr fCPR_CLK_STAT_HOLD (putBits (b.rd fCPR_CLK_STAT_HOLD) (2 - pll) (2 - pll) (b2n v))

/-- The frequency of MCLK_IN in Hz, by CPR_MCLK_CFG.FREQ (R393). -/
def mclkHz (code : Nat) : Nat :=
  match code with
  | 0 => 11289600 | 1 => 12288000 | 2 => 22579200 | 3 => 24576000 | 4 => 45158400 | _ => 49152000

/-- The nominal frequency of an APLL reference in Hz; the spec gives none for the S/PDIF recovered clock. -/
def refHz (b : Block) (code : Nat) : Option Nat :=
  match code with
  | 0 => some 24576000 | 1 => some 22579200 | 2 => some (mclkHz (b.rd fCPR_MCLK_CFG_FREQ)) | 3 => none | _ => some 48000000

/-- CPR_APLL_N follows the reference in use and the family, truncated to 24 fraction bits (R396, R604). -/
def retuneApll (b : Block) : Block :=
  let vco := if b.rd fCPR_APLL_CFG_FAMILY = 0 then 1966080000 else 1806336000
  match refHz b (actRef b 0) with
  | some f => b.setWord rCPR_APLL_N (vco * 2 ^ 24 / f)
  | none => let (v, b) := b.freshWord; b.setWord rCPR_APLL_N v

/-- A PLL's reference multiplexer switches; the PLL must lock again (R401). -/
def switchPll (pll code : Nat) (b : Block) : Block :=
  let b := (b.setActRef pll code).setLocked pll false
  if pll = 0 then retuneApll b else b

/-- A change of CPR_MCLK_CFG.FREQ moves the divider of an APLL that runs on MCLK_IN (R396). -/
def writeMclkCfg (v : Nat) (b : Block) : Block :=
  let n := b.put rCPR_MCLK_CFG v
  if sourceOf 0 (actRef b 0) = 3 ∧ n.rd fCPR_MCLK_CFG_FREQ ≠ b.rd fCPR_MCLK_CFG_FREQ then retuneApll n else n

/-- The PLLs whose reference in use is a source. -/
def pllsOn (b : Block) (src : Nat) : List Nat := [0, 1, 2].filter (fun p => sourceOf p (actRef b p) == src)

/-- The switch of R407: every PLL on the source goes to the IRC, the references before it are kept, FALLBACK is set,
FB_CAUSE records the source, and the network ports are disabled (R462). A switch back that was under way does not end FALLBACK. -/
def fallback (src : Nat) (b : Block) : Block :=
  let ps := pllsOn b src
  let b := if b.flag fCPR_CLK_STAT_FALLBACK then b
    else { b with clk := { b.clk with before := some (actRef b 0, actRef b 1, actRef b 2) } }
  let b := forL ps (fun p b => switchPll p (ircCode p) b) b
  let b := netFallback { b with clk := { b.clk with
    fbWait := b.clk.fbWait ++ ps, fbHeld := b.clk.fbHeld.filter (· != src), clearing := [] } }
  (b.wr fCPR_CLK_STAT_FALLBACK 1).wr fCPR_CLK_STAT_FB_CAUSE src

/-- The USB PHY PLL has lost its crystal (R432): the function detaches, and a running stream is lost. -/
def usbLoses (src : Nat) (b : Block) : Block :=
  if b.flag fUSB_CTRL_EN && (if b.flag fUSB_CTRL_REF then src == 2 else src == 1) then
    let running := b.flag fUSB_STAT_ALT_OUT || b.flag fUSB_STAT_ALT_IN
    let b := (b.wr fUSB_CTRL_EN 0).wr fUSB_STAT_DETACHED_FB 1
    let b := (((b.wr fUSB_STAT_CONFIGURED 0).wr fUSB_STAT_ALT_OUT 0).wr fUSB_STAT_ALT_IN 0).wr fUSB_STAT_ALT_MIDI 0
    b.raiseIf running evUSB_AUDIO_SYNC_LOST
  else b

/-- A source fails (R406, R407): its event, its OK bit, its counter; a source in use brings the fallback, held while the IRC is
unproven (R408). -/
def sourceFail (src : Nat) (b : Block) : Block :=
  let b := if src = 1 then b.raise evXA_FAIL else if src = 2 then b.raise evXB_FAIL
    else if src = 4 then b.raiseIf (!(pllsOn b 4).isEmpty) evSPDIF_UNLOCK else b
  let b := usbLoses src (b.setProven src false)
  if (pllsOn b src).isEmpty || src = 0 then b
  else if proven b 0 then fallback src b
  else forL (pllsOn b src) (fun p b => b.setHold p true) { b with clk := { b.clk with
    fbHeld := b.clk.fbHeld ++ [src] } }

/-- The switches that waited for the IRC take place, of the sources that a PLL is on still (R408). -/
def heldFallbacks (b : Block) : Block :=
  forL b.clk.fbHeld (fun src b => if (pllsOn b src).isEmpty then b else fallback src b)
    { b with clk := { b.clk with fbHeld := [] } }

/-- A fallback holds a PLL on the IRC (R411). -/
def heldOnIrc (b : Block) (p : Nat) : Bool := b.flag fCPR_CLK_STAT_FALLBACK && actRef b p == ircCode p

/-- A reference named and proven comes into use where it is not in use yet and no fallback holds the PLL (R394, R411). -/
def takeRefs (b : Block) : Block :=
  forL [0, 1, 2] (fun p b =>
    if actRef b p ≠ cfgRef b p ∧ proven b (sourceOf p (cfgRef b p)) ∧ !heldOnIrc b p then switchPll p (cfgRef b p) b else b) b

/-- SOURCE_PROVEN (R394, R395, R408, R545): an enabled source's start counter completes. The IRC proven at power-up switches
CORE on, and lets a switch that waited for it take place. -/
def sourceProven (src : Nat) (b : Block) : Block :=
  if b.pwr.porn || !sourceOn b src || proven b src then b
  else
    let b := b.setProven src true
    let b :=
      if src = 0 then
        let b := if b.on dCORE || b.pwr.sysrst then b
          else { b with pwr := { b.pwr with rising := Nat.lor b.pwr.rising (2 ^ dCORE) } }
        heldFallbacks b
      else b
    takeRefs b

/-- IRC_FAIL (R412): the AON domain runs from the backup oscillator and the Proctor is held in reset. -/
def ircFail (b : Block) : Block :=
  let b := b.raise evIRC_FAIL
  let b := { b with clk := { b.clk with backupOsc := true } }.setProven 0 false
  (b.wr fHIF_STATUS_PROCTOR_RUN 0).wr fHIF_STATUS_BOOT_DONE 0

/-- ACTIVITY_DETECTOR_TRIP (R403, R412): the detector of a source trips, be the source enabled at the time or not. That its input
was proven or seen to oscillate before is the happening's own condition. -/
def activityTrip (src : Nat) (b : Block) : Block :=
  if b.pwr.porn then b
  else if src = 0 then ircFail b
  else sourceFail src b

/-- The accept range of a window count (R404): the nominal count plus and minus 2 %. -/
def windowRange (b : Block) (src : Nat) : Nat × Nat :=
  match src with
  | 1 => (514, 534)
  | 2 => (473, 491)
  | _ =>
    match b.rd fCPR_MCLK_CFG_FREQ with
    | 0 => (237, 245) | 1 => (257, 267) | 2 => (473, 491) | 3 => (514, 534) | 4 => (945, 982) | _ => (1028, 1069)

/-- One source's verdict at the end of a window (R404, R405). -/
def windowVerdict (src count : Nat) (b : Block) : Block :=
  let (lo, hi) := windowRange b src
  if bit (b.rd fCPR_MON_CFG_MON_EN) (src - 1) && proven b src && proven b 0 && (decide (count < lo) || decide (hi < count))
  then sourceFail src b else b

/-- MONITOR_WINDOW (R404, R405): the window's counts are kept; a window in which the IRC was unproven or a trim began gives no
verdict. -/
def monitorWindow (xa xb mclk : Nat) (b : Block) : Block :=
  if b.pwr.porn then b
  else
    let b := if sourceOn b 1 then b.wr fCPR_MON_COUNT0_XA xa else b
    let b := if sourceOn b 2 then b.wr fCPR_MON_COUNT0_XB xb else b
    let b := if sourceOn b 3 then b.wr fCPR_MON_COUNT1_MCLK mclk else b
    if b.clk.windowTainted || !proven b 0 then { b with clk := { b.clk with windowTainted := !proven b 0 } }
    else windowVerdict 3 mclk (windowVerdict 2 xb (windowVerdict 1 xa b))

/-- PLL_HOLDOVER (R397): a PLL's reference shows no edge for two periods, be the PLL locked or still locking. -/
def pllHoldover (pll : Nat) (b : Block) : Block := if b.pwr.porn then b else b.setHold pll true

/-- The commands that wait for a PLL end without its lock (R415). -/
def failWaiting (pll : Nat) (b : Block) : Block :=
  let out := b.clk.waiting.filter (fun w => w.2.2.contains pll)
  forL out (fun w b => b.finish w.1 w.2.1 false (failedWith .pllNotLocked []))
    { b with clk := { b.clk with waiting := b.clk.waiting.filter (fun w => !w.2.2.contains pll) } }

/-- The commands that wait for a PLL have its lock, and reply where it was the last (R415). -/
def servedWaiting (pll : Nat) (b : Block) : Block :=
  let left := b.clk.waiting.map (fun w => (w.1, w.2.1, w.2.2.filter (· != pll)))
  forL (left.filter (fun w => w.2.2.isEmpty)) (fun w b => b.finish w.1 w.2.1 false (ok []))
    { b with clk := { b.clk with waiting := left.filter (fun w => !w.2.2.isEmpty) } }

/-- FALLBACK clears, and the references before it are forgotten (R411). -/
def endFallback (b : Block) : Block :=
  ({ b with clk := { b.clk with before := none } }.wr fCPR_CLK_STAT_FALLBACK 0).wr fCPR_CLK_STAT_FB_CAUSE 0

/-- PLL_UNLOCK (R397, R415): a holdover beyond 500 us, or a PLL not locked within twice its lock time. A fallback switch raises
no UNLOCK event (R407). -/
def pllUnlock (pll : Nat) (b : Block) : Block :=
  let held := bit (b.rd fCPR_CLK_STAT_HOLD) (2 - pll)
  let b := if held && !b.clk.fbWait.contains pll then (b.setLocked pll false).raise (evPLL_UNLOCK pll) else b
  failWaiting pll b

/-- CORE leaves reset when it is powered, its fuses are loaded and the CPLL is locked (R545): the Proctor runs the boot ROM,
the port accepts, MODE reads BOOT, FRY_FAULTN is let go (R495); with BOOTSEL 1 the ROM waits for the host (R546). -/
def coreStart (b : Block) : Block :=
  if b.on dCORE && locked b 1 && b.pwr.fusesLoaded && !b.pwr.porn && !b.pwr.sysrst && !b.host.ready && !b.clk.backupOsc then
    let b := (b.wr fHIF_STATUS_PROCTOR_RUN 1).wr fHIF_STATUS_MODE mBOOT
    let b := { b with host := { b.host with ready := true }, proc := { b.proc with nmi := [] },
                      pwr := { b.pwr with wdog := 0 }, fry := { b.fry with pulls := false } }
    b.wr fCPR_BOOT_STAT_ROM_STATE (if b.flag fCPR_BOOT_STAT_BOOTSEL then 1 else 0)
  else b

/-- PLL_LOCK (R396, R407, R411, R415, R369): the PLL is locked and leaves holdover. The last switched PLL raises
FALLBACK_ACTIVE, and asks for SAFE with FAIL_SAFE at 1; the last PLL a command waits for brings its reply; a switch back from
fallback clears FALLBACK; the Tide held by a change of family resumes. -/
def pllLock (pll : Nat) (b : Block) : Block :=
  if b.pwr.porn || locked b pll || !proven b (sourceOf pll (actRef b pll)) || !b.on dCORE then b
  else
    let b := (b.setLocked pll true).setHold pll false
    let fb := b.clk.fbWait.contains pll
    let rest := b.clk.fbWait.filter (· != pll)
    let b := { b with clk := { b.clk with fbWait := rest } }
    let b := if fb && rest.isEmpty then
        let b := b.raise evFALLBACK_ACTIVE
        if b.flag fCPR_CLK_CFG_FAIL_SAFE then { b with pwr := { b.pwr with safeAsked := true } } else b
      else b
    let b := match b.clk.clearing with
      | [] => b
      | ps =>
        let left := ps.filter (· != pll)
        let b := { b with clk := { b.clk with clearing := left } }
        if left.isEmpty then endFallback b else b
    let b := servedWaiting pll b
    let b := if pll = 0 && b.clk.tideHeld then
        ({ b with clk := { b.clk with tideHeld := false } }.wr fTIDE_STAT_RUNNING 1).wr fTIDE_STAT_FAMILY
          (b.rd fCPR_APLL_CFG_FAMILY)
      else b
    coreStart b

/-- CLK_FORCED_SWITCH (R402). -/
def clkForcedSwitch (_pll : Nat) (b : Block) : Block := if b.pwr.porn then b else b.raise evCLK_FORCED_SWITCH

/-- A write of CPR_IRC_TRIM (R395): ignored in fallback; else the IRC is unproven until its counter completes. -/
def writeIrcTrim (v : Nat) (b : Block) : Block :=
  if b.flag fCPR_CLK_STAT_FALLBACK then b
  else
    let b := (b.put rCPR_IRC_TRIM v).setProven 0 false
    { b with clk := { b.clk with windowTainted := true } }

/-- Every PLL on the IRC is named a proven source (R411); the IRC itself is one while it is proven. -/
def namesProven (b : Block) : Bool :=
  [0, 1, 2].all (fun p => actRef b p != ircCode p || proven b (sourceOf p (cfgRef b p)))

/-- The switch back from fallback at a boundary (R411): every PLL on the IRC takes the reference named; FALLBACK clears when they
are locked. While a source named is not proven the switch is held (R394). -/
def restoreRefs (b : Block) : Block :=
  if !namesProven b then b
  else
    let ps := [0, 1, 2].filter (fun p => actRef b p == ircCode p && actRef b p != cfgRef b p)
    let b := forL ps (fun p b => switchPll p (cfgRef b p) b) b
    let b := { b with clk := { b.clk with restoreAtBound := false, clearing := ps } }
    if ps.isEmpty then endFallback b else b

/-- A write of CPR_CLK_CFG (R394, R411, R413): sources switched off are proven no longer; references proven come into use; in
fallback it asks for the switch back, which `restoreRefs` holds while a source named is not proven. -/
def writeClkCfg (v : Nat) (b : Block) : Block :=
  let b := b.put rCPR_CLK_CFG v
  let b := forL [1, 2, 3] (fun s b => if sourceOn b s then b else b.setProven s false) b
  let b := takeRefs b
  if b.flag fCPR_CLK_STAT_FALLBACK then { b with clk := { b.clk with restoreAtBound := true } } else b

/-- A write of CPR_APLL_CFG (R369, R396): a change of family relocks the APLL, and the Tide holds its count. -/
def writeApllCfg (v : Nat) (b : Block) : Block :=
  let old := b.rd fCPR_APLL_CFG_FAMILY
  let b := b.put rCPR_APLL_CFG v
  if b.rd fCPR_APLL_CFG_FAMILY = old then b
  else
    let b := { b with clk := { b.clk with tideHeld := b.clk.tideHeld || b.flag fTIDE_STAT_RUNNING } }
    (retuneApll (b.setLocked 0 false)).wr fTIDE_STAT_RUNNING 0

/-! ### Commands (R414, R415, R398) -/

/-- The PLLs not locked, for which a command waits; none: it replies at once. -/
def replyWhenLocked (tok : Tok) (stamp : Nat) (b : Block) : End × Block :=
  let ps := [0, 1, 2].filter (fun p => !locked b p)
  if ps.isEmpty then (ok [], b)
  else (.later, { b with clk := { b.clk with waiting := b.clk.waiting ++ [(tok, stamp, ps)] } })

def mClockSetRef : Meaning where
  chk p b :=
    let cfg := leAt p 0 4
    let refs := [bitsOf cfg 10 8, bitsOf cfg 13 12, bitsOf cfg 15 14]
    if !regWordOk rCPR_CLK_CFG cfg || !regWordOk rCPR_MCLK_CFG (leAt p 4 4) || decide (1 < leAt p 8 1) then some .badField
    else if (refs.zipIdx.all (fun r => proven b (sourceOf r.2 r.1))) then none
    else some .noAudioClock
  eff tok stamp p b :=
    let b := writeMclkCfg (leAt p 4 4) b
    let b := writeApllCfg (leAt p 8 1) b
    let b := writeClkCfg (leAt p 0 4) b
    let b := if b.clk.restoreAtBound then restoreRefs b else b
    replyWhenLocked tok stamp b

def mClockRestore : Meaning where
  chk _ b :=
    if !b.flag fCPR_CLK_STAT_FALLBACK then some .badField
    else match b.clk.before with
      | some (x, y, z) =>
        if proven b (sourceOf 0 x) && proven b (sourceOf 1 y) && proven b (sourceOf 2 z) then none else some .noAudioClock
      | none => some .badField
  eff tok stamp _ b :=
    match b.clk.before with
    | some (x, y, z) =>
      let b := ((b.setCfgRef 0 x).setCfgRef 1 y).setCfgRef 2 z
      replyWhenLocked tok stamp (restoreRefs { b with clk := { b.clk with restoreAtBound := true } })
    | none => (ok [], b)

def words4 (b : Block) (as : List Nat) : List Byte := as.flatMap (fun a => toLE 4 (b.word a))

def mClockStatus : Meaning := plain (fun _ b =>
  (ok (words4 b [rCPR_CLK_STAT, rCPR_APLL_N, rCPR_MON_COUNT0, rCPR_MON_COUNT1]), b))

def mMemConfig : Meaning where
  chk p b := if b.on dMEM then some .notInMode else if regWordOk rCPR_MEM_CFG (leAt p 0 4) then none else some .badField
  eff _ _ p b := (ok [], b.put rCPR_MEM_CFG (leAt p 0 4))

/-- The fitted LPDDR5 in bytes (R398): the SIZE taken at the latest switch-on of MEM. -/
def fittedBytes (b : Block) : Nat :=
  match b.clk.memSize with
  | 1 => 2 ^ 30 | 2 => 2 * 2 ^ 30 | 3 => 4 * 2 ^ 30 | 4 => 6 * 2 ^ 30 | 5 => 8 * 2 ^ 30 | _ => 0

def execSourceProven (source : Nat) (s : State) := doneIf (Instr.wf (.sourceProven source)) (sourceProven source) s
def execActivityDetectorTrip (source : Nat) (s : State) :=
  doneIf (Instr.wf (.activityDetectorTrip source)) (activityTrip source) s
def execMonitorWindow (xa xb mclk : Nat) (s : State) :=
  doneIf (Instr.wf (.monitorWindow xa xb mclk)) (monitorWindow xa xb mclk) s
def execPllHoldover (pll : Nat) (s : State) := doneIf (Instr.wf (.pllHoldover pll)) (pllHoldover pll) s
def execPllUnlock (pll : Nat) (s : State) := doneIf (Instr.wf (.pllUnlock pll)) (pllUnlock pll) s
def execPllLock (pll : Nat) (s : State) := doneIf (Instr.wf (.pllLock pll)) (pllLock pll) s
def execClkForcedSwitch (pll : Nat) (s : State) := doneIf (Instr.wf (.clkForcedSwitch pll)) (clkForcedSwitch pll) s
def execIrcFail (s : State) := done (fun b => if b.pwr.porn then b else ircFail b) s
def execClockSetRef (c : Cmd) (s : State) := done (command 0x0A00 mClockSetRef c) s
def execClockRestore (c : Cmd) (s : State) := done (command 0x0A01 mClockRestore c) s
def execClockStatus (c : Cmd) (s : State) := done (command 0x0A02 mClockStatus c) s
def execMemConfig (c : Cmd) (s : State) := done (command 0x0A03 mMemConfig c) s

end Sys2Proof.Machine
end

