-- ==== Sys2Proof/Machine/Enable.lean ====
section
/-! DEFINITION. Roll call's queue (02 R70 to R73): how a check of an enable begins, waits, is restarted or cancelled, and
ends. What the checks look at stands in Machine/RollCall.lean. -/

namespace Sys2Proof.Machine

/-- The registers whose bit 31 is a roll-called enable (R170, R248, R301, R432, R465, R487, R497, R568). -/
def enableRegs : List Nat :=
  rUSB_CTRL :: rNET_PTP_CFG :: rSPDIF_OUT_CFG :: rSPDIF_IN_CFG :: rASRC_CFG :: rFERRY_CTRL :: rSTRM_CTRL ::
  ([0, 1].map (fun n => rNET_CTRL + 0x200 * n) ++ (List.range 8).map (fun n => rDAC_CFG + 0x10 * n) ++
   (List.range 4).map (fun p => rTDM_OUT_CFG + 0x10 * p) ++ [0, 1].map (fun i => rTDM_IN_CFG + 0x10 * i) ++
   (List.range 64).map (fun c => rCLASS_CFG + 0x20 * c) ++ (List.range 4).map (fun c => rBDSP_CTRL + 0x1000 * c) ++
   (List.range 24).map (fun m => rMON_CFG_LAT + 0x20 * m))

/-- An address names a register with a roll-called enable. -/
def isEnable (a : Nat) : Bool := enableRegs.contains a

/-- The enable of such a register reads 1. -/
def enabled (b : Block) (a : Nat) : Bool := bit (b.word a) 31

/-- Sets or clears the enable of a register. -/
def Block.setEnable (b : Block) (a : Nat) (v : Bool) : Block := b.setWord a (putBits (b.word a) 31 31 (b2n v))

/-- The checks that wait for their turn (R71). -/
def waitingChecks (b : Block) : Nat := (b.proc.checks.filter (fun c => !c.begun)).length

/-- The first check has its turn while the Proctor serves (R71). -/
def beginCheck (b : Block) : Block :=
  match b.proc.checks with
  | c :: rest => if b.serving then { b with proc := { b.proc with checks := { c with begun := true } :: rest } } else b
  | [] => b

/-- The next check begins, and BUSY and WAITING follow (R71). -/
def noteChecks (b : Block) : Block :=
  let b := beginCheck b
  (b.wrB fROLLCALL_REASON_BUSY (!b.proc.checks.isEmpty)).wr fROLLCALL_REASON_WAITING (waitingChecks b)

/-- Records a refused enable (R70). -/
def noteRefusal (a : Nat) (r : Reason) (b : Block) : Block :=
  let b := (b.wr fROLLCALL_REASON_REASON r.code).wr fROLLCALL_ADDR_ADDR a
  (b.wr fROLLCALL_REASON_REFUSALS (min 255 (b.rd fROLLCALL_REASON_REFUSALS + 1))).raise evROLLCALL_REFUSED

/-- A word that a command has written goes back, the enable of its register apart: no check has set that. -/
def undoWord (a w : Nat) (b : Block) : Block := b.setWord a (if isEnable a then putBits w 31 31 (b2n (enabled b a)) else w)

/-- A check ends with a refusal (R70, R73). -/
def refuseCheck (c : Check) (r : Reason) (b : Block) : Block :=
  let b := noteRefusal c.addr r (forL c.undo (fun w b => undoWord w.1 w.2 b) b)
  match c.tok with
  | some t => b.finish t c.stamp false (refusedWith r)
  | none => b

/-- An enable of 1 is written (R70, R71): a check begins unless the enable reads 1 or, where no command asks, its check waits or
runs already; one that finds 32 waiting is refused. R70 speaks of writes only: a command that asks while a check of its enable
waits or runs has a check of its own, which its reply needs (DESIGN CHOICE, notes/assumptions/42.md). -/
def startCheck (a : Nat) (tok : Option Tok) (stamp : Nat) (undo : List (Nat × Nat)) (b : Block) : Block :=
  let c : Check := { addr := a, tok := tok, stamp := stamp, undo := undo, restarts := 0, begun := false }
  if enabled b a then
    match tok with
    | some t => b.finish t stamp false (ok [])
    | none => b
  else if tok.isNone && b.proc.checks.any (fun k => k.addr == a) then b
  else if 32 ≤ waitingChecks b then refuseCheck c .busyBackpressure b
  else noteChecks { b with proc := { b.proc with checks := b.proc.checks ++ [c] } }

/-- Ends the checks that a test picks, as cancelled (R72). -/
def cancelChecks (pick : Check → Bool) (b : Block) : Block :=
  let gone := b.proc.checks.filter pick
  let b := noteChecks { b with proc := { b.proc with checks := b.proc.checks.filter (fun c => !pick c) } }
  forL gone (fun c b => match c.tok with
    | some t => b.finish t c.stamp false cancelled
    | none => b) b

/-- A write of 0 to an enable (R72): it takes effect at once, and a check that waits or runs for it is cancelled. -/
def clearEnable (a : Nat) (b : Block) : Block := cancelChecks (fun c => c.addr == a) (b.setEnable a false)

/-- The block of the address map that holds an address (R52): 64 KiB from its base; HIF and MBX share the first. -/
def blockOf (a : Nat) : Nat := a / 2 ^ 16

/-- A check of an address waits or runs. -/
def checking (b : Block) (a : Nat) : Bool := b.proc.checks.any (fun k => k.addr == a)

/-- A write to a block lands while a check of one of its enables runs (R72). -/
def restartCheck (a : Nat) (b : Block) : Block :=
  match b.proc.checks with
  | c :: rest =>
    if c.begun ∧ blockOf c.addr = blockOf a then
      if 4 ≤ c.restarts then
        refuseCheck c .busyBackpressure (noteChecks { b with proc := { b.proc with checks := rest } })
      else { b with proc := { b.proc with checks := { c with restarts := c.restarts + 1 } :: rest } }
    else b
  | [] => b

/-- A command sets an enable to 1: its check replies (R73). The words it has written go back where the check refuses. -/
def enableByCommand (a : Nat) (tok : Tok) (stamp : Nat) (old : Block) (words : List Nat) (b : Block) : End × Block :=
  (.later, startCheck a (some tok) stamp (words.map (fun w => (w, old.word w))) b)

end Sys2Proof.Machine
end

