-- ==== Sys2Proof/Machine/Dsp.lean ====
section
/-! DEFINITION. The transcendental numbers of the sound chapters, each formed in fixed point finer than the spec's bounds and
then left free within them (R84, R102, R136, R153, R224; notes/assumptions/2.md). -/

namespace Sys2Proof.Machine

/-- 2^80, the scale of the fixed-point numbers of this file. -/
def fxOne : Nat := 2 ^ 80

/-- floor(pi * 2^80). -/
def fxPi : Nat := 3797952473636338580787993

/-- floor(ln 2 * 2^80). -/
def fxLn2 : Nat := 837963523372001241319907

/-- The tail of the exponential series from its n-th term on. -/
def fxExpTail (x : Nat) : Nat → Nat → Nat → Nat
  | 0, _, _ => 0
  | k + 1, n, t => t + fxExpTail x k (n + 1) (t * x / fxOne / n)

/-- 2^(num/den) * 2^80 for 0 <= num/den <= 1. -/
def fxExp2 (num den : Nat) : Nat := fxExpTail (fxLn2 * num / den) 26 1 fxOne

/-- The sine series: alternating terms from t with x^2. -/
def fxSinTail (x2 : Nat) : Nat → Nat → Int → Int
  | 0, _, _ => 0
  | k + 1, n, t => t + fxSinTail x2 k (n + 2) (-(t * x2 / fxOne / ((n + 1) * (n + 2) : Nat)))

/-- sin(2 pi num/den) * 2^80. -/
def fxSin (num : Int) (den : Nat) : Int :=
  let m := 2 * (num % den).toNat
  let neg := decide (den ≤ m)
  let m := if neg then m - den else m
  let m := if 2 * m ≤ den then m else den - m
  let x := fxPi * m / den
  let v := fxSinTail (x * x / fxOne) 18 1 x
  if neg then -v else v

/-- cos(2 pi num/den) * 2^80. -/
def fxCos (num : Int) (den : Nat) : Int := fxSin (4 * num + den) (4 * den)

/-- n/d rounded to nearest, ties towards plus infinity. -/
def roundDiv (n : Int) (d : Nat) : Int := (2 * n + d) / (2 * d)

/-- A value that the spec bounds within an interval: the free value, clamped into it. -/
def within (tag : Nat) (args : List Int) (lo hi : Int) : Int := clamp lo hi (Config.approx tag args)

/-- round(kn/kd * 2^(en/ed)), within 0.01 cent of the exact value, and exact when the exponent is whole (R84). -/
def expRound (tag kn kd : Nat) (en : Int) (ed : Nat) : Int :=
  let o := en / ed
  let f := (en % ed).toNat
  let up := 2 ^ o.toNat
  let down := 2 ^ (-o).toNat
  if f = 0 then roundDiv (kn * up) (kd * down)
  else
    let n := kn * fxExp2 f ed * up
    let d := kd * fxOne * down
    within tag [kn, kd, en, ed] (roundDiv (n * 999994223790178) (d * 10 ^ 15)) (roundDiv (n * 1000005776243187) (d * 10 ^ 15))

/-- Entry j of the built-in SINE table, 2,048 entries of 32 bits: sin(2 pi j/2048) to within one code (R102). -/
def romSine (j : Nat) : Int :=
  let j := j % 2048
  if j = 0 ∨ j = 1024 then 0
  else if j = 512 then 2 ^ 31 - 1
  else if j = 1536 then -(2 ^ 31)
  else
    let e := fxSin j 2048 / 2 ^ 49
    within 1 [j] e (e + 1)

/-- Level 0 of the built-in TRI table (R102). -/
def triZero (j : Nat) : Int :=
  let j := j % 2048
  let v : Int := if j ≤ 512 then j * 2 ^ 22 else if j ≤ 1536 then 2 ^ 32 - j * 2 ^ 22 else j * 2 ^ 22 - 2 ^ 33
  clamp (-(2 ^ 31)) (2 ^ 31 - 1) v

/-- The harmonics kept at a level, in closed form: the odd harmonics h of the sampled triangle have the sine amplitude
8/2048^2 * sin(pi h/2) / sin(pi h/2048)^2 (R102, R224). -/
def triSum (level j : Nat) : Int :=
  (List.range (2 ^ (9 - level))).foldl (fun acc i =>
    let h : Nat := 2 * i + 1
    let s := fxSin h 4096
    let amp : Int := (8 * (2 ^ 240 : Nat) : Int) / (2048 * 2048 * s * s)
    let sgn : Int := if i % 2 = 0 then 1 else -1
    acc + sgn * amp * fxSin (h * j * 2 ^ level) 2048 / fxOne) (0 : Int)

/-- Entry j of level L of the built-in TRI table; levels above 0 within 2^-24 of full scale (R224). -/
def romTri (level j : Nat) : Int :=
  if level = 0 then triZero j
  else if 10 ≤ level then within 2 [10, j] (-128) 128
  else
    let e := triSum level j / 2 ^ 49
    clamp (-(2 ^ 31)) (2 ^ 31 - 1) (within 2 [level, j] (e - 128) (e + 129))

/-- A quarter-sine entry i of 1,024 intervals in coefficient format, to within one code (R153). -/
def romQuarter (i : Nat) : Int :=
  if i = 0 then 0
  else if 1024 ≤ i then 2 ^ 30
  else
    let e := fxSin i 4096 / 2 ^ 50
    within 3 [i] e (e + 1)

/-- The quarter-sine at an angle code a in [0, 2^31], 2^31 being a right angle, with linear interpolation; the result is at
2^51 (R153). -/
def quarterSin (a : Nat) : Int :=
  let i := a / 2 ^ 21
  let f : Nat := a % 2 ^ 21
  romQuarter i * 2 ^ 21 + (f : Int) * (romQuarter (i + 1) - romQuarter i)

/-- The modified Bessel series I0 at squared half-argument q, scaled 2^80. -/
def fxBessel (q : Nat) : Nat → Nat → Nat → Nat
  | 0, _, _ => 0
  | k + 1, n, t => t + fxBessel q k (n + 1) (t * q / fxOne / (n * n))

/-- An 8-tap windowed sinc before its normalisation, tap at distance t/256 frames (R97: Kaiser, beta 7, cut-off 0.45). -/
def sincRaw (t : Int) : Int :=
  let a := t.natAbs
  if 1024 ≤ a then 0
  else
    let q := fxOne * 49 * (1024 * 1024 - a * a) / (4 * 1024 * 1024)
    let w := fxBessel q 30 1 fxOne
    if a = 0 then w
    else fxSin (9 * a : Nat) 5120 * w / ((fxPi * 9 * a : Nat) / 2560 : Nat)

/-- Coefficient of tap i (0 to 7 for x-3 to x4) at a phase of 256, coefficient format, to within one code (R97). -/
def sincCoef (phase i : Nat) : Int :=
  let tap (k : Nat) : Int := sincRaw (((k : Int) - 3) * 256 - phase)
  let total := (List.range 8).foldl (fun s k => s + tap k) 0
  if total ≤ 0 then 0
  else
    let e := tap i * 2 ^ 30 / total
    within 4 [phase, i] e (e + 1)

/-- The interpolation kernels (R97) on taps x-3 to x4 with fraction f/65536; the result is the value times 2^49. -/
def interp (kind : Nat) (x : Int → Int) (f : Nat) : Int :=
  match kind with
  | 0 => x 0 * 2 ^ 49
  | 1 => (x 0 * 2 ^ 16 + f * (x 1 - x 0)) * 2 ^ 33
  | 2 =>
    let c1 := x 1 - x (-1)
    let c2 := 2 * x (-1) - 5 * x 0 + 4 * x 1 - x 2
    let c3 := x 2 - x (-1) + 3 * (x 0 - x 1)
    ((c3 * f + c2 * 2 ^ 16) * f + c1 * 2 ^ 32) * f + 2 * x 0 * 2 ^ 48
  | _ =>
    (List.range 8).foldl (fun s i => s + sincCoef (f / 256) i * x ((i : Int) - 3)) 0 * 2 ^ 19

/-- tan(pi * fc/fs) * 2^48 with fc in 2^-64 Hz: a code whose relative error lies within 2^-24 (R136), the interval's ends being
computed at 2^-80 and drawn in by more than the error of that computation. -/
def tanWithin (fc fs : Nat) : Int :=
  let s := fxSin fc (2 * fs * 2 ^ 64)
  let c := fxCos fc (2 * fs * 2 ^ 64)
  let e := s * 2 ^ 80 / (max c 1)
  let d := e / 2 ^ 24 - e / 2 ^ 48
  within 5 [fc, fs] (-((-(e - d)) / 2 ^ 32)) ((e + d) / 2 ^ 32)

end Sys2Proof.Machine
end

