-- ==== Sys2Proof/Machine/VoiceCore.lean ====
section
/-! DEFINITION. Voices, patches and their readers: what the oscillator, filter, envelope, LFO and matrix files share
(03 R79 to R92, 04 R118 to R133). Audio values are codes at 2^27, coefficients at 2^30 (R90, R123). -/

namespace Sys2Proof.Machine

/-! ### Access -/

def Block.voice (b : Block) (v : Nat) : Voice := smGet (fun _ => Voice.reset) b.voices v

def Block.setVoice (b : Block) (v : Nat) (x : Voice) : Block :=
  { b with voices := smSet (fun _ => Voice.reset) b.voices v x }

def Block.modVoice (b : Block) (v : Nat) (f : Voice → Voice) : Block := b.setVoice v (f (b.voice v))

def Block.lane (b : Block) (l : Nat) : Lane := nth Lane.reset b.lanes l

def Block.setLane (b : Block) (l : Nat) (x : Lane) : Block := { b with lanes := b.lanes.set l x }

def Voice.oscN (x : Voice) (n : Nat) : Osc := nth Osc.reset x.osc n

def Voice.setOsc (x : Voice) (n : Nat) (o : Osc) : Voice := { x with osc := x.osc.set n o }

/-- The bytes of a resident patch, 2,048 zero bytes where it is not resident (R210, R215). -/
def Block.patch (b : Block) (p : Nat) : List Byte :=
  match b.store.patches.lookup p with
  | some bs => bs
  | none => List.replicate 2048 0

/-- The output rate in Hz for a rate code (R66). -/
def fsOf (rate : Nat) : Nat :=
  match rate with
  | 0 => 44100 | 1 => 48000 | 2 => 88200 | 3 => 96000 | 4 => 176400 | _ => 192000

def Block.fs (b : Block) : Nat := fsOf b.pwr.rate

def audioMax : Int := 2 ^ 31 - 1

/-- Saturation to the audio format, [-16, 16) at 2^27 (R92). -/
def satAudio (x : Int) : Int := satS 32 x

/-! ### Patch fields -/

def pMode (p : List Byte) (n : Nat) : Nat := leAt p (n * 64) 1
def pFlags (p : List Byte) (n : Nat) : Nat := leAt p (n * 64 + 1) 1
def pWave (p : List Byte) (n : Nat) : Nat := leAt p (n * 64 + 2) 1
def pInterp (p : List Byte) (n : Nat) : Nat := leAt p (n * 64 + 3) 1
def pSyncSrc (p : List Byte) (n : Nat) : Nat := leAt p (n * 64 + 4) 1
def pPmSrc (p : List Byte) (n : Nat) : Nat := leAt p (n * 64 + 5) 1
def pRingSrc (p : List Byte) (n : Nat) : Nat := leAt p (n * 64 + 6) 1
def pTune (p : List Byte) (n : Nat) : Nat := leAt p (n * 64 + 7) 1
def pSource (p : List Byte) (n : Nat) : Nat := leAt p (n * 64 + 8) 2
def pInput (p : List Byte) (n : Nat) : Nat := leAt p (n * 64 + 10) 1
def pKeytrack (p : List Byte) (n : Nat) : Int := leAtS p (n * 64 + 0x3C) 4

/-- Byte i of matrix slot k (R127). -/
def pSlot (p : List Byte) (k i : Nat) : Nat := leAt p (0x500 + 8 * k + i) 1
def pAmount (p : List Byte) (k : Nat) : Int := leAtS p (0x500 + 8 * k + 4) 4

def oscModeOff := 0
def oscModeTable := 1
def oscModeSample := 2
def oscModeVa := 3
def oscModePm := 4
def oscModeNoise := 5
def oscModeInput := 6

/-- Reserved destinations (R90, R135, R152). -/
def destReserved (d : Nat) : Bool :=
  if d < 0x60 then decide (12 ≤ d % 24)
  else if d < 0x80 then decide (5 ≤ d % 16)
  else if d < 0xC8 then false
  else decide (0xD6 ≤ d) && decide (d < 0xE0)

/-- Sources that exist: 0 to 191 without the reserved ones (R123, R125). -/
def sourceOk (s : Nat) : Bool :=
  decide (s < 192) && !(decide (29 ≤ s) && decide (s ≤ 31)) && !(decide (69 ≤ s) && decide (s ≤ 71)) && decide (s < 184)

/-- Where the patch holds the BASE of a destination (R79, R134, R141, R145, R140, R122); the reserved ones of oscillators and
filters have none. -/
def baseOffset (d : Nat) : Option Nat :=
  if d < 0x80 ∧ destReserved d then none
  else if d < 0x60 then some (d / 24 * 64 + 0x0C + 4 * (d % 24))
  else if d < 0x80 then some (0x100 + (d - 0x60) / 16 * 0x40 + 8 + 4 * ((d - 0x60) % 16))
  else if d < 0xB0 then some (0x180 + (d - 0x80) / 8 * 0x40 + 4 + 4 * ((d - 0x80) % 8))
  else if d < 0xC8 then some (0x300 + (d - 0xB0) / 6 * 0x40 + 8 + 4 * ((d - 0xB0) % 6))
  else if d < 0xE0 then some (0x420 + 4 * (d - 0xC8))
  else some (0x480 + 4 * (d - 0xE0))

/-- START_OFFSET is the one unsigned destination (R90). -/
def isFrames (d : Nat) : Bool := decide (d < 0x60) && d % 24 == 11

/-- A value for a destination: START_OFFSET counts frames, the others are signed (R90). -/
def destValue (d w : Nat) : Int := if isFrames d then (w : Int) else sext 32 w

def patchBase (p : List Byte) (d : Nat) : Int :=
  match baseOffset d with
  | some o => if isFrames d then leAt p o 4 else leAtS p o 4
  | none => 0

/-- U, the full-scale unit of a destination's format (R130). -/
def destUnit (d : Nat) : Int :=
  if isFrames d then 2 ^ 20
  else if (decide (d < 0x60) && (d % 24 == 0 || d % 24 == 9)) || d == 0x60 || d == 0x70 then 3145728
  else if 0xE0 ≤ d then 2 ^ 27
  else 2 ^ 30

/-- Whether some non-empty slot targets a destination. -/
def targeted (p : List Byte) (d : Nat) : Bool := (List.range 32).any (fun k => pSlot p k 0 != 0xFF && pSlot p k 1 == d)

/-- Whether an LFO is live (R160). -/
def lfoLive (p : List Byte) (l : Nat) : Bool :=
  (List.range 32).any (fun k => pSlot p k 0 != 0xFF &&
    (pSlot p k 0 == 12 + l || pSlot p k 2 == 12 + l ||
      (decide (0xB0 + 6 * l ≤ pSlot p k 1) && decide (pSlot p k 1 < 0xB0 + 6 * l + 6))))

/-! ### Sources and the matrix -/

/-- A bank as latched at the boundary (R126). -/
def Block.bankL (b : Block) (k : Nat) : Bank := smGet (fun _ => Bank.reset) b.glob.banksL k

/-- BEAT_PHASE: the fraction of b (R149, R150), truncated (R604). -/
def beatPhase (b : Block) : Int := ((b.glob.beat % b.glob.tpb) * 2 ^ 27 / b.glob.tpb : Nat)

/-- The value of a matrix source for a voice (R123, R125, R126), given this render's envelope and LFO outputs. -/
def sourceValue (b : Block) (x : Voice) (envs lfos : List Int) (i : Nat) : Int :=
  if i < 4 then (x.oscN i).out
  else if i < 6 then nth 0 x.fltOut (i - 4)
  else if i < 12 then nth 0 envs (i - 6)
  else if i < 16 then nth 0 lfos (i - 12)
  else if i < 32 then
    match i with
    | 16 => x.lay.vel
    | 17 => if x.gate then 0 else x.relVel
    | 18 => ((x.lay.note : Int) - 64) * 2 ^ 21
    | 19 => nth 0 x.perNote 0
    | 20 => nth 0 x.perNote 1
    | 21 => nth 0 x.perNote 2
    | 22 => nth 0 x.perNote 3
    | 23 => if x.gate then 2 ^ 27 else 0
    | 24 => x.random
    | 25 => if x.lay.noteId % 2 = 0 then 2 ^ 27 else -(2 ^ 27)
    | 26 => ((min (x.renders * 2 ^ 11) (2 ^ 27) : Nat) : Int)
    | 27 => x.voiceOut
    | 28 => 2 ^ 27
    | _ => 0
  else if i < 64 then nth 0 x.macros (i - 32)
  else if i < 68 then (nth (GLfo.reset 0) b.glob.glfo (i - 64)).out
  else if i = 68 then beatPhase b
  else if i < 72 then 0
  else if i < 96 then
    let k := b.bankL x.lay.bank
    match i with
    | 72 => k.bend
    | 73 => k.press
    | 74 => nth 0 k.cc 1
    | 75 => nth 0 k.cc 2
    | 76 => nth 0 k.cc 4
    | 77 => nth 0 k.cc 11
    | 78 => nth 0 k.cc 64
    | 79 => nth 0 k.cc 74
    | _ => nth 0 k.cc (nth 0 b.glob.assign (i - 80))
  else if i < 128 then nth 0 b.glob.hparamL (i - 96)
  else if i < 160 then nth 0 b.glob.live (i - 128)
  else if i < 176 then nth 0 b.glob.follow (i - 160)
  else if i < 184 then nth 0 b.glob.ctl (i - 176)
  else 0

/-- A curve, its result at 2^81, kept exact until the product with AMOUNT is rounded (R129). DESIGN CHOICE,
notes/assumptions/47.md -/
def curve (c : Nat) (s : Int) : Int :=
  let k := clamp (-(2 ^ 27)) (2 ^ 27) s
  match c with
  | 0 => s * 2 ^ 54
  | 1 => (k + 2 ^ 27) * 2 ^ 53
  | 2 => (k.natAbs : Int) * 2 ^ 54
  | 3 => k * (k.natAbs : Int) * 2 ^ 27
  | 4 => k * k * k
  | _ => (2 ^ 27 - k) * 2 ^ 54

/-- The contribution of a slot whose source and VIA have values s and via, in the destination's format (R129). -/
def contribution (c : Nat) (s : Int) (via : Option Int) (amount unit : Int) : Int :=
  let t := curve c s
  let t := match via with
    | some v => satAudio (rnd 81 (t * v)) * 2 ^ 54
    | none => t
  rnd 111 (t * amount * unit)

/-- The matrix stage (R129, R131): the 256 destination values before their clamps, live base plus contributions. -/
def matrix (b : Block) (p : List Byte) (x : Voice) (envs lfos : List Int) : List Int :=
  (List.range 32).foldl (fun acc k =>
    if pSlot p k 0 = 0xFF then acc
    else
      let d := pSlot p k 1
      let v := pSlot p k 2
      let s := sourceValue b x envs lfos (pSlot p k 0)
      let via := if v = 0xFF then none else some (sourceValue b x envs lfos v)
      acc.modify d (fun y => y + contribution (pSlot p k 3) s via (pAmount p k) (destUnit d))) x.base

/-! ### Formats -/

def coef01 (x : Int) : Int := clamp 0 (2 ^ 30) x
def coef11 (x : Int) : Int := clamp (-(2 ^ 30)) (2 ^ 30) x
def coefPos (x : Int) : Int := clamp 0 (2 ^ 31 - 1) x
def coefAny (x : Int) : Int := satS 32 x
/-- A wrapped coefficient: its low 30 bits (R91). -/
def coefWrap (x : Int) : Nat := unsx 30 x

/-- A number at 2^-k of the next scale whose rounding the spec does not state: either neighbour (notes/assumptions/2.md). -/
def eitherWay (tag k : Nat) (x : Int) : Int := within tag [x, k] (flr k x) (-(flr k (-x)))

/-- N of a log-time destination value (R132): max(1, round(2^(20x - 14) * fs)). -/
def logTime (fs : Nat) (x : Int) : Nat :=
  (max 1 (expRound 132 fs 1 (20 * coef01 x - 14 * 2 ^ 30) (2 ^ 30))).toNat

/-- WARP on a 48-bit phase (R103), truncated to a whole 2^-48 cycle. DESIGN CHOICE, notes/assumptions/47.md -/
def warpPhase (w : Int) (t : Nat) : Nat :=
  let bw := (clamp (2 ^ 25) (63 * 2 ^ 25) (2 ^ 30 - w)).toNat
  if t < bw * 2 ^ 17 then t * 2 ^ 30 / bw
  else (2 ^ 47 + (t - bw * 2 ^ 17) * 2 ^ 30 / (2 ^ 31 - bw)) % 2 ^ 48

/-- The seed of a generator at arming (R105, R124, R148). -/
def seedOf (b : Block) (v id n : Nat) : Nat :=
  let s := Nat.xor (Nat.xor (Nat.xor (b.rd fVOICE_NOISE_SEED_SEED) (v * 0x9E3779B9 % 2 ^ 32)) (id * 0x10001 % 2 ^ 32)) (n + 1)
  if s = 0 then 1 else s

/-- g of R104: the generator's state as a signed word, shifted right by 4. -/
def noiseG (x : Nat) : Int := flr 4 (sext 32 x)

/-- An exact number n/d. -/
structure Q where
  n : Int
  d : Nat

def Q.add (a b : Q) : Q := ⟨a.n * b.d + b.n * a.d, a.d * b.d⟩
def Q.sub (a b : Q) : Q := ⟨a.n * b.d - b.n * a.d, a.d * b.d⟩
def Q.mul (a b : Q) : Q := ⟨a.n * b.n, a.d * b.d⟩
/-- To the audio format: rounded once, saturated (R92). -/
def Q.audio (a : Q) : Int := satAudio (roundDiv (a.n * 2 ^ 27) a.d)
def Q.ofInt (n : Int) : Q := ⟨n, 1⟩

/-- c(x, h) of R101: x and dt in 2^-48 cycles. -/
def blep (x dt : Nat) (h : Int) : Q :=
  if x < dt then ⟨-h * ((dt : Int) - x) ^ 2, 2 * dt ^ 2⟩
  else if 2 ^ 48 - dt < x then ⟨h * ((dt : Int) - (2 ^ 48 - x)) ^ 2, 2 * dt ^ 2⟩
  else ⟨0, 1⟩

/-- H(L), the highest harmonic of a level (R93). -/
def levelH (l : Nat) : Nat := 2 ^ (10 - l)

/-- The level a read takes: the smallest whose harmonics stay below Nyquist (R93). -/
def mipLevel (inc : Int) : Nat :=
  match (List.range 11).find? (fun l => levelH l * inc.natAbs < 2 ^ 47) with
  | some l => l
  | none => 10

/-- w of R94, at 2^-16. -/
def mipWeight (l : Nat) (inc : Int) : Nat := (levelH (l - 1) * inc.natAbs - 2 ^ 47) * 2 ^ 16 / 2 ^ 47

/-- A read at a 48-bit phase of one frame of a level, from an entry function at 2^31 (R96): index and 16-bit fraction, then
the kernel; the result at 2^80. -/
def readLevel (kind level : Nat) (entry : Nat → Int) (phase : Nat) : Int :=
  let n := 2 ^ (11 - level)
  let idx : Int := (phase / 2 ^ (37 + level) : Nat)
  let f := phase / 2 ^ (21 + level) % 2 ^ 16
  interp kind (fun i => entry ((idx + i) % (n : Nat)).toNat) f

/-- The mix of two levels (R94): the result at 2^96. -/
def readMip (blend : Bool) (inc : Int) (read : Nat → Int) : Int :=
  let l := mipLevel inc
  if blend && decide (0 < l) then
    let a := read (l - 1)
    a * 2 ^ 16 + mipWeight l inc * (read l - a)
  else read l * 2 ^ 16

end Sys2Proof.Machine
end

