-- ==== Sys2Proof/Machine/Slate.lean ====
section
/-! DEFINITION. Slate words and who may reach them: stored bytes with their check bits, owners, borrowed banks, and the events of
an access (09 R341 to R349, R352, R358). -/

namespace Sys2Proof.Machine

/-! ### Slate bytes -/

/-- The number of ones in the low n bits. -/
def ones (n x : Nat) : Nat := (List.range n).foldl (fun k i => k + x / 2 ^ i % 2) 0

/-- How the bits stored in a storage word differ from its codeword (R341, R348). -/
def Block.damage (b : Block) (w : Nat) : Nat := smGet (fun _ => 0) b.slate.hurt w

/-- What SEC-DED finds in a storage word (R348). Beyond two bits the code's answer is not stated and left free. -/
def eccOf (b : Block) (w : Nat) : Ecc :=
  let d := b.damage w
  match ones 72 d with
  | 0 => .clean
  | 1 => .single
  | 2 => .double
  | _ => if (Config.approx 348 [w, d]) % 2 = 0 then .single else .double

/-- The data of a storage word as a read returns it (R348): corrected for one bit, as stored for two, free beyond. -/
def wordRead (b : Block) (w : Nat) : Nat :=
  let v := ofLE (smRange (fun _ => 0) b.slate.mem (8 * w) 8)
  let d := b.damage w
  match ones 72 d with
  | 0 => v
  | 1 => v
  | 2 => Nat.xor v (d % 2 ^ 64)
  | _ => (Config.approx 349 [w, d]).toNat % 2 ^ 64

/-- A byte of slate at a byte offset, as a read returns it (R341). -/
def Block.slateByte (b : Block) (o : Nat) : Byte :=
  if b.damage (o / 8) = 0 then smGet (fun _ => 0) b.slate.mem o else BitVec.ofNat 8 (wordRead b (o / 8) / 2 ^ (8 * (o % 8)))

/-- n bytes of slate. -/
def Block.slateBytes (b : Block) (o n : Nat) : List Byte :=
  if b.slate.hurt.isEmpty then smRange (fun _ => 0) b.slate.mem o n else (List.range n).map (fun i => b.slateByte (o + i))

/-- Bits of a storage word flip (R348). -/
def hurtWord (o : Nat) (upset : BitVec 72) (b : Block) : Block :=
  if upset = 0 then b
  else { b with slate := { b.slate with
    hurt := smSet (fun _ => 0) b.slate.hurt (o / 8) (Nat.xor (b.damage (o / 8)) upset.toNat) } }

/-- A write that touches a storage word stores the check bits of the whole word: what it leaves keeps the data read (R348,
R349). -/
def rewriteWord (b : Block) (w : Nat) : Block :=
  { b with slate := { b.slate with
    mem := smWriteAll (fun _ => 0) b.slate.mem (8 * w) (toLE 8 (wordRead b w)), hurt := smErase b.slate.hurt w } }

/-- Stores bytes in slate; the wake journal logs the words touched in a bank that is copied (R508). -/
def Block.setSlate (b : Block) (o : Nat) (bs : List Byte) : Block :=
  let b := forL (b.slate.hurt.filter (fun e => decide (o < 8 * e.1 + 8) && decide (8 * e.1 < o + bs.length)))
    (fun e b => rewriteWord b e.1) b
  let b := { b with slate := { b.slate with mem := smWriteAll (fun _ => 0) b.slate.mem o bs } }
  if b.fry.journaling then
    forN ((o % 4 + bs.length + 3) / 4) (fun i b =>
      let w := o / 4 * 4 + 4 * i
      if b.fry.copyBanks.contains (w / 2 ^ 19) then logJournal (0x02000000 + w) (ofLE (b.slateBytes w 4)) b else b) b
  else b

/-! ### Owners and accesses

Requester codes (R344). -/

def rqPROCTOR := 1
def rqEVT := 2
def rqVOICE := 3
def rqTBLD := 4
def rqSTRM := 5
def rqBDSP (core : Nat) := 6 + core
def rqHOST := 10
def rqCOMMONS := 11
def rqDISABLED := 15

/-- The bank of a slate offset (R341). -/
def bankOf (off : Nat) : Nat := off / 2 ^ 19 % 64

def Block.owner (b : Block) (bank : Nat) : Nat := b.rd (fSLATE_OWNER_OWNER.at bank)

/-- The banks an owner holds, as a mask. -/
def Block.banksOf (b : Block) (own : Nat) : Nat :=
  (List.range 64).foldl (fun m k => if b.owner k = own then m + 2 ^ k else m) 0

/-- A requester may use a bank: its owner, or a commons member (R345, R352). -/
def slateMay (b : Block) (req bank : Nat) : Bool :=
  decide (1 ≤ req) && decide (req ≤ rqHOST) &&
  (b.owner bank == req || (b.owner bank == rqCOMMONS && bit (b.rd fSLATE_COMMONS_MEMBERS) req))

/-- A bank is borrowed by background test (R358). -/
def borrowed (b : Block) (bank : Nat) : Bool := b.flag fSLATE_STAT_BORROW_ACTIVE && b.rd fSLATE_STAT_BORROW_BANK == bank

/-- SLATE_OWNER_FAULT (R345). -/
def ownerFault (req off : Nat) (b : Block) : Block :=
  let b := if b.flag fSLATE_FAULT_ADDR_VALID then b
    else ((b.wr fSLATE_FAULT_ADDR_VALID 1).wr fSLATE_FAULT_ADDR_REQ req).wr fSLATE_FAULT_ADDR_OFFSET off
  b.raise evSLATE_OWNER_FAULT

/-- A recorded collision (R350); kind 0 write with write, 1 read with write. -/
def collision (kind off : Nat) (b : Block) : Block :=
  let b := if b.flag fSLATE_COLL_ADDR_VALID then b
    else ((b.wr fSLATE_COLL_ADDR_VALID 1).wr fSLATE_COLL_ADDR_KIND kind).wr fSLATE_COLL_ADDR_OFFSET (off / 8 * 8)
  (b.countUp fSLATE_COLL_COUNT_COUNT 1).raise evSLATE_COLLISION

/-- A stalled port-A access (R358): its event and count; the access then completes. -/
def borrowStall (b : Block) : Block := (b.countUp fSLATE_BORROW_STALLS_COUNT 1).raise evBIST_BORROW_STALL

/-- An ECC error found by a read (R348). -/
def slateEcc (uncorr : Bool) (off : Nat) (b : Block) : Block :=
  let b := if b.flag fSLATE_ECC_ADDR_VALID then b
    else ((b.wr fSLATE_ECC_ADDR_VALID 1).wrB fSLATE_ECC_ADDR_UNCORR uncorr).wr fSLATE_ECC_ADDR_OFFSET (off / 8 * 8)
  if uncorr then (b.countUp fSLATE_ECC_UNCORR_COUNT_COUNT 1).raise evSLATE_ECC_UNCORR
  else (b.countUp fSLATE_ECC_CORR_COUNT_COUNT 1).raise evSLATE_ECC_CORR

/-- The 64-bit storage word that holds an offset, as a read returns it (R341). -/
def slateWord (b : Block) (off : Nat) : Nat := ofLE (b.slateBytes (off / 8 * 8) 8)

/-- The storage word at an offset with one half replaced (R341). -/
def mergedWord (b : Block) (off v : Nat) : Nat := putBits (slateWord b off) (off / 4 % 2 * 32 + 31) (off / 4 % 2 * 32) v

/-- A read checks the word it reads (R348): a corrected one waits for its write-back. -/
def checkRead (off : Nat) (b : Block) : Block :=
  match eccOf b (off / 8) with
  | .clean => b
  | .single => slateEcc false off (if b.slate.writeBacks.any (fun w => w.1 == off / 8 * 8) then b
      else { b with slate := { b.slate with writeBacks := b.slate.writeBacks ++ [(off / 8 * 8, slateWord b off)] } })
  | .double => slateEcc true off b

/-- The read half of a 32-bit write checks its word (R349); the write itself stores the word anew. -/
def checkMerge (off : Nat) (b : Block) : Block :=
  match eccOf b (off / 8) with
  | .clean => b
  | .single => slateEcc false off b
  | .double => slateEcc true off b

/-- Bytes stored by port A: a waiting write-back of a word stored to is abandoned (R348). -/
def portAStore (off : Nat) (bs : List Byte) (b : Block) : Block :=
  let b := b.setSlate off bs
  { b with slate := { b.slate with
    writeBacks := b.slate.writeBacks.filter (fun w => w.1 + 8 ≤ off || off + bs.length ≤ w.1) } }

/-- A port-A access of a mechanism of the part reaches words of a bank (R345, R358): it may, with the stall of a borrowed
bank. -/
def portAEnter (req off : Nat) (b : Block) : Bool × Block :=
  if slateMay b req (bankOf off) then (true, if borrowed b (bankOf off) then borrowStall b else b)
  else (false, ownerFault req off b)

/-- n bytes of slate as a mechanism of the part reads them: 0 in a bank it may not use (R345). -/
def readAs (b : Block) (req o n : Nat) : List Byte :=
  if slateMay b req (bankOf o) then b.slateBytes o n else List.replicate n 0

/-- What port-A reads at these offsets do (R345, R348, R358): each word is checked, or its bank's owner reports the fault; where a
bank among them is borrowed, the first access waits for the release and the rest follow it. -/
def readCheck (req : Nat) (os : List Nat) (b : Block) : Block :=
  let ws := (os.map (· / 8)).eraseDups
  let b := if ws.any (fun w => slateMay b req (bankOf (8 * w)) && borrowed b (bankOf (8 * w))) then borrowStall b else b
  forL ws (fun w b => if slateMay b req (bankOf (8 * w)) then checkRead (8 * w) b else ownerFault req (8 * w) b) b

/-- A write of a mechanism of the part to slate as a requester (R345): not performed in a bank it may not use. -/
def slateStore (req off : Nat) (bs : List Byte) (b : Block) : Block :=
  let (may, b) := portAEnter req off b
  if may then portAStore off bs (if bs.length < 8 then checkMerge off b else b) else b

end Sys2Proof.Machine
end

