-- ==== Sys2Proof/Machine/Source.lean ====
section
/-! DEFINITION. What oscillators read: table generations in slate (06 R216 to R218, R230 to R234) and sample zones with their
heads, crossfade blocks and stream rings (06 R240 to R255). -/

namespace Sys2Proof.Machine

/-- n bytes of LPDDR5. -/
def Block.lpddrBytes (b : Block) (o n : Nat) : List Byte := smRange (fun _ => 0) b.slate.lpddr o n

/-! ### Tables -/

/-- The entry list i of a descriptor's bank list whose first word is at `base` (R257). -/
def descBank (b : Block) (base t i : Nat) : Nat :=
  bitsOf (b.word (base + 0x20 * t + 4 * (i / 4))) (8 * (i % 4) + 5) (8 * (i % 4))

/-- Stores a bank list in a descriptor. -/
def Block.setDescBanks (b : Block) (base t : Nat) (banks : List Nat) : Block :=
  forN 2 (fun w b => b.setWord (base + 0x20 * t + 4 * w)
    ((List.range 4).foldl (fun v i => v + nth 0 banks (4 * w + i) * 2 ^ (8 * i)) 0)) b

/-- Where entry j of frame i at a level of a table image in the banks given lies in slate (R217, R218). -/
def entryAt (banks : List Nat) (wide : Bool) (frames level i j : Nat) : Nat :=
  let n := 2 ^ (11 - level)
  let o := 256 + (if wide then 4 else 2) * (frames * (4096 - 2 * n) + i * n + j)
  nth 0 banks (o / 2 ^ 19) * 2 ^ 19 + o % 2 ^ 19

/-- Entry j of frame i at a level of a table image, as a lane reads it, at 2^31 (R96, R217). -/
def tableEntry (b : Block) (banks : List Nat) (wide : Bool) (frames level i j : Nat) : Int :=
  let w := if wide then 4 else 2
  let v := leAtS (readAs b rqVOICE (entryAt banks wide frames level i j) w) 0 w
  if wide then v else v * 2 ^ 16

/-- The frames that a kernel's taps reach (R97). -/
def tapsOf (kind : Nat) : List Int :=
  match kind with
  | 0 => [0]
  | 1 => [0, 1]
  | 2 => [-1, 0, 1, 2]
  | _ => [-3, -2, -1, 0, 1, 2, 3, 4]

/-- What a WAVETABLE read of one generation gives at 2^112: interpolated within frames, then frames mixed, then levels (R94
to R97). -/
def readTable (b : Block) (banks : List Nat) (wide : Bool) (frames kind : Nat) (blend : Bool) (inc pos : Int) (phase : Nat) :
    Int :=
  let x := pos * ((frames : Int) - 1)
  let i := (x / 2 ^ 30).toNat
  let f := x % 2 ^ 30 / 2 ^ 14
  readMip blend inc (fun l =>
    let one (k : Nat) := readLevel kind l (tableEntry b banks wide frames l k) phase
    let a := one i
    if i + 1 < frames then a * 2 ^ 16 + f * (one (i + 1) - a) else a * 2 ^ 16)

/-- The slate offsets that a WAVETABLE read of one generation touches (R94 to R97). -/
def tableReads (banks : List Nat) (wide : Bool) (frames kind : Nat) (blend : Bool) (inc pos : Int) (phase : Nat) : List Nat :=
  let i := (pos * ((frames : Int) - 1) / 2 ^ 30).toNat
  let l := mipLevel inc
  (if blend && decide (0 < l) then [l - 1, l] else [l]).flatMap (fun l =>
    (if i + 1 < frames then [i, i + 1] else [i]).flatMap (fun f =>
      (tapsOf kind).map (fun o =>
        entryAt banks wide frames l f ((((phase / 2 ^ (37 + l) : Nat) : Int) + o) % (2 ^ (11 - l) : Nat)).toNat)))

/-- The state of a table (R220): 0 UNDEFINED, 1 DEFINED, 2 COMMITTED. -/
def tableState (b : Block) (t : Nat) : Nat := b.rd (fTBL_DESC_W0_STATE.at t)

def tableX (b : Block) (t : Nat) : TableX := smGet (fun _ => TableX.reset) b.store.tables t

def Block.setTableX (b : Block) (t : Nat) (x : TableX) : Block :=
  { b with store := { b.store with tables := smSet (fun _ => TableX.reset) b.store.tables t x } }

/-- The committed bank list of a table. -/
def committedBanks (b : Block) (t : Nat) : List Nat :=
  (List.range (b.rd (fTBL_DESC_W1_NBANKS.at t))).map (descBank b rTBL_DESC_W23 t)

/-- The generation that a morph still reads beside the committed one, with r and M (R231). -/
def morphFrom (b : Block) (t : Nat) (morph : Option Nat) : Option (List Nat × Nat × Nat) :=
  match morph, (tableX b t).retire with
  | some r, some (old, _) =>
    let m := b.rd (fTBL_DESC_W0_MORPH_LEN.at t)
    if r < m then some (old, r, m) else none
  | _, _ => none

/-- The slate offsets that an oscillator's read of its table touches (R230, R231, R234). -/
def tableOffsets (b : Block) (t kind : Nat) (blend : Bool) (inc pos : Int) (phase : Nat) (morph : Option Nat) : List Nat :=
  if tableState b t ≠ 2 then []
  else
    let of (banks : List Nat) : List Nat :=
      tableReads banks (b.flag (fTBL_DESC_W0_WIDTH.at t)) (b.rd (fTBL_DESC_W0_FRAMES.at t)) kind blend inc pos phase
    of (committedBanks b t) ++ (match morphFrom b t morph with | some g => of g.1 | none => [])

/-- What an oscillator reads of its table, exact: 0 where the table is not COMMITTED (R234), the committed generation, or
both under a morph whose next render is the r-th (R231). -/
def tableValue (b : Block) (t kind : Nat) (blend : Bool) (inc pos : Int) (phase : Nat) (morph : Option Nat) : Q :=
  if tableState b t ≠ 2 then ⟨0, 1⟩
  else
    let wide := b.flag (fTBL_DESC_W0_WIDTH.at t)
    let frames := b.rd (fTBL_DESC_W0_FRAMES.at t)
    let new := readTable b (committedBanks b t) wide frames kind blend inc pos phase
    match morphFrom b t morph with
    | some (old, r, m) =>
      let o := readTable b old wide frames kind blend inc pos phase
      ⟨o * 2 ^ 16 + (((r + 1) * 2 ^ 16 / m : Nat) : Int) * (new - o), 2 ^ 128⟩
    | none => ⟨new, 2 ^ 112⟩

/-! ### Zones -/

def sampleMap (b : Block) (m : Nat) : SampleMap := smGet (fun _ => SampleMap.reset) b.store.maps m

def Block.setMap (b : Block) (m : Nat) (x : SampleMap) : Block :=
  { b with store := { b.store with maps := smSet (fun _ => SampleMap.reset) b.store.maps m x } }

/-- A map as voices see it: as the latest boundary found it (R23). -/
def seenMap (b : Block) (m : Nat) : SampleMap := smGet (fun _ => SampleMap.reset) b.store.seen.maps m

/-- A zone descriptor as voices see it, 40 bytes; zero where it has not been written. -/
def zoneOf (b : Block) (m z : Nat) : List Byte := (nth none (seenMap b m).zones z).getD (List.replicate 40 0)

def zAddr (z : List Byte) : Nat := leAt z 0 4 * 64
def zFrames (z : List Byte) : Nat := leAt z 4 4
def zRate (z : List Byte) : Nat := leAt z 8 4
def zRoot (z : List Byte) : Int := leAtS z 12 4
def zLoopStart (z : List Byte) : Nat := leAt z 16 4
def zLoopEnd (z : List Byte) : Nat := leAt z 20 4
def zGain (z : List Byte) : Int := leAt z 24 4
def zXfade (z : List Byte) : Nat := leAt z 28 2
def zHead (z : List Byte) : Nat := leAt z 30 2
def zStereo (z : List Byte) : Bool := bit (leAt z 32 1) 0
def zPacked (z : List Byte) : Bool := bit (leAt z 32 1) 1
def zLoops (z : List Byte) : Bool := leAt z 33 1 == 1

/-- fb, the frame size in bytes (R240). -/
def zBytes (z : List Byte) : Nat := (if zPacked z then 3 else 2) * (if zStereo z then 2 else 1)

/-- The first zone of a map, in zone order, that takes a note and velocity (R242). -/
def selectZone (b : Block) (m note : Nat) (vel : Int) : Option Nat :=
  let mp := seenMap b m
  let v := (vel * 255 / 2 ^ 27).toNat
  (List.range mp.zones.length).find? (fun i =>
    match nth none mp.zones i with
    | some z => decide (leAt z 34 1 ≤ note) && decide (note ≤ leAt z 35 1) && decide (leAt z 36 1 ≤ v) &&
        decide (v ≤ leAt z 37 1)
    | none => false)

/-- One channel of a frame's bytes at 2^32: LEFT 0, RIGHT 1, MID 2 (R100). -/
def frameValue (z : List Byte) (chan : Nat) (bs : List Byte) : Int :=
  let w := if zPacked z then 3 else 2
  let up : Int := if zPacked z then 2 ^ 8 else 2 ^ 16
  let l := leAtS bs 0 w * up
  if zStereo z then
    let r := leAtS bs w w * up
    if chan = 0 then 2 * l else if chan = 1 then 2 * r else l + r
  else 2 * l

/-- A place in the play sequence (R244): the frame index, with the loop passes made before it. -/
def seqFrame (z : List Byte) (i : Nat) : Nat × Nat :=
  if zLoops z ∧ zLoopEnd z ≤ i then
    let len := max 1 (zLoopEnd z - zLoopStart z)
    (zLoopStart z + (i - zLoopEnd z) % len, 1 + (i - zLoopEnd z) / len)
  else (i, 0)

/-- How many frames of the play sequence from frame `first` lie in the ring before the frame `f` of pass `p`: the head is
never fetched into it (R250). None where that frame is not fetched. -/
def ringIndex (z : List Byte) (first p f : Nat) : Option Nat :=
  let hd := zHead z
  if f < hd then none
  else if p = 0 then (if first ≤ f then some (f - first) else none)
  else
    let lo := max (zLoopStart z) hd
    if zLoopEnd z ≤ lo then none
    else some ((zLoopEnd z - max first hd) + (p - 1) * (zLoopEnd z - lo) + (f - lo))

/-- The number of frames the ring is ever given for a slot; none where the sequence has no end (R244, R245, R250). -/
def ringTotal (z : List Byte) (first : Nat) : Option Nat :=
  if zLoops z then
    if zLoopEnd z ≤ max (zLoopStart z) (zHead z) then some 0 else none
  else some (zFrames z - first)

/-- The frame at an index of the ring's own sequence, the inverse of `ringIndex` (R250). -/
def ringFrame (z : List Byte) (first i : Nat) : Nat :=
  if zLoops z then
    let lo := max (zLoopStart z) (zHead z)
    let n0 := zLoopEnd z - first
    if i < n0 then first + i else lo + (i - n0) % max 1 (zLoopEnd z - lo)
  else first + i

/-- The ring size in bytes that STRM_CFG gives (R248). -/
def ringSize (b : Block) : Nat := 2048 * 2 ^ b.rd fSTRM_CFG_RING

/-- STRM_CFG and STRM_RING_BANK as the stream engine uses them: as they stand while ENABLE is 1, else as the latest boundary found
them (R23, R248, R255). -/
def Block.rings (b : Block) : StreamView :=
  if b.flag fSTRM_CTRL_ENABLE && !b.store.stopAtBound then
    { b.store.seen with code := b.rd fSTRM_CFG_RING, bank := b.rd fSTRM_RING_BANK_BANK, slots := b.rd fSTRM_CFG_SLOTS }
  else b.store.seen

/-- The ring size in use. -/
def ringLen (b : Block) : Nat := 2048 * 2 ^ b.rings.code

/-- Where a slot's ring lies in slate (R248). -/
def ringBase (b : Block) (id : Nat) : Nat := b.rings.bank * 2 ^ 19 + id * ringLen b

/-- The open slot that serves a voice's zone (R249). -/
def slotFor (b : Block) (v m z : Nat) : Option Slot :=
  b.store.slots.find? (fun s => s.voice == v && s.map == m && s.zone == z)

/-- Where the bytes of a frame at a place of the play sequence lie in slate, in the head or the ring; none where it is not held
(R246, R250, R254). -/
def frameAt (b : Block) (m zi : Nat) (slot : Option Slot) (p f : Nat) : Option (List Nat) :=
  let z := zoneOf b m zi
  let fb := zBytes z
  if f < zHead z then some ((List.range fb).map (fun k => nth 0 (seenMap b m).heads zi + f * fb + k))
  else
    match slot with
    | none => none
    | some s =>
      match ringIndex z s.first p f with
      | none => none
      | some i =>
        if s.passed ≤ i * fb ∧ (i + 1) * fb ≤ s.held then
          some ((List.range fb).map (fun k => ringBase b s.id + (i * fb + k) % ringLen b))
        else none

/-- What a tap reads: bytes of slate, bytes of LPDDR5, or the 0 past a zone's end (R245). -/
inductive Tap where
  | slate (os : List Nat)
  | lpddr (o n : Nat)
  | zero

/-- A tap of a zone at frame f of pass p, plus `off` frames along the play sequence: the first frame before the zone's start, 0
past a zone's end (R100, R244, R245). None where a frame is not held. -/
def zoneTap (b : Block) (m zi : Nat) (slot : Option Slot) (p f : Nat) (off : Int) : Option Tap :=
  let z := zoneOf b m zi
  let g : Int := f + off
  let at_ (p f : Nat) : Option Tap := (frameAt b m zi slot p f).map .slate
  if zLoops z then
    let len := zLoopEnd z - zLoopStart z
    if (zLoopEnd z : Int) ≤ g then
      let (f', k) := seqFrame z g.toNat
      at_ (p + k) f'
    else if 0 < p ∧ g < zLoopStart z then at_ (p - 1) (g + len).toNat
    else at_ p g.toNat
  else if (zFrames z : Int) ≤ g then some .zero
  else at_ p g.toNat

/-- A tap of the crossfade read (R244, R246): frames of the resident block of the XFADE frames before LOOP_START, frames from
LOOP_START on as the next pass reads them, and frames before the block as the recording holds them (DESIGN CHOICE,
notes/assumptions/9.md). -/
def fadeTap (b : Block) (m zi : Nat) (slot : Option Slot) (p : Nat) (g : Int) : Option Tap :=
  let z := zoneOf b m zi
  let fb := zBytes z
  let ls : Int := zLoopStart z
  let x : Int := zXfade z
  if ls ≤ g then zoneTap b m zi slot (p + 1) g.toNat 0
  else if ls - x ≤ g then
    some (.slate ((List.range fb).map (fun k => nth 0 (seenMap b m).heads zi + (zHead z + (g - (ls - x)).toNat) * fb + k)))
  else some (.lpddr (zAddr z + g.toNat * fb) fb)

/-- A byte of slate as the stream engine reads it for a lane (R246, R345). -/
def streamByte (b : Block) (o : Nat) : Byte := if slateMay b rqSTRM (bankOf o) then b.slateByte o else 0

/-- The value of a tap at 2^32 (R100). -/
def tapValue (b : Block) (z : List Byte) (chan : Nat) : Tap → Int
  | .slate os => frameValue z chan (os.map (streamByte b))
  | .lpddr o n => frameValue z chan (b.lpddrBytes o n)
  | .zero => 0

/-- The position lies in the crossfade of a loop (R244). -/
def inFade (z : List Byte) (pos : Nat) : Bool := zLoops z && decide (0 < zXfade z) && decide (zLoopEnd z ≤ pos / 2 ^ 32 + zXfade z)

/-- The taps of a zone's read at a 64-bit position in pass p, and those of its second read in a crossfade (R100, R244). -/
def zoneTaps (b : Block) (m zi kind : Nat) (slot : Option Slot) (p pos : Nat) : List (Option Tap) × List (Option Tap) :=
  let z := zoneOf b m zi
  let f := pos / 2 ^ 32
  ((tapsOf kind).map (fun o => zoneTap b m zi slot p f o),
   if inFade z pos then (tapsOf kind).map (fun o => fadeTap b m zi slot p ((f : Int) - (zLoopEnd z - zLoopStart z) + o)) else [])

/-- A kernel over its taps. -/
def tapInterp (b : Block) (z : List Byte) (chan kind : Nat) (taps : List (Option Tap)) (fr : Nat) : Int :=
  let vs := (tapsOf kind).zip (taps.map (fun t => match t with | some t => tapValue b z chan t | none => 0))
  interp kind (fun i => (vs.lookup i).getD 0) fr

/-- A read of a zone at a 64-bit position in pass p (R100, R244), exact, GAIN included (R242). None where a frame is not
held. -/
def zoneRead (b : Block) (m zi chan kind : Nat) (slot : Option Slot) (p pos : Nat) : Option Q :=
  let z := zoneOf b m zi
  let fr := pos / 2 ^ 16 % 2 ^ 16
  let (ta, tb) := zoneTaps b m zi kind slot p pos
  if (ta ++ tb).any (·.isNone) then none
  else
    let s := tapInterp b z chan kind ta fr
    let x := zXfade z
    if inFade z pos then
      let u : Int := ((pos - (zLoopEnd z - x) * 2 ^ 32) / (x * 2 ^ 16) : Nat)
      some ⟨((2 ^ 16 - u) * s + u * tapInterp b z chan kind tb fr) * zGain z, 2 ^ 127⟩
    else some ⟨s * zGain z, 2 ^ 111⟩

/-- The slate offsets that the read touches. -/
def zoneOffsets (b : Block) (m zi kind : Nat) (slot : Option Slot) (p pos : Nat) : List Nat :=
  let (ta, tb) := zoneTaps b m zi kind slot p pos
  (ta ++ tb).flatMap (fun t => match t with | some (.slate os) => os | _ => [])

end Sys2Proof.Machine
end

