-- ==== Sys2Proof/Machine/Osc.lean ====
section
/-! DEFINITION. The oscillator stage of a voice-sample (03 R81 to R112; 06 R244, R245, R253, R254). -/

namespace Sys2Proof.Machine

/-- The value of destination k of oscillator n among a render's 256 destination values (R90). -/
def oscDest (dests : List Int) (n k : Nat) : Int := nth 0 dests (n * 24 + k)

/-- The note pitch of an oscillator (R81). -/
def notePitch (b : Block) (p : List Byte) (note n : Nat) : Int :=
  rnd 30 (((note : Int) - 69) * 65536 * pKeytrack p n) +
    (if pTune p n = 0 then 0 else smGet (fun _ => 0) b.glob.tune (pTune p n * 128 + note))

/-- p of R82, the drift term of R107 included. -/
def totalPitch (b : Block) (p : List Byte) (note n : Nat) (pitch depth drift : Int) : Int :=
  clamp (-8388608) 4194303 (notePitch b p note n + pitch + eitherWay 107 30 (clamp 0 65536 depth * drift))

/-- The increment of R84, with the linear modulation and the clamp of R85. -/
def phaseInc (b : Block) (pitch : Int) (linFm : Int) : Int :=
  let inc := expRound 84 (b.glob.tuneF * 2 ^ 32) b.fs pitch 786432
  clamp (-(2 ^ 47 - 1)) (2 ^ 47 - 1) (inc + flr 30 (inc * coefAny linFm))

/-- The SAMPLE increment (R98). -/
def sampleInc (b : Block) (z : List Byte) (pitch : Int) : Int :=
  expRound 98 (2 ^ 32 * zRate z) (256 * b.fs) (min (pitch - zRoot z) 1572864) 786432

/-- Whether WARP applies to an oscillator (R103). -/
def warps (p : List Byte) (n : Nat) : Bool :=
  pMode p n == oscModeTable || pMode p n == oscModePm || (pMode p n == oscModeVa && decide (2 ≤ pWave p n))

/-- A read phase of 2^-64 cycles: PHASE_OFFSET added, PM added, WARP applied (R96, R103, R111). -/
def readPhase (p : List Byte) (dests : List Int) (n : Nat) (acc64 : Nat) (pm : Int) : Nat :=
  let t := (((acc64 : Int) + coefWrap (oscDest dests n 2) * 2 ^ 34 + pm * 2 ^ 16) % 2 ^ 64).toNat
  if warps p n then warpPhase (coef11 (oscDest dests n 6)) (t / 2 ^ 16) * 2 ^ 16 + (if coef11 (oscDest dests n 6) = 0 then t % 2 ^ 16 else 0)
  else t

/-- PULSE_WIDTH clamped, coefficient format (R90). -/
def pulseWidth (dests : List Int) (n : Nat) : Nat := (clamp (2 ^ 24) (63 * 2 ^ 24) (oscDest dests n 5)).toNat

/-- What the oscillator stage reads of slate for its table at a read phase (R345, R348, R358). -/
def checkWave (b : Block) (p : List Byte) (x : Voice) (dests : List Int) (n : Nat) (inc : Int) (phases : List Nat) : Block :=
  if pMode p n = oscModeTable then
    readCheck rqVOICE (phases.flatMap (fun t =>
      tableOffsets b (pSource p n) (pInterp p n) (bit (pFlags p n) 3) inc (coef01 (oscDest dests n 4)) (t / 2 ^ 16) (x.oscN n).morph)) b
  else b

/-- A waveform's value at a read phase of 2^-64 cycles, without band-limit residuals (R93 to R103, R111). -/
def waveAt (b : Block) (p : List Byte) (x : Voice) (dests : List Int) (n : Nat) (inc : Int) (t : Nat) : Q :=
  let ph := t / 2 ^ 16
  let blend := bit (pFlags p n) 3
  if pMode p n = oscModeTable then
    tableValue b (pSource p n) (pInterp p n) blend inc (coef01 (oscDest dests n 4)) ph (x.oscN n).morph
  else if pMode p n = oscModePm then ⟨readLevel 2 0 (fun j => romSine j) ph, 2 ^ 80⟩
  else
    match pWave p n with
    | 0 => ⟨2 * (t : Int) - 2 ^ 64, 2 ^ 64⟩
    | 1 => ⟨if t < pulseWidth dests n * 2 ^ 34 then 1 else -1, 1⟩
    | 2 => ⟨readMip blend inc (fun l => readLevel 2 l (romTri l) ph), 2 ^ 96⟩
    | _ => ⟨readMip blend inc (fun l => readLevel 2 l (fun j => romSine (j * 2 ^ l)) ph), 2 ^ 96⟩

/-- The residuals of R101 at a 48-bit phase; without those at phase 0 in the read that follows a sync reset (R111). -/
def residuals (p : List Byte) (dests : List Int) (n : Nat) (inc : Int) (reset : Bool) (ph : Nat) : Q :=
  if pMode p n = oscModeVa ∧ pWave p n = 0 then (if reset then ⟨0, 1⟩ else blep ph inc.natAbs (-2))
  else if pMode p n = oscModeVa ∧ pWave p n = 1 then
    let edge := blep ((ph + 2 ^ 48 - pulseWidth dests n * 2 ^ 18) % 2 ^ 48) inc.natAbs (-2)
    if reset then edge else (blep ph inc.natAbs 2).add edge
  else ⟨0, 1⟩

/-- The read phases after and before a sync reset (R111). -/
def syncPhases (p : List Byte) (dests : List Int) (n phase accOld u : Nat) (incOld : Int) : Nat × Nat :=
  let pre := (((accOld : Int) * 2 ^ 16 + incOld * (2 ^ 16 - u)) % 2 ^ 64).toNat
  (readPhase p dests n (phase * 2 ^ 16) 0, readPhase p dests n pre 0)

/-- The correction that follows a sync reset (R111). -/
def syncCorrection (b : Block) (p : List Byte) (x : Voice) (dests : List Int) (n : Nat) (inc : Int) : Q :=
  match (x.oscN n).sync with
  | none => ⟨0, 1⟩
  | some (u, accOld, incOld, phase) =>
    let (post, pre) := syncPhases p dests n phase accOld u incOld
    let h := (waveAt b p x dests n inc post).sub (waveAt b p x dests n inc pre)
    h.mul ⟨-((2 ^ 16 - (u : Int)) ^ 2), 2 ^ 33⟩

/-- Ring modulation (R108) of an exact value. -/
def ringMod (p : List Byte) (x : Voice) (dests : List Int) (n : Nat) (y : Q) : Q :=
  let r := coef01 (oscDest dests n 8)
  if r = 0 then y
  else
    let s := clamp (-(2 ^ 27)) (2 ^ 27) (x.oscN (pRingSrc p n)).out
    y.mul ⟨2 ^ 57 - r * 2 ^ 27 + r * s, 2 ^ 57⟩

/-- The advance of the phase accumulator and a sync reset that is due (R87 step 4, R110, R112). -/
def advanceOsc (p : List Byte) (x : Voice) (dests : List Int) (n : Nat) (inc : Int) (o : Osc) : Osc :=
  let s : Int := o.acc + inc
  let wrap := decide (s < 0) || decide (2 ^ 48 ≤ s)
  let acc := (s % 2 ^ 48).toNat
  let o' := { o with acc := acc, inc := inc, wrap := wrap, wrapAcc := acc, wrapInc := inc, sync := none }
  let m := x.oscN (pSyncSrc p n)
  if bit (pFlags p n) 2 && m.wrap then
    let num : Nat := if 0 < m.wrapInc then m.wrapAcc else 2 ^ 48 - m.wrapAcc
    let den := m.wrapInc.natAbs
    let phase := coefWrap (oscDest dests n 7) * 2 ^ 18
    { o' with
      acc := (((phase : Int) + inc * num / (den : Nat)) % 2 ^ 48).toNat
      sync := some (num * 2 ^ 16 / den, o.acc, inc, phase) }
  else o'

/-- TBL_NOT_READY (R234): once per boundary, with the first table captured. -/
def noteNotReady (b : Block) (t : Nat) : Block :=
  let b := if b.flag fTBLD_NOTREADY_VALID then b else (b.wr fTBLD_NOTREADY_VALID 1).wr fTBLD_NOTREADY_TABLE t
  if b.glob.notReadyRaised then b
  else { b with glob := { b.glob with notReadyRaised := true } }.raise evTBL_NOT_READY

/-! ### Stream slots -/

def Block.setSlots (b : Block) (l : List Slot) : Block :=
  { b with store := { b.store with slots := l } }.wr fSTRM_ACTIVE_OPEN l.length

/-- Closes a stream slot: its ring is given up and its requests are dropped (R249). -/
def closeSlot (b : Block) (id : Nat) : Block :=
  let b := b.setSlots (b.store.slots.filter (fun s => s.id != id))
  { b with store := { b.store with requests := b.store.requests.filter (· != id) } }

/-- Closes every slot of a voice (R249). -/
def closeVoiceSlots (b : Block) (v : Nat) : Block :=
  forL (b.store.slots.filter (fun s => s.voice == v)) (fun s b => closeSlot b s.id) b

/-- Opens the lowest-numbered free slot for a zone unless the voice has one there already (R249, R255). -/
def openSlot (b : Block) (v m z first : Nat) : Block :=
  if !b.flag fSTRM_CTRL_ENABLE || (slotFor b v m z).isSome then b
  else
    match (List.range b.rings.slots).find? (fun i => b.store.slots.all (fun s => s.id != i)) with
    | none => b
    | some i =>
      let s : Slot :=
        { id := i, voice := v, map := m, zone := z, first := first, held := 0, asked := 0, passed := 0, deadline := 0 }
      let b := b.setSlots (b.store.slots ++ [s])
      b.wr fSTRM_ACTIVE_PEAK (max (b.rd fSTRM_ACTIVE_PEAK) b.store.slots.length)

/-- Whether another oscillator of the voice still plays a slot's zone. -/
def sharesSlot (x : Voice) (n : Nat) (mz : Nat × Nat) : Bool :=
  (List.range 4).any (fun k => k != n && (x.oscN k).zone == some mz && !(x.oscN k).ended && (x.oscN k).glide.isNone)

/-- STREAM_UNDERRUN (R254). -/
def noteUnderrun (b : Block) (v n : Nat) : Block :=
  let b := if b.flag fSTRM_UNDERRUN_VALID then b
    else ((b.wr fSTRM_UNDERRUN_VALID 1).wr fSTRM_UNDERRUN_OSC n).wr fSTRM_UNDERRUN_VOICE v
  (b.countUp fSTRM_UNDERRUN_COUNT_COUNT 1).raise evSTREAM_UNDERRUN

/-- STREAM_END (R245). -/
def noteStreamEnd (b : Block) (v n : Nat) : Block :=
  let b := ((b.wr fSTRM_END_LAST_VALID 1).wr fSTRM_END_LAST_OSC n).wr fSTRM_END_LAST_VOICE v
  b.raiseIf (b.flag fSTRM_CTRL_END_EVT) evSTREAM_END

/-- How many frames before its position the oscillators of a voice on a zone read (R97). -/
def reachBack (p : List Byte) (x : Voice) (mz : Nat × Nat) : Nat :=
  (List.range 4).foldl (fun m n => if (x.oscN n).zone = some mz then max m (nth 0 [0, 0, 1, 3] (pInterp p n)) else m) 0

/-- A cold start (R253): the ring is flushed and refilled from the first frame that the taps at the position reach beyond the
head. DESIGN CHOICE, notes/assumptions/47.md -/
def coldStart (b : Block) (s : Slot) (frame back : Nat) : Block :=
  let b := b.setSlots (b.store.slots.map (fun t =>
    if t.id = s.id then { t with first := max (zHead (zoneOf b s.map s.zone)) (frame - back), held := 0, asked := 0, passed := 0, deadline := b.lastBound / b.period }
    else t))
  { b with store := { b.store with requests := b.store.requests.filter (· != s.id) } }.countUp fSTRM_COLD_COUNT_COUNT 1

/-- The SAMPLE position after an advance: reduced round the loop, or ended at the last frame (R244, R245). -/
def advanceSample (z : List Byte) (inc : Int) (o : Osc) : Osc :=
  let pos := (o.acc + inc.toNat) % 2 ^ 64
  let (f, k) := seqFrame z (pos / 2 ^ 32)
  { o with acc := f * 2 ^ 32 + pos % 2 ^ 32, inc := inc, loops := o.loops + k,
           ended := o.ended || (!zLoops z && decide (zFrames z ≤ f)) }

/-- Where a SAMPLE oscillator's first render sets its position (R99, R244). -/
def placeSample (z : List Byte) (start : Int) (o : Osc) : Osc :=
  if o.posSet then o
  else
    let s0 := (clamp 0 (2 ^ 32 - 1) start).toNat
    { o with acc := (seqFrame z (min s0 (zFrames z - 1))).1 * 2 ^ 32, posSet := true }

/-- The glide of an underrun: render k outputs last * (32 - k)/32 (R254). -/
def glideOut (last : Int) (k : Nat) : Int := Q.audio ⟨last * (32 - min k 32 : Nat), 2 ^ 32⟩

/-- What a SAMPLE oscillator's read gives: a value to modulate and round, silence at a standstill, or an underrun. -/
inductive SampleRead where
  | value (y : Q)
  | cold
  | underrun
  deriving Inhabited

/-- The oscillator stage of a SAMPLE oscillator with a zone (R98 to R100, R244, R245, R253, R254). -/
def sampleStep (b : Block) (p : List Byte) (x : Voice) (dests : List Int) (v n : Nat) (mz : Nat × Nat) (pitch : Int)
    (o : Osc) : Block × Osc :=
  let z := zoneOf b mz.1 mz.2
  let inc := sampleInc b z pitch
  let first := !o.posSet
  let o := placeSample z (oscDest dests n 11) o
  let slot := slotFor b v mz.1 mz.2
  let frame := o.acc / 2 ^ 32
  let starts := first && slot.isSome && (frameAt b mz.1 mz.2 slot o.loops frame).isNone
  let shared := (List.range 4).any (fun k => k != n && (x.oscN k).zone == some mz && (x.oscN k).cold)
  let b := match slot with
    | some s => if starts && !shared then coldStart b s frame (reachBack p x mz) else b
    | none => b
  let now := slotFor b v mz.1 mz.2
  let r := match zoneRead b mz.1 mz.2 (pWave p n) (pInterp p n) now o.loops o.acc with
    | some y => SampleRead.value y
    | none => if (starts || o.cold) && slot.isSome then .cold else .underrun
  match r with
  | .value y =>
    let b := readCheck rqSTRM (zoneOffsets b mz.1 mz.2 (pInterp p n) now o.loops o.acc) b
    let o := { advanceSample z inc o with out := (ringMod p x dests n y).audio, cold := false }
    if o.ended then
      let b := if sharesSlot x n mz then b else
        match slot with
        | some s => closeSlot b s.id
        | none => b
      (noteStreamEnd b v n, o)
    else (b, o)
  | .cold => (b, { o with out := 0, inc := inc, cold := true })
  | .underrun =>
    let b := match slot with
      | some s => closeSlot b s.id
      | none => b
    (noteUnderrun b v n, { o with out := glideOut o.out 1, inc := inc, glide := some (o.out, 1), cold := false })

/-- The read phase of an oscillator's own read (R96, R103, R109). -/
def ownPhase (p : List Byte) (x : Voice) (dests : List Int) (n acc : Nat) : Nat :=
  let pm := if pMode p n = oscModeVa then 0
    else flr 9 (coefAny (oscDest dests n 3) * (x.oscN (pPmSrc p n)).out + 2 ^ 8)
  readPhase p dests n (acc * 2 ^ 16) pm

/-- The read phases of a render: its own, and those of a sync reset (R111). -/
def phasesRead (p : List Byte) (x : Voice) (dests : List Int) (n : Nat) (o : Osc) : List Nat :=
  ownPhase p x dests n o.acc :: (match (x.oscN n).sync with
    | none => []
    | some (u, accOld, incOld, phase) =>
      let (post, pre) := syncPhases p dests n phase accOld u incOld
      [post, pre])

/-- The read and advance of a WAVETABLE, VA or PM oscillator (R87, R93 to R103, R110 to R112). -/
def phaseStep (b : Block) (p : List Byte) (x : Voice) (dests : List Int) (n : Nat) (inc : Int) (o : Osc) : Osc :=
  let t := ownPhase p x dests n o.acc
  let y := ((waveAt b p x dests n inc t).add (residuals p dests n inc o.sync.isSome (t / 2 ^ 16))).add
    (syncCorrection b p x dests n inc)
  let out := (ringMod p x dests n y).audio
  { advanceOsc p x dests n inc o with
    out := out
    morph := match o.morph with
      | some r => if r + 1 < b.rd (fTBL_DESC_W0_MORPH_LEN.at (pSource p n)) then some (r + 1) else none
      | none => none }

/-- The read and advance of a NOISE oscillator with this sample's g (R106). -/
def noiseStep (p : List Byte) (x : Voice) (dests : List Int) (n : Nat) (g inc : Int) (o : Osc) : Osc :=
  let o := { o with cy := if pWave p n = 1 then clamp (-(2 ^ 31)) (2 ^ 31 - 1) (o.cy + eitherWay 106 4 (g - o.cy)) else o.cy }
  let c := coef11 (oscDest dests n 10)
  let y : Q :=
    match pWave p n with
    | 0 => ⟨g, 2 ^ 27⟩
    | 1 => ⟨(2 ^ 30 - c.natAbs) * g + c.natAbs * (if 0 ≤ c then 4 * o.cy else g - o.cy), 2 ^ 57⟩
    | _ => ⟨o.cy, 2 ^ 27⟩
  let out := (ringMod p x dests n y).audio
  let o := advanceOsc p x dests n inc o
  { o with out := out, cy := if pWave p n = 2 ∧ o.wrap then g else o.cy }

/-- The oscillator stage for one oscillator (R87). -/
def oscStep (p : List Byte) (dests : List Int) (v n : Nat) (bx : Block × Voice) : Block × Voice :=
  let (b, x) := bx
  let o := x.oscN n
  let mode := pMode p n
  if mode = oscModeOff then (b, x.setOsc n { o with out := 0 })
  else if mode = oscModeInput then
    (b, x.setOsc n { o with out := (ringMod p x dests n ⟨nth 0 b.glob.live (pInput p n), 2 ^ 27⟩).audio })
  else
    let drifts := mode == oscModeTable || mode == oscModeVa || mode == oscModePm
    let pitch := totalPitch b p x.lay.note n (oscDest dests n 0) (if drifts then oscDest dests n 9 else 0) o.drift
    let gen := xorshift32 o.gen
    let g := noiseG gen
    let o := { o with gen := gen, drift := if drifts then o.drift + flr 12 (g * 8 - o.drift) else o.drift }
    if mode = oscModeSample then
      match o.zone with
      | none => (b, x.setOsc n { o with out := 0 })
      | some mz =>
        if o.ended then (b, x.setOsc n { o with out := 0 })
        else
          match o.glide with
          | some (last, k) => (b, x.setOsc n { o with out := glideOut last (k + 1), glide := some (last, min (k + 1) 32) })
          | none =>
            let (b, o) := sampleStep b p x dests v n mz pitch o
            (b, x.setOsc n o)
    else if mode = oscModeNoise then (b, x.setOsc n (noiseStep p x dests n g (phaseInc b pitch 0) o))
    else
      let b := if mode = oscModeTable ∧ tableState b (pSource p n) ≠ 2 then noteNotReady b (pSource p n) else b
      let inc := phaseInc b pitch (oscDest dests n 1)
      (checkWave b p x dests n inc (phasesRead p x dests n o), x.setOsc n (phaseStep b p x dests n inc o))

/-- Frames of the ring that a slot's reader has passed (R250), as a count of ring frames before its position. -/
def ringPos (z : List Byte) (first p f : Nat) : Nat :=
  if p = 0 then f - first
  else
    let lo := max (zLoopStart z) (zHead z)
    (zLoopEnd z - max first (zHead z)) + (p - 1) * (zLoopEnd z - lo) + (f - lo)

/-- Bytes a slot's readers no longer need: all but three frames before the rearmost position (R97, R250). -/
def passedBytes (b : Block) (x : Voice) (s : Slot) : Nat :=
  let z := zoneOf b s.map s.zone
  let users := (List.range 4).filter (fun n =>
    (x.oscN n).zone == some (s.map, s.zone) && !(x.oscN n).ended && (x.oscN n).glide.isNone && (x.oscN n).posSet)
  match users.map (fun n => ringPos z s.first (x.oscN n).loops ((x.oscN n).acc / 2 ^ 32) - 3) with
  | [] => s.passed
  | l :: ls => max s.passed (ls.foldl min l * zBytes z)

/-- The oscillator stage (R87): oscillators 0 to 3 in order, then the rings' free room. -/
def oscStage (b : Block) (p : List Byte) (x : Voice) (dests : List Int) (v : Nat) : Block × Voice :=
  let (b, x) := (List.range 4).foldl (fun bx n => oscStep p dests v n bx) (b, x)
  ({ b with store := { b.store with
      slots := b.store.slots.map (fun s => if s.voice = v then { s with passed := passedBytes b x s } else s) } }, x)

/-! ### Arming and the first render -/

/-- inc0 of R89: the increment of the patch's base values and the note pitch. -/
def baseInc (b : Block) (p : List Byte) (note n : Nat) : Int :=
  let lin := if pMode p n = oscModeNoise then 0 else patchBase p (n * 24 + 1)
  phaseInc b (totalPitch b p note n (patchBase p (n * 24)) 0 0) lin

/-- An oscillator at arming for a note whose first render lies in the window opened at a boundary (R89, R105): a random phase, the
phase of a FREE_RUN start, or 0. -/
def armOsc (b : Block) (p : List Byte) (v id note n bound : Nat) (o : Osc) : Osc :=
  let gen := if bit (pFlags p n) 4 then seedOf b v id n else o.gen
  let m := pMode p n
  if bit (pFlags p n) 1 then { Osc.reset with gen := xorshift32 gen, acc := xorshift32 gen * 2 ^ 16 }
  else if bit (pFlags p n) 0 && m != oscModeSample && m != oscModeOff && m != oscModeInput then
    { Osc.reset with gen := gen, acc := (baseInc b p note n * (b.pairCount bound / b.period : Nat) % 2 ^ 48).toNat }
  else { Osc.reset with gen := gen }

end Sys2Proof.Machine
end

