-- ==== Sys2Proof/Machine/Render.lean ====
section
/-! DEFINITION. The stages of a voice-sample other than the oscillators, and the render that runs them in order (04 R118 to
R160). -/

namespace Sys2Proof.Machine

/-- A destination's value brought to its format and range (R90, R131, R135, R141, R146, R152). -/
def destRange (d : Nat) (x : Int) : Int :=
  if d < 0x60 then
    match d % 24 with
    | 2 => coefWrap x
    | 4 => coef01 x
    | 5 => clamp (2 ^ 24) (63 * 2 ^ 24) x
    | 6 => coef11 x
    | 7 => coefWrap x
    | 8 => coef01 x
    | 9 => clamp 0 65536 x
    | 10 => coef11 x
    | 11 => clamp 0 (2 ^ 32 - 1) x
    | _ => coefAny x
  else if d < 0x80 then
    match d % 16 with
    | 1 => coef01 x
    | 2 => coef01 x
    | 3 => coef11 x
    | 4 => coefPos x
    | _ => coefAny x
  else if d < 0xB0 then
    match d % 8 with
    | 6 => coefAny x
    | 7 => coef11 x
    | _ => coef01 x
  else if d < 0xC8 then
    match (d - 0xB0) % 6 with
    | 0 => coef01 x
    | 2 => coefWrap x
    | 3 => coef11 x
    | 4 => coef01 x
    | _ => coefAny x
  else if d < 0xE0 then
    if d < 0xCD ∨ 0xD1 ≤ d then coefPos x else coefAny x
  else satAudio x

/-- An exact number at a scale of 2^k, whose rounding to a whole the spec does not state: either neighbour. -/
def eitherQ (tag k : Nat) (q : Q) : Int :=
  let lo := q.n * 2 ^ k / (q.d : Int)
  within tag [q.n, q.d, k] lo (if lo * q.d = q.n * 2 ^ k then lo else lo + 1)

/-! ### Ramp stage -/

/-- Ramp units advance (R157): a unit moves its destination's live base by its step, and sets the target in its last render. -/
def rampUnits (x : Voice) : Voice :=
  (List.range 4).foldl (fun x u =>
    match nth none x.ramp u with
    | none => x
    | some r =>
      if r.left ≤ 1 then { x with base := x.base.set r.dest r.target, ramp := x.ramp.set u none }
      else { x with base := x.base.modify r.dest (· + r.step), ramp := x.ramp.set u (some { r with left := r.left - 1 }) }) x

/-- The gate falls (R143): every enabled envelope before RELEASE that is not ONE_SHOT goes there. -/
def gateFall (p : List Byte) (x : Voice) : Voice :=
  { x with
    gate := false, held := false, st := if x.st = 2 then 3 else x.st
    env := x.env.mapIdx (fun e v =>
      let f := leAt p (0x180 + e * 0x40) 1
      if bit f 0 && !bit f 1 && decide (v.stage < 5) then { v with stage := 5, l0 := v.y, r := 0 } else v) }

/-- Envelopes restart at a retrigger (R143). -/
def retriggerEnvs (p : List Byte) (x : Voice) : Voice :=
  { x with
    env := x.env.mapIdx (fun e v =>
      let f := leAt p (0x180 + e * 0x40) 1
      if bit f 0 then { v with stage := 0, r := 0, l0 := if bit f 3 then 0 else v.y } else v) }

/-- START_OFFSET of oscillator n as a matrix stage forms it from what a pre-pass sees (R120, R250). -/
def prepassDests (b : Block) (p : List Byte) (x : Voice) : List Int :=
  matrix b p { x with osc := List.replicate 4 Osc.reset, fltOut := [0, 0], voiceOut := 0,
                      macros := (x.base.drop 0xE0).take 32 } (List.replicate 6 0) (List.replicate 4 0)

/-- Selects the zones of a voice's SAMPLE oscillators and opens their streams (R242, R249, R250). -/
def startSamples (b : Block) (p : List Byte) (v : Nat) (x : Voice) (dests : List Int) : Block × Voice :=
  (List.range 4).foldl (fun (bx : Block × Voice) n =>
    let (b, x) := bx
    if pMode p n ≠ oscModeSample then (b, x)
    else
      let m := pSource p n
      match selectZone b m x.lay.note x.lay.vel with
      | none => (b.countUp fSTRM_NOZONE_COUNT_COUNT 1, x.setOsc n { x.oscN n with zone := none })
      | some z =>
        let zd := zoneOf b m z
        let s0 := (clamp 0 (2 ^ 32 - 1) (oscDest dests n 11)).toNat
        let first := max (zHead zd) (seqFrame zd (min s0 (zFrames zd - 1))).1
        (openSlot b v m z first, x.setOsc n { x.oscN n with zone := some (m, z) })) (b, x)

/-- A retrigger in the ramp stage (R143, R242, R243): velocity replaced, gate high, envelopes restarted, samples started
afresh. -/
def retriggerVoice (b : Block) (p : List Byte) (v : Nat) (vel : Int) (x : Voice) : Block × Voice :=
  let x := retriggerEnvs p { x with
    lay := { x.lay with vel := vel }, gate := true, held := false, st := if x.st = 3 then 2 else x.st }
  if (List.range 4).all (fun n => pMode p n != oscModeSample) then (b, x)
  else
    let x := { x with osc := x.osc.mapIdx (fun n o =>
      if pMode p n = oscModeSample then
        { o with posSet := false, loops := 0, glide := none, ended := false, cold := false, zone := none }
      else o) }
    startSamples (closeVoiceSlots b v) p v x (prepassDests b p x)

/-- The changes that have reached the lane, in the order in which they did (R121). -/
def applyChange (p : List Byte) (v : Nat) (c : GateChange) (bx : Block × Voice) : Block × Voice :=
  let (b, x) := bx
  match c with
  | .off vel => (b, gateFall p { x with relVel := vel })
  | .retrigger vel => retriggerVoice b p v vel x
  | .perNote i val => (b, { x with perNote := x.perNote.set i val })

/-- The ramp stage (R118, R121, R195). -/
def rampStage (b : Block) (p : List Byte) (v : Nat) (x : Voice) : Block × Voice :=
  let x := rampUnits x
  let (b, x) := x.changes.foldl (fun bx c => applyChange p v c bx) (b, x)
  let x := { x with changes := [] }
  if x.minGate then
    if x.minLeft ≤ 1 then (b, { gateFall p x with minGate := false, minLeft := 0 })
    else (b, { x with minLeft := x.minLeft - 1 })
  else (b, x)

/-! ### LFOs -/

/-- A destination value carried from the matrix stage of the previous render (R119). -/
def Voice.carry (x : Voice) (d : Nat) : Int := nth 0 x.carried (d - 0x80)

/-- The wave value of R148 at 2^80 for a 32-bit phase, SHAPE applied as WARP is (R103). -/
def lfoWave (wave : Nat) (shape : Int) (h hPrev : Int) (t : Nat) : Int :=
  let w : Int := warpPhase (coef11 shape) (t * 2 ^ 16)
  match wave with
  | 0 => readLevel 2 0 (fun j => romSine j) w.toNat
  | 1 => (2 ^ 48 - 4 * ((w - 2 ^ 47).natAbs : Int)) * 2 ^ 32
  | 2 => (2 * w - 2 ^ 48) * 2 ^ 32
  | 3 => (2 ^ 48 - 2 * w) * 2 ^ 32
  | 4 => if (t : Int) < 2 * clamp (2 ^ 25) (63 * 2 ^ 25) (2 ^ 30 - coef11 shape) then 2 ^ 80 else -(2 ^ 80)
  | 5 => h * 2 ^ 53
  | _ => (hPrev * 2 ^ 32 + t * (h - hPrev)) * 2 ^ 21

/-- The increment of an LFO's log-rate value (R132, R147). -/
def lfoInc (fs : Nat) (rate : Int) : Nat :=
  (expRound 147 (2 ^ 32) fs (22 * coef01 rate - 8 * 2 ^ 30) (2 ^ 30)).toNat

/-- The SYNC phase of R150 before PHASE_OFFSET, 32 bits. -/
def syncPhase (b : Block) (num den : Nat) : Nat := b.glob.beat * num * 2 ^ 32 / (b.glob.tpb * den) % 2 ^ 32

/-- What an LFO is set to: wave, mode, flags, cycles per beat, and its destination values. -/
structure LfoSet where
  wave : Nat
  mode : Nat
  flags : Nat
  num : Nat
  den : Nat
  rate : Int
  depth : Int
  phase : Int
  shape : Int
  fade : Int
  offset : Int

/-- One render of an LFO and its output (R147, R148). A SYNC phase has wrapped where it lies below the one read last, a beat that
jumps back among them; at most one wrap is seen in a render (DESIGN CHOICE, notes/assumptions/47.md). -/
def lfoStep (b : Block) (c : LfoSet) (l : Lfo) : Lfo × Int :=
  let sync := c.mode == 2
  let raw := if sync then syncPhase b c.num c.den else l.acc
  let fade := min (l.fade + 1) (2 ^ 32 - 1)
  let newGen (l : Lfo) : Lfo := let g := xorshift32 l.gen; { l with gen := g, hPrev := l.h, h := noiseG g }
  let one := bit c.flags 1
  let wrapped := sync && decide (0 < l.fade) && decide (raw < l.last)
  let l := if wrapped && !l.stopped then { newGen l with stopped := one } else l
  let t := (raw + coefWrap c.phase * 4) % 2 ^ 32
  let y := if l.stopped then l.y else lfoWave c.wave c.shape l.h l.hPrev t
  let l := { l with y := y, fade := fade, last := raw }
  let l := if sync || l.stopped then l
    else
      let s := l.acc + lfoInc b.fs c.rate
      let l := { l with acc := s % 2 ^ 32 }
      if 2 ^ 32 ≤ s then { newGen l with stopped := one } else l
  let y2 := if bit c.flags 0 then y + 2 ^ 80 else 2 * y
  let n := logTime b.fs c.fade
  let k := if bit c.flags 2 then min fade n else n
  (l, satAudio (roundDiv ((y2 * k * coefAny c.depth + coefAny c.offset * 2 ^ 81 * n) * 2 ^ 27) (2 ^ 111 * n)))

/-- The settings of a voice's LFO l in this render (R145, R146). -/
def voiceLfo (p : List Byte) (x : Voice) (l : Nat) : LfoSet :=
  let o := 0x300 + l * 0x40
  let d := 0xB0 + 6 * l
  { wave := leAt p o 1, mode := leAt p (o + 1) 1, flags := leAt p (o + 2) 1, num := leAt p (o + 3) 1, den := leAt p (o + 4) 1,
    rate := x.carry d, depth := x.carry (d + 1), phase := x.carry (d + 2), shape := x.carry (d + 3), fade := x.carry (d + 4),
    offset := x.carry (d + 5) }

/-- The LFO stage: LFOs 0 to 3, the live ones only (R118, R160). -/
def lfoStage (b : Block) (p : List Byte) (x : Voice) : Voice × List Int :=
  (List.range 4).foldl (fun (xo : Voice × List Int) l =>
    let (x, outs) := xo
    if lfoLive p l then
      let (s, out) := lfoStep b (voiceLfo p x l) (nth Lfo.reset x.lfo l)
      ({ x with lfo := x.lfo.set l s }, outs ++ [out])
    else (x, outs ++ [0])) (x, [])

/-! ### Envelopes -/

/-- Stages that a sum of 0 or less skips (R141, R142): DELAY and HOLD. -/
def skipStages (delay hold : Int) (v : Env) : Env :=
  let v := if v.stage = 0 ∧ delay ≤ 0 then { v with stage := 1, r := 0 } else v
  if v.stage = 2 ∧ hold ≤ 0 then { v with stage := 3, r := 0 } else v

/-- Where an envelope goes at the end of a timed stage (R143). -/
def nextStage (flags : Nat) (gate : Bool) (st : Nat) : Nat :=
  match st with
  | 0 => 1
  | 1 => 2
  | 2 => 3
  | 3 => if bit flags 1 then 5 else if bit flags 2 && gate then 1 else 4
  | _ => 6

/-- One render of an envelope (R142, R143); `d k` is its destination k. -/
def envStep (fs flags : Nat) (gate : Bool) (d : Nat → Int) (v : Env) : Env :=
  let v := skipStages (d 0) (d 2) v
  if v.stage = 4 then { v with y := coef01 (d 4) }
  else if 6 ≤ v.stage then { v with y := 0 }
  else
    let n := logTime fs (d (if v.stage = 5 then 5 else v.stage))
    let r := min (v.r + (2 ^ 48 + n - 1) / n) (2 ^ 48)
    let l1 : Int := if v.stage = 0 then v.l0 else if v.stage ≤ 2 then 2 ^ 30 else if v.stage = 3 then coef01 (d 4) else 0
    let q : Int := (r / 2 ^ 16 : Nat)
    let y := v.l0 + rnd 94 ((l1 - v.l0) * (q * 2 ^ 62 + coef11 (d 7) * (q * (2 ^ 32 - q))))
    if r = 2 ^ 48 then { stage := nextStage flags gate v.stage, r := 0, l0 := y, y := y } else { v with r := r, y := y }

/-- The envelope stage and its six outputs (R118, R143). -/
def envStage (fs : Nat) (p : List Byte) (x : Voice) : Voice × List Int :=
  (List.range 6).foldl (fun (xo : Voice × List Int) e =>
    let (x, outs) := xo
    let flags := leAt p (0x180 + e * 0x40) 1
    if bit flags 0 then
      let v := envStep fs flags x.gate (fun k => x.carry (0x80 + 8 * e + k)) (nth Env.reset x.env e)
      ({ x with env := x.env.set e v }, outs ++ [satAudio (rnd 33 (v.y * coefAny (x.carry (0x80 + 8 * e + 6))))])
    else (x, outs ++ [0])) (x, [])

/-! ### Filters -/

/-- A 48-bit filter state at 2^-43 (R139), its rounding not stated. -/
def fltState (tag : Nat) (q : Q) : Int := satS 48 (eitherQ tag 43 q)

/-- sat of R139, exact. -/
def driveSat (x : Q) : Q :=
  let c : Q := if 2 * x.n < -3 * x.d then ⟨-3, 2⟩ else if 3 * x.d < 2 * x.n then ⟨3, 2⟩ else x
  c.sub ((Q.mul ⟨4, 27⟩ c).mul (c.mul c))

/-- Whether a filter's drive stage is active (R139). -/
def driveActive (p : List Byte) (f : Nat) : Bool :=
  leAt p (0x100 + f * 0x40) 1 != 0 && (patchBase p (0x62 + 16 * f) != 0 || targeted p (0x62 + 16 * f))

/-- g of R136 at 2^48, within the bound it gives. -/
def filterG (b : Block) (p : List Byte) (x : Voice) (f : Nat) (cutoff : Int) : Nat :=
  let pc := rnd 30 (((x.lay.note : Int) - 69) * 65536 * leAtS p (0x104 + f * 0x40) 4) + cutoff
  let e := pc / 786432
  let m := b.glob.tuneF * 2 ^ 48 * fxExp2 (pc % 786432).toNat 786432
  let fc := m * 2 ^ e.toNat / (fxOne * 2 ^ (-e).toNat)
  (tanWithin (max (8 * 2 ^ 64) (min (b.fs * 2 ^ 64 * 9 / 20) fc)) b.fs).toNat

/-- A filter's response before LEVEL, and its state after the render: SVF (R137), ladder (R138), OFF (R139). -/
def filterCore (mode g : Nat) (res morph drive : Int) (driven : Bool) (st : List Int) (v0 : Q) : Q × List Int :=
  let drv (q : Q) : Q := if driven then driveSat (q.mul ⟨2 ^ 30 + 15 * coef01 drive, 2 ^ 30⟩) else q
  if mode = 0 then (v0, st)
  else if mode ≤ 6 then
    let k := max (2 * (2 ^ 30 - coef01 res)) (2 ^ 21)
    let den := (2 ^ 96 + g * (g + k * 2 ^ 18)).toNat
    let a1 := roundDiv (2 ^ 126) den
    let a2 := roundDiv (g * 2 ^ 78) den
    let a3 := roundDiv ((g * g : Nat) * 2 ^ 30) den
    let ic1 : Q := ⟨nth 0 st 0, 2 ^ 43⟩
    let ic2 : Q := ⟨nth 0 st 1, 2 ^ 43⟩
    let v0 := drv v0
    let v3 := v0.sub ic2
    let v1 := (ic1.mul ⟨a1, 2 ^ 30⟩).add (v3.mul ⟨a2, 2 ^ 30⟩)
    let v2 := (ic2.add (ic1.mul ⟨a2, 2 ^ 30⟩)).add (v3.mul ⟨a3, 2 ^ 30⟩)
    let hp := (v0.sub (v1.mul ⟨k, 2 ^ 30⟩)).sub v2
    let st' := [fltState 137 ((v1.mul ⟨2, 1⟩).sub ic1), fltState 138 ((v2.mul ⟨2, 1⟩).sub ic2), 0, 0, 0]
    let m := coef11 morph
    let out := match mode with
      | 1 => v2
      | 2 => v1
      | 3 => hp
      | 4 => v2.add hp
      | 5 => v2.sub hp
      | _ => if m < 0 then (v2.mul ⟨-m, 2 ^ 30⟩).add (v1.mul ⟨2 ^ 30 + m, 2 ^ 30⟩)
             else (v1.mul ⟨2 ^ 30 - m, 2 ^ 30⟩).add (hp.mul ⟨m, 2 ^ 30⟩)
    (out, st')
  else
    let gg : Q := ⟨g, 2 ^ 48 + g⟩
    let u := drv (v0.sub (Q.mul ⟨4 * coef01 res, 2 ^ 30⟩ ⟨nth 0 st 4, 2 ^ 43⟩))
    let (_, ys, ss) := (List.range 4).foldl (fun (a : Q × List Q × List Int) i =>
      let s : Q := ⟨nth 0 st i, 2 ^ 43⟩
      let v := (a.1.sub s).mul gg
      let y := v.add s
      (y, a.2.1 ++ [y], a.2.2 ++ [fltState 139 (y.add v)])) (u, [], [])
    let y4 := ys.getD 3 ⟨0, 1⟩
    (if mode = 7 then y4 else ys.getD 1 ⟨0, 1⟩, ss ++ [fltState 140 y4])

/-- One filter of a voice: its audio output and its state (R134 to R139). -/
def filterStep (b : Block) (p : List Byte) (x : Voice) (dests : List Int) (f : Nat) (v0 : Q) : Int × List Int :=
  let d (k : Nat) := nth 0 dests (0x60 + 16 * f + k)
  let mode := leAt p (0x100 + f * 0x40) 1
  let g := if mode = 0 then 0 else filterG b p x f (d 0)
  let (y, st) := filterCore mode g (d 1) (d 3) (d 2) (driveActive p f) (nth [] x.flt f) v0
  ((y.mul ⟨coefPos (d 4), 2 ^ 30⟩).audio, st)

/-- OSC_ROUTE of oscillator n (R140). -/
def oscRoute (p : List Byte) (n : Nat) : Nat := leAt p (0x400 + n) 1

/-- The sum of OSC_LEVEL times output over the oscillators whose route satisfies a test, at 2^57 (R140, R153). -/
def routedSum (p : List Byte) (x : Voice) (dests : List Int) (goes : Nat → Bool) : Int :=
  (List.range 4).foldl (fun s n =>
    if goes (oscRoute p n) then s + coefPos (nth 0 dests (0xC8 + n)) * (x.oscN n).out else s) 0

/-- FLT_ROUTE is SERIAL (R140). -/
def serialFilters (p : List Byte) : Bool := leAt p 0x404 1 == 0

/-- The filter stage (R118, R140). -/
def filterStage (b : Block) (p : List Byte) (x : Voice) (dests : List Int) : Voice :=
  let (y0, s0) := filterStep b p x dests 0 ⟨routedSum p x dests (fun r => r == 0 || r == 2), 2 ^ 57⟩
  let in1 := routedSum p x dests (fun r => r == 1 || r == 2) + (if serialFilters p then y0 * 2 ^ 30 else 0)
  let (y1, s1) := filterStep b p x dests 1 ⟨in1, 2 ^ 57⟩
  { x with flt := [s0, s1], fltOut := [y0, y1] }

/-! ### Output -/

/-- Whether some oscillator is routed as a test says. -/
def someRoute (p : List Byte) (goes : Nat → Bool) : Bool := (List.range 4).any (fun n => goes (oscRoute p n))

/-- Which branches are live: F0, F1, D (R153). -/
def branchLive (p : List Byte) (i : Nat) : Bool :=
  match i with
  | 0 => !serialFilters p && someRoute p (fun r => r == 0 || r == 2)
  | 1 => someRoute p (fun r => r == 1 || r == 2) || (serialFilters p && someRoute p (fun r => r == 0 || r == 2))
  | _ => someRoute p (fun r => r == 3)

/-- The gain of the dismissal ramp's next render, over N (R188). -/
def dismissGain (x : Voice) : Nat × Nat := if x.dismN = 0 then (1, 1) else (x.dismN - (x.dismDone + 1), x.dismN)

/-- The gain of the SILENCE_VOICES ramp's next render, over 4 (R74). -/
def silenceGain (x : Voice) : Nat × Nat :=
  match x.silence with
  | none => (1, 1)
  | some k => (4 - (k + 1), 4)

/-- L and R of R153 at 2^165. -/
def branchSum (p : List Byte) (x : Voice) (dests : List Int) (env0 : Int) : Int × Int :=
  let a := coefPos (nth 0 dests 0xCC) * clamp 0 (2 ^ 28) env0
  let pan := coefAny (nth 0 dests 0xCD)
  (List.range 3).foldl (fun (s : Int × Int) i =>
    if branchLive p i then
      let v : Int := match i with
        | 0 => nth 0 x.fltOut 0 * 2 ^ 30
        | 1 => nth 0 x.fltOut 1 * 2 ^ 30
        | _ => routedSum p x dests (fun r => r == 3)
      let t := (coef11 (pan + coefAny (nth 0 dests (0xCE + i))) + 2 ^ 30).toNat
      (s.1 + a * v * quarterSin (2 ^ 31 - t), s.2 + a * v * quarterSin t)
    else s) (0, 0)

/-- The output stage (R153, R188): the pushes, whether any saturated, and VOICE_OUT. -/
def outputStage (p : List Byte) (x : Voice) (dests : List Int) (env0 : Int) : List Push × Bool × Int :=
  let (l, r) := branchSum p x dests env0
  let (g1, n1) := dismissGain x
  let (g2, n2) := silenceGain x
  let exact (s : Int) (d : Nat) : Int := roundDiv (s * coefPos (nth 0 dests d) * (g1 * g2 : Nat)) (2 ^ 168 * (n1 * n2))
  let one (bus d : Nat) : Push × Bool :=
    let el := exact l d
    let er := exact r d
    ({ bus := bus, l := satAudio el, r := satAudio er }, el != satAudio el || er != satAudio er)
  let all := one (leAt p 0x405 1) 0xD1 :: (List.range 4).map (fun s => one (leAt p (0x406 + s) 1) (0xD2 + s))
  let dry := (one (leAt p 0x405 1) 0xD1).1
  (all.map (·.1), all.any (·.2), eitherWay 123 1 (dry.l + dry.r))

/-! ### The render -/

/-- One render of a voice (R118, R119): its stages in order. Answers the voice, its pushes and whether a push saturated. -/
def renderVoice (b : Block) (v : Nat) (x : Voice) : Block × Voice × List Push × Bool :=
  let p := b.patch x.patch
  let (b, x) := rampStage b p v x
  let (x, lfos) := lfoStage b p x
  let (x, envs) := envStage b.fs p x
  let dests := matrix b p x envs lfos
  let (b, x) := oscStage b p x dests v
  let x := filterStage b p x dests
  let (pushes, clip, vout) := outputStage p x dests (nth 0 envs 0)
  let x := { x with
    voiceOut := vout, env0 := nth 0 envs 0, pushed := pushes, renders := min (x.renders + 1) (2 ^ 32 - 1)
    macros := (List.range 32).map (fun m => satAudio (nth 0 dests (0xE0 + m)))
    carried := (List.range 72).map (fun i => destRange (0x80 + i) (nth 0 dests (0x80 + i)))
    dismDone := if x.dismN = 0 then x.dismDone else x.dismDone + 1
    silence := x.silence.map (· + 1) }
  (b, x, pushes, clip)

/-! ### Arming -/

/-- NOTE_RANDOM (R124). -/
def noteRandom (b : Block) (v id : Nat) : Int := xorshift32 (seedOf b v id 8) / 2 ^ 5

/-- The phase that an LFO starts with (R147): in FREE mode that of the window of the voice's first render. -/
def lfoStart (b : Block) (p : List Byte) (l bound : Nat) : Nat :=
  if leAt p (0x301 + l * 0x40) 1 = 1 then
    lfoInc b.fs (patchBase p (0xB0 + 6 * l)) * (b.pairCount bound / b.period) % 2 ^ 32
  else 0

/-- The state that arming gives a voice (R89, R105, R120, R124, R144, R147, R148, R156): everything from the patch's record and the
layer; an LFO's held value h is not stated and left free within the generator's range (notes/assumptions/2.md). -/
def armVoice (b : Block) (v : Nat) (x : Voice) : Block × Voice :=
  let p := b.patch x.patch
  let id := x.lay.noteId
  let (hs, b) := (List.range 4).foldl (fun (a : List Int × Block) _ =>
    let (k, b) := a.2.fresh 148
    (a.1 ++ [within 148 [k] (-(2 ^ 27)) (2 ^ 27 - 1)], b)) ([], b)
  let x := { x with
    armed := true, gate := true, relVel := 0, perNote := [0, 0, 0, 0], renders := 0
    random := noteRandom b v id
    osc := x.osc.mapIdx (fun n o => armOsc b p v id x.lay.note n x.start o)
    flt := List.replicate 2 [0, 0, 0, 0, 0], fltOut := [0, 0]
    env := List.replicate 6 Env.reset
    lfo := (List.range 4).map (fun l =>
      { Lfo.reset with acc := lfoStart b p l x.start, gen := seedOf b v id (4 + l), h := nth 0 hs l, hPrev := nth 0 hs l })
    ramp := List.replicate 4 none
    base := (List.range 256).map (patchBase p)
    voiceOut := 0, env0 := 0, pushed := [] }
  let dests := prepassDests b p x
  let x := { x with
    macros := (List.range 32).map (fun m => satAudio (nth 0 dests (0xE0 + m)))
    carried := (List.range 72).map (fun i => destRange (0x80 + i) (nth 0 dests (0x80 + i))) }
  startSamples (closeVoiceSlots b v) p v x dests

end Sys2Proof.Machine
end

