-- ==== Sys2Proof/Machine/SlateMem.lean ====
section
/-! DEFINITION. Slate memory: accesses, collisions, ECC, atomics, handovers, pins and escorts (09 R341 to R366). -/

namespace Sys2Proof.Machine

/-- What port A and port B do to each other in one cycle on one storage word (R350): whether port A writes, the word it
writes, and the other port. -/
def collide (off : Nat) (after : Option Nat) (portB : OtherPort) (b : Block) : Block :=
  match after, portB with
  | _, .none => b
  | none, .read => b
  | some _, .read => collision 1 off b
  | none, .write _ => collision 1 off b
  | some v, .write d => if v = d.toNat then b else collision 0 off b

/-- What a port-A read returns: a colliding port-B write makes it undefined, a free value (R348, R350). -/
def portARead (off : Nat) (wide : Bool) (portB : OtherPort) (b : Block) : Nat × Block :=
  match portB with
  | .write _ =>
    let (l, b) := b.freshWord
    let (h, b) := b.freshWord
    (if wide then l + 2 ^ 32 * h else l, b)
  | _ => (if wide then slateWord b off else ofLE (b.slateBytes (off / 4 * 4) 4), checkRead off b)

/-- A 32-bit write by port A (R343, R349, R350): its first cycle reads the word, its second writes it. A port-B write in the
first makes the half that the write leaves undefined. -/
def portAWrite32 (off v : Nat) (portB : TwoCycles) (b : Block) : Block :=
  let b := collide off none portB.first b
  match portB.first with
  | .write _ =>
    let (k, b) := b.freshWord
    let w := putBits (putBits 0 31 0 k + 2 ^ 32 * k) (off / 4 % 2 * 32 + 31) (off / 4 % 2 * 32) v
    portAStore (off / 8 * 8) (toLE 8 w) (collide off (some w) portB.second b)
  | _ =>
    let b := collide off (some (mergedWord b off v)) portB.second b
    portAStore (off / 4 * 4) (toLE 4 v) (checkMerge off b)

/-- A Proctor read of a bank it does not own, by port B (R342, R345, R350, R351): always performed, and tried again after a
busy response. -/
def portBRead (off : Nat) (wide : Bool) (portA : OtherPort) (b : Block) : Nat × Block :=
  let b := match portA with
    | .write d => portAStore (off / 8 * 8) (toLE 8 d.toNat) (collision 1 off b)
    | _ => b
  (if wide then slateWord b off else ofLE (b.slateBytes (off / 4 * 4) 4), checkRead off b)

/-- SLATE_ACCESS (R342 to R352, R358): `other` is what the other port does to the same storage word in the access's cycles, one
or two, and bits of the word may have flipped before it. -/
def slateAccess (req off : Nat) (op : SlateOp) (other : TwoCycles) (upset : BitVec 72) (b : Block) : Block :=
  if !b.flag fSLATE_STAT_FUSE_DONE then b
  else
    let b := hurtWord off upset b
    let read (wide : Bool) : Block :=
      if req = rqPROCTOR ∧ !slateMay b req (bankOf off) then
        let (v, b) := portBRead off wide other.first b
        { b with slate := { b.slate with readOut := v } }
      else
        let (may, b) := portAEnter req off b
        if may then
          let (v, b) := portARead off wide other.first (collide off none other.first b)
          { b with slate := { b.slate with readOut := v } }
        else { b with slate := { b.slate with readOut := 0 } }
    let write (f : Block → Block) : Block :=
      let (may, b) := portAEnter req off b
      if may then f b else b
    match op with
    | .read32 => read false
    | .read64 => read true
    | .write32 d => write (portAWrite32 off d.toNat other)
    | .write64 d => write (fun b => portAStore (off / 8 * 8) (toLE 8 d.toNat) (collide off (some d.toNat) other.first b))

/-- An atomic operation (R353): only the Proctor and the event cores issue one, in a bank they own or in COMMONS; against port
B it is a write in both its cycles. -/
def atomicOp (req off : Nat) (f : Nat → Nat) (portB : TwoCycles) (b : Block) : Block :=
  if !b.flag fSLATE_STAT_FUSE_DONE || (req != rqPROCTOR && req != rqEVT) then b
  else
    let (may, b) := portAEnter req off b
    if !may then { b with slate := { b.slate with readOut := 0 } }
    else
      let o := off / 4 * 4
      let old := ofLE (b.slateBytes o 4)
      let new := f old % 2 ^ 32
      let w := some (mergedWord b off new)
      let b := checkMerge off (collide off w portB.second (collide off w portB.first b))
      portAStore o (toLE 4 new) { b with slate := { b.slate with readOut := old } }

/-- ECC_WRITE_BACK (R348, R351): the oldest corrected word is written back, or abandoned on a busy response. -/
def eccWriteBack (portA : OtherPort) (b : Block) : Block :=
  match b.slate.writeBacks with
  | [] => b
  | (off, w) :: rest =>
    let b := { b with slate := { b.slate with writeBacks := rest } }
    if borrowed b (bankOf off) then b
    else
      match portA with
      | .none => b.setSlate off (toLE 8 w)
      | .read =>
        let (v, b) := b.freshWord
        collision 1 off { b with slate := { b.slate with readOut := v } }
      | .write d => portAStore off (toLE 8 d.toNat) (if d.toNat = w then b else collision 0 off b)

/-! ### Handover, pins, commons -/

/-- A bank takes its pending owner; a handover whose last bank this is ends (R346). -/
def applyOwner (bank : Nat) (b : Block) : Block :=
  let b := (b.wr (fSLATE_OWNER_OWNER.at bank) (b.rd (fSLATE_OWNER_PENDING.at bank))).wr (fSLATE_OWNER_AT_BOUNDARY.at bank) 0
  let hs := b.slate.handovers.map (fun h => (h.1, h.2.1, h.2.2.filter (· != bank)))
  let b := { b with slate := { b.slate with handovers := hs.filter (fun h => !h.2.2.isEmpty) } }
  forL (hs.filter (fun h => h.2.2.isEmpty)) (fun h b => (b.finish h.1 h.2.1 false (ok [])).raise evSLATE_HANDOVER_DONE) b

/-- The time of a bank's change has come: at once, or when its slice ends where it is borrowed (R346). -/
def ownerDue (bank : Nat) (b : Block) : Block :=
  if borrowed b bank then { b with slate := { b.slate with ripe := b.slate.ripe ++ [bank] } } else applyOwner bank b

/-- A bank changes owner as a mechanism of the part orders it (R230, R236). -/
def giveBank (own bank : Nat) (b : Block) : Block := ownerDue bank (b.wr (fSLATE_OWNER_PENDING.at bank) own)

/-- A bank awaits a new owner. -/
def ownerPends (b : Block) (bank : Nat) : Bool :=
  b.rd (fSLATE_OWNER_PENDING.at bank) != b.owner bank

/-- The banks of a mask. -/
def banksIn (mask : Nat) : List Nat := (List.range 64).filter (bit mask)

/-- Banks in the committed lists of tables, the retiring and the pending ones (R222, R366). -/
def generationBanks (b : Block) : List Nat :=
  (List.range 128).flatMap (fun t =>
    let x := tableX b t
    (if tableState b t = 2 then committedBanks b t else []) ++
    (match x.retire with | some r => r.1 | none => []) ++ (match x.pend with | some g => g.banks | none => []) ++
    (match x.freed with | some r => r.1 | none => []))

/-- Ring banks (R248). -/
def ringBanks (b : Block) : List Nat :=
  let n := (b.rd fSTRM_CFG_SLOTS * ringSize b + 2 ^ 19 - 1) / 2 ^ 19
  (List.range n).map (· + b.rd fSTRM_RING_BANK_BANK)

/-- Ring banks and head banks (R248). -/
def streamBanks (b : Block) : List Nat := ringBanks b ++ banksIn (b.word64 rSTRM_HEAD)

/-- A bank is held by a running mechanism (R366). -/
def bankHeld (b : Block) (bank : Nat) : Bool :=
  (generationBanks b).contains bank || (b.flag fSTRM_CTRL_ENABLE && (streamBanks b).contains bank) ||
  (List.range 4).any (fun c => b.flag (fBDSP_CTRL_RUN.at c) && bit (b.word64 (rBDSP_BANKS + 0x1000 * c)) bank)

def anyClassEnabled (b : Block) : Bool := (List.range 64).any (fun c => b.flag (fCLASS_CFG_ENABLE.at c))

/-- A bank under destructive test (R359, R555): named by a memory BIST of the slate. -/
def destructive (b : Block) (bank : Nat) : Bool :=
  match b.tst.bist with
  | some t => bit t.targets 16 && bit t.banks bank
  | none => false

def mSlateHandover : Meaning where
  chk p b :=
    let banks := banksIn (leAt p 0 8)
    let own := leAt p 8 1
    if banks.any (bankHeld b) then some .notOwner
    else if banks.any (fun k => b.owner k == rqDISABLED) then some .bankDisabled
    else if 11 < own || 1 < leAt p 9 1 then some .badField
    else if banks.any (destructive b) then some .regionBorrowed
    else none
  eff tok stamp p b :=
    let banks := banksIn (leAt p 0 8)
    let own := leAt p 8 1
    let b := forL banks (fun k b =>
      (b.wr (fSLATE_OWNER_PENDING.at k) own).wr (fSLATE_OWNER_AT_BOUNDARY.at k) (leAt p 9 1)) b
    let wait := banks.filter (fun k => b.owner k != own)
    if wait.isEmpty then (ok [], b.raise evSLATE_HANDOVER_DONE)
    else (.later, { b with slate := { b.slate with handovers := b.slate.handovers ++ [(tok, stamp, wait)] } })

def mSlatePin : Meaning where
  chk p b :=
    if 1 < leAt p 8 1 then some .badField
    else if leAt p 8 1 = 0 ∧ anyClassEnabled b ∧
        (banksIn (leAt p 0 8)).any (fun k => b.owner k == rqVOICE || b.owner k == rqSTRM) then some .badField
    else none
  eff _ _ p b :=
    let m := leAt p 0 8
    let old := b.word64 rSLATE_PINNED
    (ok [], b.setWord64 rSLATE_PINNED (if leAt p 8 1 = 1 then Nat.lor old m else old - Nat.land old m))

def mSlateSetCommons : Meaning where
  chk p _ := if Nat.land (leAt p 0 2) (0xFFFF - 0x03C6) ≠ 0 then some .badField else none
  eff _ _ p b := (ok [], b.wr fSLATE_COMMONS_MEMBERS (leAt p 0 2))

/-- SLATE_STATUS (R365). The fifth counter is named nowhere: R363 lists four; the reply's last word is a free value. -/
def mSlateStatus : Meaning := plain (fun _ b =>
  let (k, b) := b.freshWord
  (ok ([rSLATE_STAT, rSLATE_COLL_ADDR, rSLATE_FAULT_ADDR, rSLATE_ECC_ADDR, rSLATE_COLL_COUNT, rSLATE_ECC_CORR_COUNT,
    rSLATE_ECC_UNCORR_COUNT, rSLATE_BORROW_STALLS].flatMap (fun a => toLE 4 (b.word a)) ++ toLE 4 k), b))

/-! ### Escorts -/

/-- Every bank that a range of slate touches (R354). -/
def banksOfRange (off len : Nat) : List Nat :=
  (List.range ((off + len - 1) / 2 ^ 19 + 1 - off / 2 ^ 19)).map (· + off / 2 ^ 19)

/-- SLATE_ESCORT (R354, R359); a source in LPDDR5 that is not trained is refused as every use of it is (R398, DEDUCED,
notes/assumptions/16.md). -/
def mSlateEscort : Meaning where
  chk p b :=
    let req := leAt p 0 1
    let space := leAt p 1 1
    let src := leAt p 4 8
    let dst := leAt p 12 4
    let len := leAt p 16 4
    if 1 < space || (11 < req && req != 15) || len = 0 || len % 8 != 0 then some .badField
    else if space == 1 && !b.flag fSTRM_LIB_STAT_LPDDR_TRAINED then some .lpddrNotTrained
    else if 2 ^ 25 < dst + len || (space == 0 && decide (2 ^ 25 < src + len)) ||
        (space == 1 && decide (fittedBytes b < src + len)) then some .badField
    else if (banksOfRange dst len).any (fun k => b.owner k != req || req == 0 || req == rqDISABLED) then some .regionNotOwned
    else if space = 0 ∧ src < dst + len ∧ dst < src + len then some .regionOverlap
    else if 5 ≤ b.slate.escorts.length then some .busyBackpressure
    else if (banksOfRange dst len).any (destructive b) || (space == 0 && (banksOfRange src len).any (destructive b)) then
      some .regionBorrowed
    else none
  eff tok stamp p b :=
    let e : Escort :=
      { tok := tok, stamp := stamp, req := leAt p 0 1, space := leAt p 1 1, src := leAt p 4 8, dst := leAt p 12 4,
        len := leAt p 16 4, moved := 0 }
    (.later, { b with slate := { b.slate with escorts := b.slate.escorts ++ [e] } })

/-- The running escort ends where a destination bank has changed owner (R356). -/
def checkEscort (b : Block) : Block :=
  match b.slate.escorts with
  | e :: rest =>
    if (banksOfRange e.dst e.len).any (fun k => b.owner k != e.req) then
      ({ b with slate := { b.slate with escorts := rest } }).finish e.tok e.stamp false
        (failedWith .regionNotOwned (toLE 4 e.moved))
    else b
  | [] => b

/-- ESCORT_TRANSFER (R355, R356): the running escort moves 8 bytes, read in one free port-B cycle where they lie in slate and
written in a second; a busy response to either is retried (R351). -/
def escortTransfer (portA : TwoCycles) (b : Block) : Block :=
  let b := checkEscort b
  match b.slate.escorts with
  | [] => b
  | e :: rest =>
    let d := e.dst + e.moved
    let src := e.src + e.moved
    let slate := e.space == 0
    let bs := if slate then b.slateBytes src 8 else b.lpddrBytes src 8
    if !b.flag fSLATE_STAT_FUSE_DONE || borrowed b (bankOf d) || (slate && borrowed b (bankOf src)) then b
    else
      let go (b : Block) : Block :=
        let m := e.moved + 8
        if e.len ≤ m then
          ({ b with slate := { b.slate with escorts := rest } }).finish e.tok e.stamp false (ok (toLE 4 e.len))
        else { b with slate := { b.slate with escorts := { e with moved := m } :: rest } }
      match slate, portA.first with
      | true, .write w => portAStore (src / 8 * 8) (toLE 8 w.toNat) (collision 1 src b)
      | _, _ =>
        let b := if slate then checkRead src b else b
        match portA.second with
        | .none => go (b.setSlate d bs)
        | .read =>
          let (v, b) := b.freshWord
          collision 1 d { b with slate := { b.slate with readOut := v } }
        | .write w =>
          if w.toNat = ofLE bs then go (portAStore d bs b)
          else collision 0 d (portAStore (d / 8 * 8) (toLE 8 w.toNat) b)

def execSlateAccess (req off : Nat) (op : SlateOp) (other : TwoCycles) (upset : BitVec 72) (s : State) :=
  doneIf (Instr.wf (.slateAccess req off op other upset)) (slateAccess req off op other upset) s
def execAtomicAdd (req off : Nat) (v : Word) (portB : TwoCycles) (s : State) :=
  doneIf (Instr.wf (.atomicAdd req off v portB)) (atomicOp req off (· + v.toNat) portB) s
def execAtomicSwap (req off : Nat) (v : Word) (portB : TwoCycles) (s : State) :=
  doneIf (Instr.wf (.atomicSwap req off v portB)) (atomicOp req off (fun _ => v.toNat) portB) s
def execEccWriteBack (portA : OtherPort) (s : State) := done (eccWriteBack portA) s
def execEscortTransfer (portA : TwoCycles) (s : State) := done (escortTransfer portA) s
def execSlateHandover (c : Cmd) (s : State) := done (command 0x0600 mSlateHandover c) s
def execSlatePin (c : Cmd) (s : State) := done (command 0x0601 mSlatePin c) s
def execSlateEscort (c : Cmd) (s : State) := done (command 0x0602 mSlateEscort c) s
def execSlateSetCommons (c : Cmd) (s : State) := done (command 0x0603 mSlateSetCommons c) s
def execSlateStatus (c : Cmd) (s : State) := done (command 0x0604 mSlateStatus c) s

end Sys2Proof.Machine
end

