-- ==== Sys2Proof/Machine/Sched.lean ====
section
/-! DEFINITION. The event island's operations: the trace, seats, the seat allocator, stealing, rolls and timetables (05 R167
to R209; 15 R502, R503, R506; 16 R534). -/

namespace Sys2Proof.Machine

/-! ### Record bytes -/

/-- The 24 bytes of an event record (R172). -/
def recordBytes (r : EventRecord) : List Byte :=
  [r.type, r.flags, r.port, r.note] ++ toLE 2 r.target.toNat ++ toLE 2 r.noteId.toNat ++ toLE 4 r.value.toNat ++
  toLE 6 r.dueTime.toNat ++ toLE 2 r.seq.toNat ++ toLE 4 r.value2.toNat

/-- The event record that 24 bytes spell (R172). -/
def recordOf (bs : List Byte) : EventRecord :=
  { type := BitVec.ofNat 8 (leAt bs 0 1), flags := BitVec.ofNat 8 (leAt bs 1 1), port := BitVec.ofNat 8 (leAt bs 2 1),
    note := BitVec.ofNat 8 (leAt bs 3 1), target := BitVec.ofNat 16 (leAt bs 4 2), noteId := BitVec.ofNat 16 (leAt bs 6 2),
    value := BitVec.ofNat 32 (leAt bs 8 4), dueTime := BitVec.ofNat 48 (leAt bs 12 6), seq := BitVec.ofNat 16 (leAt bs 18 2),
    value2 := BitVec.ofNat 32 (leAt bs 20 4) }

/-! ### The wake journal of the allocator (15 R509) -/

/-- A signed number in n bytes. -/
def sLE (n : Nat) (x : Int) : List Byte := toLE n (unsx (8 * n) x)

/-- The seat (R209). -/
def seatImage (x : Voice) : List Byte :=
  toLE 1 (x.st + 64 * b2n x.lay.clsTarget + 128 * b2n x.held) ++ toLE 1 x.lay.cls ++ toLE 1 x.lay.note ++ toLE 1 x.lay.key ++
  toLE 1 x.lay.port ++ toLE 1 x.lay.bank ++ toLE 2 x.lay.chan ++ toLE 2 x.lay.noteId ++ toLE 2 x.patch ++ sLE 4 x.lay.vel ++
  sLE 4 x.relVel ++ (List.range 4).flatMap (fun i => sLE 4 (nth 0 x.perNote i)) ++ toLE 6 x.stamp ++ toLE 6 x.start ++
  toLE 2 x.dismN ++ toLE 2 x.dismDone ++ toLE 2 x.minLeft ++ toLE 4 x.renders

/-- The address of a voice's 4 KiB (R114). -/
def voiceAt (v : Nat) : Nat := 0x01000000 + v % 16 * 0x40000 + v / 16 * 0x1000

/-- The seat and the times of a voice as the pair counts them (R209, R500). -/
def pairVoice (b : Block) (x : Voice) : Voice := { x with stamp := b.pairCount x.stamp, start := b.pairCount x.start }

/-- A change that waits for the seat's next ramp stage, as the journal names it: an offset behind the seat, and a value
(notes/assumptions/20.md). -/
def changeWord (c : GateChange) : Nat × Int :=
  match c with
  | .off vel => (0x40, vel)
  | .retrigger vel => (0x44, vel)
  | .perNote i v => (0x48 + 4 * i, v)

/-- What an outcome of the allocator did to a seat: the words of the seat that it changed, and the changes it sent there (R509). -/
def logSeat (was : Voice) (v : Nat) (b : Block) : Block :=
  let x := b.voice v
  let old := seatImage (pairVoice b was)
  let new := seatImage (pairVoice b x)
  let b := forN 15 (fun i b =>
    if leAt old (4 * i) 4 = leAt new (4 * i) 4 then b else logOutcome (voiceAt v + 4 * i) (leAt new (4 * i) 4) b) b
  forL (if was.changes.isPrefixOf x.changes then x.changes.drop was.changes.length else x.changes) (fun c b =>
    logOutcome (voiceAt v + (changeWord c).1) (unsx 32 (changeWord c).2) b) b

/-- Work of the allocator, journaled with the voices it touched (R509). -/
def journaled (f : Block → Block) (b : Block) : Block :=
  let b' := f b
  if b'.logsOutcomes then
    forL ((b.voices ++ b'.voices).map (·.1)).eraseDups (fun v c => if b.voice v = c.voice v then c else logSeat (b.voice v) v c) b'
  else b'

/-! ### Event records -/

def evtNoteOn := 1
def evtNoteOff := 2
def evtController := 6
def evtChannelPressure := 7
def evtPitchBend := 8
def evtModWrite := 9
def evtCancel := 10
def evtAllNotesOff := 11
def evtAllSoundOff := 12
def evtWork := 16

def rType (r : EventRecord) : Nat := r.type.toNat
def rDue (r : EventRecord) : Bool := bit r.flags.toNat 0
def rClassTarget (r : EventRecord) : Bool := bit r.flags.toNat 1
def rLate (r : EventRecord) : Bool := bit r.flags.toNat 2
def rRoll (r : EventRecord) : Nat := bitsOf r.flags.toNat 6 4
def rVal (r : EventRecord) : Int := sext 32 r.value.toNat
def setFlag (r : EventRecord) (i : Nat) (v : Bool) : EventRecord :=
  { r with flags := BitVec.ofNat 8 (putBits r.flags.toNat i i (b2n v)) }

/-- Direct types (R174). -/
def isDirect (t : Nat) : Bool := (decide (1 ≤ t) && decide (t ≤ 5)) || (decide (10 ≤ t) && decide (t ≤ 12))

/-- A bad record (R173). -/
def badRecord (r : EventRecord) : Bool :=
  bit r.flags.toNat 3 || bit r.flags.toNat 7 || !typeListed (rType r) ||
  (rType r == evtController && decide (127 < r.value2.toNat)) || (rType r == 5 && decide (1 < r.value2.toNat))

/-- The timetable of a type (R202). -/
def ttOf (t : Nat) : Nat :=
  if t = evtController ∨ t = evtChannelPressure ∨ t = evtPitchBend then 0
  else if t = evtModWrite then 1 else if t = evtWork then 3 else 2

/-! ### The trace (R207, R208) -/

/-- Writes a trace record: type, core, handle and detail. -/
def trace (type core handle detail : Nat) (b : Block) : Block :=
  if b.flag fSCHED_TRACE_CFG_EN && bit (b.rd fSCHED_TRACE_CFG_TYPES) (type - 1) && !b.sched.traceStopped then
    let w := b.rd fSCHED_TRACE_WPTR_WPTR
    let size := b.rd fSCHED_TRACE_CFG_SIZE
    let rec_ := toLE 6 b.now ++ toLE 1 type ++ toLE 1 core ++ toLE 4 handle ++ toLE 4 detail
    let b := slateStore rqEVT (b.rd fSCHED_TRACE_BASE_ADDR * 16 + w * 16) rec_ b
    if w + 1 < size then b.wr fSCHED_TRACE_WPTR_WPTR (w + 1)
    else if b.rd fSCHED_TRACE_CFG_MODE = 0 then (b.wr fSCHED_TRACE_WPTR_WPTR 0).raise evTRACE_WRAP
    else ({ b.wr fSCHED_TRACE_WPTR_WPTR (w + 1) with sched := { b.sched with traceStopped := true } }).raise evTRACE_STOPPED
  else b

def traceDiscard (r : EventRecord) (why : Nat) (b : Block) : Block := trace 5 8 0 (rType r + 256 * why) b

/-! ### The pool and the timetables (R198, R199, R202, R206) -/

/-- Descriptors in use: queued and dispatched. -/
def poolUsed (b : Block) : Nat :=
  b.sched.rolls.foldl (fun n l => n + l.length) 0 + (b.sched.cores.filter (·.isSome)).length

/-- SCHED_POOL.FREE. -/
def poolFree (b : Block) : Nat := 4096 - poolUsed b

/-- The onset events follow the pool and the timetables (R206): the rolls are full when no descriptor is free, a timetable at
2,048 entries. -/
def noteFills (b : Block) : Block :=
  let low := decide (poolFree b < b.rd fSCHED_POOL_HWM)
  let full := decide (poolFree b = 0)
  let ttFull := (List.range 4).map (fun i => decide (2048 ≤ (nth [] b.sched.tts i).length))
  let was := b.sched
  let b := { b with sched := { b.sched with lowPool := low, rollFull := full, ttFull := ttFull } }
  let b := b.raiseIf (low && !was.lowPool) evROLL_HIGH_WATER
  let b := if full && !was.rollFull then trace 10 8 0 0 (b.raise evROLL_FULL_BP) else b
  forN 4 (fun i b =>
    if nth false ttFull i && !nth false was.ttFull i then trace 10 9 0 (i + 1) (b.raise evTT_FULL_BP) else b) b

/-- The LINK fields of a roll (R199): each descriptor names the next. -/
def relink : List Item → List Item
  | a :: c :: l => { a with link := c.handle } :: relink (c :: l)
  | l => l

/-- The 32 bytes of a descriptor (R199). -/
def descriptorBytes (i : Item) : List Byte :=
  recordBytes i.ev ++ toLE 2 i.handler ++ toLE 1 (i.roll + 2 ^ 6 * b2n i.late + 2 ^ 7 * b2n i.lateCancel) ++ [0] ++ toLE 2 i.link ++
  toLE 2 i.handle

/-! ### Seating rules as lookups see them (R213) -/

/-- A field of a seating rule in effect. -/
def Block.rule (b : Block) (f : Fld) : Nat := bitsOf (smGet (fun _ => 0) b.sched.rules f.addr) f.hi f.lo

/-- The words of rule i as they stand come into effect. -/
def commitRule (i : Nat) (b : Block) : Block :=
  let a := rSCHED_RULE_W0 + 0x10 * i
  let put (m : List (Nat × Nat)) (k : Nat) := smSet (fun _ => 0) m (a + 4 * k) (b.word (a + 4 * k))
  { b with sched := { b.sched with rules := (List.range 3).foldl put b.sched.rules } }

/-- A word written to a seating rule: it is held until W0 is written, and comes into effect with the others then (R213; DEDUCED,
notes/assumptions/13.md). -/
def writeRule (a v : Nat) (b : Block) : Block :=
  let b := b.put a v
  if a % 0x10 = rSCHED_RULE_W0 % 0x10 then commitRule ((a - rSCHED_RULE_W0) / 0x10) b else b

/-! ### Classes and seats -/

def classOn (b : Block) (c : Nat) : Bool := b.flag (fCLASS_CFG_ENABLE.at c)

/-- CLASS_BLOCKS as one mask. -/
def classBlocks (b : Block) (c : Nat) : Nat := b.word64 (rCLASS_BLOCKS + 0x20 * c)

/-- The reserve pool as one mask (R169). -/
def reserveBlocks (b : Block) : Nat := b.word64 rSCHED_RESERVE

/-- The voices of the blocks in a mask that are live, in ascending number (R167). -/
def liveSeats (b : Block) (mask : Nat) : List Nat :=
  (banksIn mask).flatMap (fun k => ((List.range 16).map (· + 16 * k)).filter b.live)

/-- Seats that a planned hand-off has taken or will take. -/
def claimed (b : Block) (v : Nat) : Bool := b.sched.handoffs.any (fun h => h.reserve == v || h.victim == v)

def isFree (b : Block) (v : Nat) : Bool := (b.voice v).st == 0 && !claimed b v

/-- Seats held by a class: active under R181, reserve seats apart. -/
def activeOf (b : Block) (c : Nat) : Nat :=
  (b.voices.filter (fun e => e.2.st != 0 && e.2.victimOf == none && e.2.lay.cls == c)).length

/-- Reserve seats dismissing a class's victims (CLASS_STAT.RESERVED_IN_USE). -/
def reservedOf (b : Block) (c : Nat) : Nat := (b.voices.filter (fun e => e.2.st != 0 && e.2.victimOf == some c)).length

/-- An enabled or draining class (R171). -/
def classHeld (b : Block) (c : Nat) : Bool := classOn b c || activeOf b c != 0 || reservedOf b c != 0

/-- Slot and lane of a voice. -/
def slotOf (v : Nat) : Nat := v / 16
def laneOf (v : Nat) : Nat := v % 16

/-- The slot mark of a voice in the open window (R18). -/
def slotMark (b : Block) (s : Nat) : Nat := (b.lastBound + s * (b.period / max 1 b.slots)) % tideMod

/-- The lane has started the voice's slot in the open window. -/
def slotStarted (b : Block) (v : Nat) : Bool :=
  let l := b.lane (laneOf v)
  decide (slotOf v < l.next) || l.busy == some (slotOf v)

/-- The lane is through with the voice's slot in the open window. -/
def slotDone (b : Block) (v : Nat) : Bool :=
  let l := b.lane (laneOf v)
  decide (slotOf v < l.next) && l.busy != some (slotOf v)

/-- A seat is late with a margin in ticks (R27, R187): the decision is taken at the Tide count it falls in
(notes/assumptions/10.md). -/
def lateBy (b : Block) (v margin : Nat) : Bool :=
  b.live v && b.tide.bound.isSome && !slotStarted b v &&
  decide (margin ≤ b.ahead (slotMark b (slotOf v))) && decide (b.ahead (slotMark b (slotOf v)) < 2 ^ 47)

/-- M of R27, and the hand-off margin of R187. -/
def marginM (b : Block) : Nat := if b.pwr.vclk = 1 then 5 else 3
def marginHand (b : Block) : Nat := if b.pwr.vclk = 1 then 13 else 7

/-- Seats of a lane that are not FREE (R181). -/
def laneBusy (b : Block) (l : Nat) : Nat :=
  (b.voices.filter (fun e => e.1 % 16 == l && e.2.st != 0)).length +
  (b.sched.handoffs.filter (fun h => h.reserve % 16 == l)).length

/-- The best seat of a pool: the least busy lane, then the lowest number (R181). -/
def bestSeat (b : Block) (pool : List Nat) : Option Nat :=
  pool.foldl (fun m v =>
    match m with
    | none => some v
    | some w => if laneBusy b (laneOf v) < laneBusy b (laneOf w) ∨ (laneBusy b (laneOf v) = laneBusy b (laneOf w) ∧ v < w)
                then some v else m) none

/-- How long ago an arm stamp was. -/
def stampAge (b : Block) (t : Nat) : Nat := (b.now + tideMod - t % tideMod) % tideMod

/-- The seat that comes first under a key, then by the earlier arm stamp, then by the lower number (R186). -/
def firstBy (b : Block) (key : Voice → Int) (pool : List Nat) : Option Nat :=
  pool.foldl (fun m v =>
    match m with
    | none => some v
    | some w =>
      let x := b.voice v
      let y := b.voice w
      if key x < key y then some v
      else if key y < key x then m
      else if stampAge b y.stamp < stampAge b x.stamp then some v
      else if stampAge b x.stamp < stampAge b y.stamp then m
      else if v < w then some v else m) none

/-- A seat and a layer or record have the same port, channel with its mark, and key (R192). -/
def sameKey (x : Voice) (port chan : Nat) (ct : Bool) (key : Nat) : Bool :=
  x.lay.port == port && x.lay.chan == chan && x.lay.clsTarget == ct && x.lay.key == key

/-- Ends a PATCH_SWAP whose old patch no seat holds any longer (R215). -/
def finishSwaps (b : Block) : Block :=
  let held (p : Nat × Nat) := b.voices.any (fun e =>
    e.2.st != 0 && e.2.patch == p.2 && (e.2.lay.cls == p.1 || e.2.victimOf == some p.1))
  let left := b.sched.swaps.filter held
  let ended := b.sched.swaps.length - left.length
  forN ended (fun _ b => b.raise evPATCH_SWAP_DONE) { b with sched := { b.sched with swaps := left } }

/-- Puts a layer into a seat: PENDING, to be armed, with its first render in the window opened at a boundary (R181, R182,
R209). -/
def placeLayer (v start : Nat) (l : Layer) (b : Block) : Block :=
  let b := b.modVoice v (fun x =>
    { x with st := 1, held := false, lay := l, patch := b.rd (fCLASS_CFG_PATCH.at l.cls), relVel := 0,
             perNote := [0, 0, 0, 0], stamp := b.now, start := start, dismN := 0, dismDone := 0,
             minLeft := if l.cut then l.minGate else 0, minGate := l.cut,
             renders := 0, armed := false, gate := true, changes := [], silence := none, waiting := none, victimOf := none,
             pushed := [] })
  trace 3 8 v (l.cls + 2 ^ 16 * l.noteId) b

/-- The boundary at which a layer placed after the present first renders: its own where it is timed, else the next. -/
def nextStart (b : Block) (l : Layer) : Nat :=
  match l.due with
  | some d => if b.ahead (b.boundAt d) < 2 ^ 47 ∧ b.ahead b.nextBound < b.ahead (b.boundAt d) then b.boundAt d else b.nextBound
  | none => b.nextBound

/-- A seat becomes FREE (R197): its streams close, and a layer that waited for it is armed there (R190). -/
def freeSeat (v : Nat) (b : Block) : Block :=
  let x := b.voice v
  let b := closeVoiceSlots b v
  let b := b.setVoice v { x with st := 0, held := false, armed := false, gate := false, dismN := 0, dismDone := 0,
                                 minGate := false, minLeft := 0, changes := [], silence := none, waiting := none,
                                 victimOf := none }
  let b := match x.waiting with
    | some l => journaled (placeLayer v (nextStart b l) l) b
    | none => b
  finishSwaps b

/-- The N of a class's dismissal (R188). -/
def dismissOf (b : Block) (c : Nat) : Nat := 16 * (b.rd (fCLASS_CFG_DISMISS.at c) + 1)

/-- The copy of a hand-off and the seating of its new layer (R187): the victim's voice and streams go to the reserve seat. -/
def handOver (h : HandOff) (b : Block) : Block :=
  let b := { b with sched := { b.sched with handoffs := b.sched.handoffs.filter (· != h) } }
  let x := b.voice h.victim
  let b :=
    if x.st = 0 then b
    else
      let b := b.setVoice h.reserve { x with
        st := 4, held := false, dismN := h.dismN, dismDone := 0, victimOf := some x.lay.cls, start := h.start }
      { b with store := { b.store with
        slots := b.store.slots.map (fun s => if s.voice = h.victim then { s with voice := h.reserve } else s) } }
  placeLayer h.victim h.start { h.layer with moved := true } b

/-- A hand-off takes place, and the wake journal names it (R187, R509, R510). -/
def doHandOff (h : HandOff) (b : Block) : Block :=
  journaled (handOver h) (logOutcome (voiceAt h.reserve + 0x60) h.victim b)

/-- Whether a planned hand-off may copy now (R187). -/
def handOffReady (b : Block) (h : HandOff) : Bool :=
  if h.wait then
    b.lastBound == h.start || ((b.lastBound + b.period) % tideMod == h.start && slotDone b h.victim)
  else true

/-- HAND_OFF (R187): the copy planned for a victim takes place when its time has come. -/
def handOff (v : Nat) (b : Block) : Block :=
  match b.sched.handoffs.find? (fun h => h.victim == v && handOffReady b h) with
  | some h => doHandOff h b
  | none => b

/-! ### The allocator (R181 to R191) -/

/-- The victim for a layer (R185, R186). -/
def victim (b : Block) (l : Layer) : Option Nat :=
  let cands := (liveSeats b (classBlocks b l.cls)).filter (fun v =>
    let x := b.voice v
    (x.st == 2 || x.st == 3) && x.lay.cls == l.cls && !claimed b v)
  let oldest := firstBy b (fun _ => 0)
  let released := cands.filter (fun v => (b.voice v).st == 3)
  let relOldest := if released.isEmpty then oldest cands else oldest released
  match b.rd (fCLASS_CFG_POLICY.at l.cls) with
  | 0 => none
  | 1 => oldest cands
  | 2 => relOldest
  | 3 => firstBy b (fun x => (x.env0.natAbs : Int)) cands
  | 4 => firstBy b (fun x => (x.lay.note : Int)) cands
  | 5 => firstBy b (fun x => -(x.lay.note : Int)) cands
  | _ =>
    let same := cands.filter (fun v => sameKey (b.voice v) l.port l.chan l.clsTarget l.key)
    if same.isEmpty then relOldest else oldest same

/-- STEAL (R184): kind 0 hand-off, 1 waiting, 2 hard. -/
def noteSteal (v kind : Nat) (l : Layer) (b : Block) : Block :=
  trace 4 8 v (v + 2 ^ 16 * b.rd (fCLASS_CFG_POLICY.at l.cls) + 2 ^ 24 * kind)
    ((b.countUp fSCHED_STEAL_COUNT_COUNT 1).raise evSTEAL)

/-- A dismissal in place over n renders with the layer that follows (R190, R191). -/
def stealInPlace (v n : Nat) (l : Layer) (b : Block) : Block :=
  b.modVoice v (fun x => { x with st := 4, held := false, dismN := n, dismDone := 0, waiting := some l })

/-- A retrigger of a seat (R143, R181): note ID at once, the rest in its next ramp stage; the gate of a note cancelled on its way
falls at its m-th render (R195). -/
def retrigger (v : Nat) (l : Layer) (b : Block) : Block :=
  b.modVoice v (fun x =>
    { x with lay := { x.lay with noteId := l.noteId, minGate := l.minGate }, held := false
             minGate := l.cut, minLeft := if l.cut then l.minGate else 0, changes := x.changes ++ [.retrigger l.vel] })

/-- A seat sounds a note that a layer retriggers (R181, R192). -/
def retriggers (b : Block) (l : Layer) (v : Nat) : Bool :=
  let x := b.voice v
  (x.st == 2 || x.st == 3) && x.lay.cls == l.cls && !claimed b v && sameKey x l.port l.chan l.clsTarget l.key

/-- Seats one layer (R181). -/
def seatLayer (l : Layer) (b : Block) : Block :=
  let seats := liveSeats b (classBlocks b l.cls)
  let same := if b.flag (fCLASS_CFG_RETRIG_SAME.at l.cls) then
      firstBy b (fun _ => 0) (seats.filter (retriggers b l))
    else none
  match same with
  | some v =>
    match l.due with
    | none => retrigger v l b
    | some _ => { b with sched := { b.sched with timed := b.sched.timed ++ [{ at_ := nextStart b l, act := .retrigger v l }] } }
  | none =>
    let free := if activeOf b l.cls < b.rd (fCLASS_POLY_MAX.at l.cls) then seats.filter (isFree b) else []
    let late := if l.due.isNone then free.filter (fun v => lateBy b v (marginM b)) else []
    match bestSeat b (if late.isEmpty then free else late) with
    | some v => placeLayer v (if late.isEmpty then nextStart b l else b.lastBound) l b
    | none =>
      match victim b l with
      | none =>
        trace 5 8 0 (1 + 256) ((b.countUp fSCHED_DROP_COUNT_COUNT 1).raise evSTEAL_NO_VICTIM)
      | some v =>
        match (liveSeats b (reserveBlocks b)).find? (fun r => laneOf r == laneOf v && isFree b r) with
        | some r =>
          let b := noteSteal v 0 l b
          if l.due.isNone && lateBy b v (marginHand b) && lateBy b r (marginHand b) then
            { b with sched := { b.sched with handoffs := b.sched.handoffs ++ [
              { victim := v, reserve := r, layer := l, wait := false, start := b.lastBound, dismN := dismissOf b l.cls }] } }
          else
            { b with sched := { b.sched with handoffs := b.sched.handoffs ++ [
              { victim := v, reserve := r, layer := l, wait := true, start := nextStart b l, dismN := dismissOf b l.cls }] } }
        | none =>
          if b.rd (fCLASS_CFG_FALLBACK.at l.cls) = 0 then stealInPlace v (dismissOf b l.cls) l (noteSteal v 1 l b)
          else stealInPlace v 4 l (noteSteal v 2 l b)

/-- A seating rule matches an event's port and channel (R177, R179). -/
def ruleHears (b : Block) (i : Nat) (r : EventRecord) : Bool :=
  let p := b.rule (fSCHED_RULE_W0_PORT.at i)
  let c := b.rule (fSCHED_RULE_W0_CHANNEL.at i)
  b.rule (fSCHED_RULE_W0_VALID.at i) != 0 && (p == 0xFF || p == r.port.toNat) && (c == 0xFFFF || c == r.target.toNat)

/-- A seating rule matches a note-on, and its class is enabled (R177). -/
def ruleMatches (b : Block) (i : Nat) (r : EventRecord) (vel : Int) : Bool :=
  let v := (vel * 255 / 2 ^ 27).toNat
  ruleHears b i r &&
  decide (b.rule (fSCHED_RULE_W1_NOTE_LO.at i) ≤ r.note.toNat) && decide (r.note.toNat ≤ b.rule (fSCHED_RULE_W1_NOTE_HI.at i)) &&
  decide (b.rule (fSCHED_RULE_W1_VEL_LO.at i) ≤ v) && decide (v ≤ b.rule (fSCHED_RULE_W1_VEL_HI.at i)) &&
  classOn b (b.rule (fSCHED_RULE_W2_CLASS.at i))

/-- The layers of a note-on (R177, R178, R192): none where it matches nothing, so that it is discarded. A NOTE byte above 127 is taken
as it is (DESIGN CHOICE, notes/assumptions/47.md). -/
def layersOf (b : Block) (r : EventRecord) (due : Option Nat) (came : Nat) : Option (List Layer) :=
  let vel := clamp 0 (2 ^ 27) (rVal r)
  let mk (c bank note : Nat) : Layer :=
    { cls := c, bank := bank, note := note, key := r.note.toNat, port := r.port.toNat, chan := r.target.toNat,
      clsTarget := rClassTarget r, noteId := r.noteId.toNat, vel := vel, due := due, stamp := b.now, came := came,
      minGate := b.rd (fCLASS_POLY_MIN_GATE.at c), cut := false, first := false, moved := false }
  if rClassTarget r then
    let c := bitsOf r.target.toNat 5 0
    if classOn b c then some [mk c (bitsOf r.target.toNat 13 8) r.note.toNat] else none
  else
    match ((List.range 256).filter (fun i => ruleMatches b i r vel)).take 4 with
    | [] => none
    | is => some (is.filterMap (fun i =>
        let n : Int := r.note.toNat + sext 8 (b.rule (fSCHED_RULE_W2_TRANSPOSE.at i))
        if 0 ≤ n ∧ n ≤ 127 then
          some (mk (b.rule (fSCHED_RULE_W2_CLASS.at i)) (b.rule (fSCHED_RULE_W2_BANK.at i)) n.toNat)
        else none))

/-- A NOTE_ON takes the next note ID where it has none (R175). -/
def giveId (r : EventRecord) (b : Block) : EventRecord × Block :=
  if r.noteId = 0 then
    let n := b.rd fSCHED_NOTE_ID_NEXT_NEXT
    ({ r with noteId := BitVec.ofNat 16 n }, b.wr fSCHED_NOTE_ID_NEXT_NEXT (if n = 0xFFFF then 1 else n + 1))
  else (r, b)

/-- A cancellation of a note that has not sounded, MIN_GATE 0 (R195). -/
def noteCancel (id handle : Nat) (b : Block) : Block :=
  trace 6 8 handle id ((b.countUp fSCHED_CANCEL_COUNT_COUNT 1).raise evCANCEL_AT_READY)

/-- A note-on at the allocator (R177 to R182), stamped at a tick: `cut` where it was cancelled in its timetable, so that its layers
with MIN_GATE 0 never sound (R195). -/
def allocate (r : EventRecord) (due : Option Nat) (cut : Bool) (came : Nat) (b : Block) : Block :=
  let (r, b) := giveId r b
  match layersOf b r due came with
  | none => traceDiscard r 0 b
  | some ls =>
    let gone := ls.filter (fun l => cut && l.minGate == 0)
    let b := forL gone (fun l b => noteCancel l.noteId 0 b) b
    let ls := (ls.filter (fun l => !(cut && l.minGate == 0))).map (fun l => { l with cut := cut })
    (ls.foldl (fun (a : Bool × Block) l => (false, seatLayer { l with first := a.1 } a.2)) (true, b)).2

/-! ### Note-off, cancel and per-note events (R192 to R196) -/

/-- The layers on their way to a seat: behind a dismissal, a hand-off, or the boundary of a retrigger (R190, R195). -/
def pendingLayers (b : Block) : List Layer :=
  b.voices.filterMap (fun e => e.2.waiting) ++ b.sched.handoffs.map (·.layer) ++
  b.sched.timed.filterMap (fun t => match t.act with | .retrigger _ l => some l | .event _ _ => none)

/-- A seat is among those that direct events address. -/
def seatHears (states : List Nat) (x : Voice) : Bool := states.contains x.st && x.victimOf == none

/-- The ID of the oldest note with a record's port, channel and key, among the seats in the states given and the layers on their
way (R192). -/
def oldestId (b : Block) (r : EventRecord) (states : List Nat) : Option Nat :=
  let port := r.port.toNat
  let chan := r.target.toNat
  let key := r.note.toNat
  let ct := rClassTarget r
  let seats := (b.voices.filter (fun e => seatHears states e.2 && sameKey e.2 port chan ct key)).map
    (fun e => (e.2.stamp, e.2.lay.noteId))
  let layers := ((pendingLayers b).filter (fun l => l.port == port && l.chan == chan && l.clsTarget == ct && l.key == key)).map
    (fun l => (l.stamp, l.noteId))
  ((seats ++ layers).foldl (fun (m : Option (Nat × Nat)) s =>
    match m with
    | none => some s
    | some t => if stampAge b t.1 < stampAge b s.1 then some s else m) none).map (·.2)

/-- The ID that a record addresses: its own, or that of the oldest note with its port, channel and key; 0 for none. -/
def addressedId (b : Block) (r : EventRecord) (states : List Nat) : Nat :=
  if r.noteId ≠ 0 then r.noteId.toNat else (oldestId b r states).getD 0

/-- The seats that a note-off or per-note event addresses: every layer of the note (R192, R193). -/
def addressed (b : Block) (r : EventRecord) (states : List Nat) : List Nat :=
  let id := addressedId b r states
  if id = 0 then [] else (b.voices.filter (fun e => seatHears states e.2 && e.2.lay.noteId == id)).map (·.1)

/-- A PENDING seat whose note is cancelled (R195). -/
def cancelSeat (v : Nat) (b : Block) : Block :=
  let x := b.voice v
  let m := x.lay.minGate
  if m = 0 then freeSeat v (noteCancel x.lay.noteId v b)
  else if x.minGate then b
  else b.setVoice v { x with minGate := true, minLeft := m }

/-- Layers with an ID, and where given a port, that wait for a dismissal, a hand-off or a retrigger's boundary are cancelled
(R195). -/
def cancelWaiting (id : Nat) (port : Option Nat) (b : Block) : Block :=
  let hit (l : Layer) := l.noteId == id && (match port with | some p => l.port == p | none => true)
  let b := forL (b.voices.filter (fun e => match e.2.waiting with | some l => hit l | none => false)) (fun e b =>
    match e.2.waiting with
    | some l =>
      if l.minGate = 0 then (noteCancel id e.1 b).modVoice e.1 (fun x => { x with waiting := none })
      else b.modVoice e.1 (fun x => { x with waiting := some { l with cut := true } })
    | none => b) b
  let b := forL (b.sched.handoffs.filter (fun h => hit h.layer)) (fun h b =>
    if h.layer.minGate = 0 then
      noteCancel id h.victim { b with sched := { b.sched with handoffs := b.sched.handoffs.filter (· != h) } }
    else
      { b with sched := { b.sched with
        handoffs := b.sched.handoffs.map (fun g => if g = h then { h with layer := { h.layer with cut := true } } else g) } }) b
  forL b.sched.timed (fun t b =>
    match t.act with
    | .retrigger v l =>
      if !hit l then b
      else if l.minGate = 0 then noteCancel id v { b with sched := { b.sched with timed := b.sched.timed.erase t } }
      else { b with sched := { b.sched with
        timed := b.sched.timed.map (fun u => if u = t then { t with act := .retrigger v { l with cut := true } } else u) } }
    | .event _ _ => b) b

/-- Note-ons of timetable 2 that a note-off or CANCEL finds are cancelled: dropped, or kept with a mark where a class they
reach has a minimum gate (R195). -/
def cancelEntries (hit : TTEntry → Bool) (b : Block) : Block :=
  let gated (e : TTEntry) := match layersOf b e.ev (some e.due) e.came.tick with
    | some ls => ls.any (fun l => l.minGate != 0)
    | none => false
  let tt := nth [] b.sched.tts 2
  let gone := tt.filter (fun e => hit e && !gated e)
  let kept := (tt.filter (fun e => !(hit e && !gated e))).map (fun e => if hit e then { e with cut := true } else e)
  let b := { b with sched := { b.sched with tts := b.sched.tts.set 2 kept } }
  noteFills (forL gone (fun e b => noteCancel e.ev.noteId.toNat 0 b) b)

/-- Note-ons with an ID, and where given a port, still in timetable 2 are cancelled (R195). -/
def cancelTimed (id : Nat) (port : Option Nat) (b : Block) : Block :=
  cancelEntries (fun e => rType e.ev == evtNoteOn && e.ev.noteId.toNat == id &&
    (match port with | some p => e.ev.port.toNat == p | none => true)) b

/-- A NOTE_OFF without an ID that addresses no seat and no waiting layer: the earliest note-on of its port, channel and key
still in timetable 2 is cancelled, whatever its ID (R192, R195). DEDUCED -/
def cancelTimedKey (r : EventRecord) (b : Block) : Block :=
  match (nth [] b.sched.tts 2).find? (fun e => rType e.ev == evtNoteOn && e.ev.port == r.port && e.ev.target == r.target &&
      e.ev.note == r.note && rClassTarget e.ev == rClassTarget r && !e.cut) with
  | some e => cancelEntries (· == e) b
  | none => b

/-- A gate falls, or the seat is HELD under sustain (R192, R196). -/
def gateOff (v : Nat) (vel : Int) (b : Block) : Block :=
  let x := b.voice v
  let k := b.bankL x.lay.bank
  if b.flag (fCLASS_CFG_SUSTAIN_HOLD.at x.lay.cls) && decide (2 ^ 26 ≤ nth 0 k.cc 64) then
    b.setVoice v { x with held := true, relVel := vel }
  else b.setVoice v { x with relVel := vel, changes := x.changes ++ [.off vel] }

/-- NOTE_OFF due now (R192, R195, R196). -/
def noteOffNow (r : EventRecord) (b : Block) : Block :=
  let vel := clamp 0 (2 ^ 27) (rVal r)
  let id := addressedId b r [1, 2]
  let seats := addressed b r [1, 2]
  let b := if id = 0 then b else cancelWaiting id none b
  let b := if r.noteId ≠ 0 then cancelTimed id none b else if id = 0 then cancelTimedKey r b else b
  forL seats (fun v b => if (b.voice v).st = 1 then cancelSeat v b else gateOff v vel b) b

/-- POLY_PRESSURE, NOTE_BEND and NOTE_CTRL due now (R193). -/
def perNoteNow (r : EventRecord) (b : Block) : Block :=
  let i := if rType r = 3 then 0 else if rType r = 4 then 1 else 2 + r.value2.toNat
  let v := if rType r = 4 then clamp (-(2 ^ 27)) (2 ^ 27) (rVal r) else clamp 0 (2 ^ 27) (rVal r)
  forL (addressed b r [1, 2, 3]) (fun s b => b.modVoice s (fun x => { x with changes := x.changes ++ [.perNote i v] })) b

/-- The seats that ALL_NOTES_OFF and ALL_SOUND_OFF address (R192, R193). -/
def allOf (b : Block) (r : EventRecord) : List Nat :=
  (b.voices.filter (fun e => e.2.st != 0 && e.2.victimOf == none &&
    (if rClassTarget r then e.2.lay.cls == bitsOf r.target.toNat 5 0
     else e.2.lay.port == r.port.toNat && e.2.lay.chan == r.target.toNat && !e.2.lay.clsTarget))).map (·.1)

/-- ALL_NOTES_OFF due now (R193): as a NOTE_OFF on each seat; its release velocity is not stated and left free. -/
def allNotesOffNow (r : EventRecord) (b : Block) : Block :=
  let (k, b) := b.fresh 193
  let vel : Int := (k % (2 ^ 27 + 1) : Nat)
  forL (allOf b r) (fun v b =>
    let st := (b.voice v).st
    if st = 1 then cancelSeat v b else if st = 2 then gateOff v vel b else b) b

/-- ALL_SOUND_OFF due now (R193): a hard ramp on each seat, arming nothing, so that a hand-off planned for it falls away; a seat that
has not rendered is freed at once. -/
def allSoundOffNow (r : EventRecord) (b : Block) : Block :=
  forL (allOf b r) (fun v b =>
    let x := b.voice v
    let b := { b with sched := { b.sched with handoffs := b.sched.handoffs.filter (fun h => h.victim != v) } }
    if x.st = 1 then freeSeat v b
    else if x.st = 4 ∧ x.dismN ≤ x.dismDone + 4 then b.setVoice v { x with waiting := none }
    else b.setVoice v { x with st := 4, held := false, dismN := 4, dismDone := 0, waiting := none }) b

/-- Roll items that a CANCEL finds (R200): queued ones are removed, dispatched ones marked. -/
def cancelRolls (r : EventRecord) (b : Block) : Block :=
  let hit (i : Item) := i.ev.noteId == r.noteId && i.ev.port == r.port
  let gone := b.sched.rolls.flatMap (·.filter hit)
  let b := noteFills { b with sched := { b.sched with rolls := b.sched.rolls.map (fun l => relink (l.filter (fun i => !hit i))) } }
  let b := forL gone (fun i b => noteCancel i.ev.noteId.toNat i.handle b) b
  forL ((List.range 8).filter (fun c => match nth none b.sched.cores c with | some i => hit i | none => false)) (fun c b =>
    match nth none b.sched.cores c with
    | some i => trace 7 c i.handle i.ev.noteId.toNat
        { b with sched := { b.sched with cores := b.sched.cores.set c (some { i with lateCancel := true }) } }
    | none => b) b

/-- CANCEL (R195, R200). -/
def cancelNow (r : EventRecord) (b : Block) : Block :=
  if r.noteId = 0 then b
  else
    let id := r.noteId.toNat
    let seats := (b.voices.filter (fun e => e.2.st == 1 && e.2.lay.noteId == id && e.2.lay.port == r.port.toNat)).map (·.1)
    let b := cancelTimed id (some r.port.toNat) (cancelWaiting id (some r.port.toNat) b)
    let b := forL seats cancelSeat b
    cancelRolls r b

/-- The allocator is at work: a shadow's takes over at the step-in boundary only (R509, R511). -/
def allocates (b : Block) : Bool :=
  let st := b.rd fFERRY_STAT_STATE
  !(b.isShadow && decide (3 ≤ st) && decide (st ≤ 5))

/-- What a direct event does at the allocator (R174, R192 to R195). -/
def directWork (r : EventRecord) (due : Option Nat) (cut : Bool) (came : Nat) (b : Block) : Block :=
  match rType r with
  | 1 => allocate r due cut came b
  | 2 => noteOffNow r b
  | 10 => cancelNow r b
  | 11 => allNotesOffNow r b
  | 12 => allSoundOffNow r b
  | _ => perNoteNow r b

/-- A direct event at the allocator. -/
def directNow (r : EventRecord) (due : Option Nat) (cut : Bool) (came : Nat) (b : Block) : Block :=
  if allocates b then journaled (directWork r due cut came) b else b

/-! ### Rolls and timetables (R198 to R206) -/

/-- A pool index not in use; which one a record draws is not stated (R198, R199). -/
def drawHandle (b : Block) : Nat × Block :=
  let (k, b) := b.fresh 198
  let used := b.sched.rolls.flatMap (·.map (·.handle)) ++ b.sched.cores.filterMap (·.map (·.handle))
  (((List.range 4096).map (fun i => (i + k) % 4096)).find? (fun h => !used.contains h) |>.getD 0, b)

/-- Appends a record to its roll (R198). Answers false where the pool is empty. What LINK holds in the last descriptor of a roll is
not stated, and free. -/
def appendRoll (r : EventRecord) (came : Arrival) (b : Block) : Bool × Block :=
  if poolFree b = 0 then (false, b)
  else
    let (h, b) := drawHandle b
    let (k, b) := b.fresh 200
    let roll := rRoll r
    let it : Item :=
      { ev := r, handler := Config.freeNat 199 (rType r) % 65536, roll := roll, late := rLate r, lateCancel := false
        link := k % 4096, handle := h, came := came }
    (true, noteFills { b with sched := { b.sched with rolls := b.sched.rolls.modify roll (fun l => relink (l ++ [it])) } })

/-- The sort key of a due time around the present. -/
def dueKey (b : Block) (t : Nat) : Nat := (t + 2 ^ 47 + tideMod - b.now) % tideMod

/-- Inserts an entry behind those with an equal or earlier due time (R202, R203). -/
def insertDue (b : Block) (e : TTEntry) : List TTEntry → List TTEntry
  | [] => [e]
  | x :: xs => if dueKey b x.due ≤ dueKey b e.due then x :: insertDue b e xs else e :: x :: xs

/-- Inserts a record with a future due time into its timetable (R202). Answers false where it is full. -/
def insertTimetable (r : EventRecord) (came : Arrival) (b : Block) : Bool × Block :=
  let i := ttOf (rType r)
  let tt := nth [] b.sched.tts i
  if 2048 ≤ tt.length then (false, b)
  else (true, noteFills { b with sched := { b.sched with
    tts := b.sched.tts.set i (insertDue b { ev := r, due := r.dueTime.toNat, cut := false, came := came } tt) } })

/-- A NOTE_ON held in LISTEN starts the transition to WAKE_MODE, at the rate and VOICE clock used last, where SET_MODE would
accept it (R534). -/
def wakeUp (b : Block) : Block :=
  let m := b.rd fCPR_WAKE_CFG_WAKE_MODE
  let f := b.foreseen b.now
  if b.flag fCPR_WAKE_CFG_WAKE_EN && b.pwr.changes.all (·.tok.isSome) && !f.sameMode m b.pwr.rate b.pwr.vclk &&
      (f.modeRefusal m b.pwr.rate b.pwr.vclk 0).isNone then
    startChange { mode := m, rate := b.pwr.rate, clk := b.pwr.vclk, due := b.now, tok := none, late := false, timed := false,
                  src := some f.mode } b
  else b

/-- A direct event due now in LISTEN (R534): held in the wake queue of 64, further ones discarded; each with the time it counts
from: its DUE_TIME where it comes from a timetable, else its stamp. -/
def holdWake (r : EventRecord) (time : Nat) (b : Block) : Block :=
  if 64 ≤ b.pwr.wake.length then traceDiscard r 0 b
  else
    let b := { b with pwr := { b.pwr with wake := b.pwr.wake ++ [(r, time)] } }
    if rType r = evtNoteOn then wakeUp b else b

/-- An event or command takes its place in the order of arrival. -/
def Block.arrive (b : Block) (tick : Nat) : Arrival × Block :=
  ({ tick := tick, seq := b.sched.arrivals }, { b with sched := { b.sched with arrivals := b.sched.arrivals + 1 } })

/-- A record with its stamp enters the event island (R174, R176). Answers false where a roll or timetable is full: the producer
keeps it. -/
def enter (r : EventRecord) (stamp : Nat) (b : Block) : Bool × Block :=
  let (came, b) := b.arrive stamp
  let t := r.dueTime.toNat
  let past := rDue r && b.isPast t
  let r := setFlag r 2 (rLate r || past)
  if rDue r && !b.hasCome t && rType r != evtCancel then insertTimetable r came b
  else if isDirect (rType r) then
    let b := b.raiseIf past evTT_LATE_INSERT
    if b.effMode = mLISTEN then (true, holdWake r stamp b) else (true, directNow r none false stamp b)
  else
    let (ok, b) := appendRoll r came b
    (ok, b.raiseIf (ok && past) evTT_LATE_INSERT)

/-- The ferry due time of a record entering a PRIMARY's event island, from its due time or stamp (R502). -/
def ferryDue (r : EventRecord) (stamp : Nat) (b : Block) : EventRecord × Bool :=
  let t := r.dueTime.toNat
  let past := rDue r && b.isPast t
  let d := if rDue r && !past then t else stamp
  (setFlag (setFlag { r with dueTime := BitVec.ofNat 48 (d + 2 * b.period) } 0 true) 2 past, past)

/-- A record with its stamp (R24) offered by one of the device's own producers (R172, R173, R502, R503, R506). Answers false where
it must wait, while EVT is off as well (R400). -/
def offer (r : EventRecord) (stamp : Nat) (b : Block) : Bool × Block :=
  if !b.on dEVT then (false, b)
  else
    let r := setFlag r 2 false
    if b.isShadow then (true, b.countUp fFERRY_OWN_DROP_COUNT 1)
    else if badRecord r then (true, traceDiscard r 2 b)
    else if b.isPrimary then
      let inStep := b.rd fFERRY_STAT_STATE == 6
      if inStep && b.fry.credits == 0 then (false, b)
      else
        let (r', past) := ferryDue r stamp b
        let (ok, b') := enter r' stamp b
        if ok then
          let b' := b'.raiseIf past evTT_LATE_INSERT
          let b' := if inStep then { b' with fry := { b'.fry with credits := b'.fry.credits - 1 } } else b'
          (true, sendFrame 1 (recordBytes { r' with dueTime := BitVec.ofNat 48 (b'.pairCount r'.dueTime.toNat) }) b')
        else (false, b')
    else enter r stamp b

/-- A record row: a record of a type arrives at the event island. One that finds no place stays with its producer (R206). -/
def offerAs (type : Nat) (r : EventRecord) (b : Block) : Block := (offer { r with type := BitVec.ofNat 8 type } b.now b).2

/-! ### Channel banks and mod writes -/

/-- The banks that a channel event updates (R179). -/
def banksFor (b : Block) (r : EventRecord) : List Nat :=
  if rClassTarget r then [bitsOf r.target.toNat 13 8]
  else
    let hear := ((List.range 256).filter (fun i => ruleHears b i r)).map (fun i => b.rule (fSCHED_RULE_W2_BANK.at i))
    (List.range 64).filter hear.contains

/-- A CONTROLLER, CHANNEL_PRESSURE or PITCH_BEND updates its banks (R174, R179). -/
def updateBanks (r : EventRecord) (b : Block) : Block :=
  let pos := clamp 0 (2 ^ 27) (rVal r)
  let f (k : Bank) : Bank :=
    match rType r with
    | 6 => { k with cc := k.cc.set r.value2.toNat pos }
    | 7 => { k with press := pos }
    | _ => { k with bend := clamp (-(2 ^ 27)) (2 ^ 27) (rVal r) }
  forL (banksFor b r) (fun i b => { b with glob := { b.glob with
    banks := smSet (fun _ => Bank.reset) b.glob.banks i (f (smGet (fun _ => Bank.reset) b.glob.banks i)) } }) b

/-- A faulting mod address (R155). -/
def modFault (addr : Nat) (b : Block) : Block :=
  let b := if b.flag fVOICE_MOD_FAULT_VALID then b
    else (b.wr fVOICE_MOD_FAULT_VALID 1).wr fVOICE_MOD_FAULT_ADDR addr
  b.raise evMOD_ADDR_FAULT

/-- A mod write waits for the first boundary at or after a time, behind those that arrived before it (R155). -/
def queueMod (addr : Nat) (value : Int) (at_ seq : Nat) (b : Block) : Block :=
  let (old, new) := b.glob.mods.partition (fun m => decide (m.seq ≤ seq))
  { b with glob := { b.glob with mods := old ++ { at_ := at_, seq := seq, addr := addr, value := value } :: new } }

/-- A channel event or mod write whose time has come (R155, R179). -/
def applyRoll (r : EventRecord) (at_ seq : Nat) (b : Block) : Block :=
  match rType r with
  | 6 | 7 | 8 => updateBanks r b
  | 9 =>
    let a := r.value2.toNat % 2 ^ 18
    if destReserved (a % 256) then modFault a b else queueMod a (destValue (a % 256) r.value.toNat) at_ seq b
  | _ => b

/-- The boundary at which a timed record takes effect, and whether it has already opened (R205). -/
def effectOf (b : Block) (r : EventRecord) : Option Nat :=
  let k := b.boundAt r.dueTime.toNat
  if rDue r && !b.hasCome k then some k else none

/-- LATE of a released entry whose boundary has opened (R205, R207): the trace record gives the ticks late, and for a roll event its
descriptor. -/
def traceLate (handle : Nat) (r : EventRecord) (b : Block) : Block :=
  if rDue r && !rLate r && b.hasCome (b.boundAt r.dueTime.toNat) then
    trace 8 9 handle (min (stampAge b r.dueTime.toNat) (2 ^ 32 - 1)) b
  else b

/-- The effect of a roll event's handler (R174, R179, R205; R429 for the PROGRAM handler of serial and USB ports). -/
def handlerEffect (it : Item) (b : Block) : Block :=
  let r := it.ev
  let seq := it.came.seq
  if rType r = evtWork then
    if r.port.toNat < 5 then
      ((b.wr (fSER_LASTPROG_VALID.at r.port.toNat) 1).wr (fSER_LASTPROG_CHANNEL.at r.port.toNat) r.value2.toNat).wr
        (fSER_LASTPROG_PROGRAM.at r.port.toNat) r.value.toNat
    else b
  else
    match effectOf b r with
    | some k =>
      if rType r = evtModWrite then applyRoll r k seq b
      else if k = b.nextBound then applyRoll r k seq b
      else { b with sched := { b.sched with timed := b.sched.timed ++ [{ at_ := k, act := .event r it.came }] } }
    | none => applyRoll r b.nextBound seq (traceLate it.handle r b)

/-- ROLL_DISPATCH (R198): the head of the lowest-numbered roll that holds an item goes to the lowest-numbered free core. -/
def rollDispatch (b : Block) : Block :=
  match (List.range 8).find? (fun c => (nth none b.sched.cores c).isNone),
        (List.range 8).find? (fun i => !(nth [] b.sched.rolls i).isEmpty) with
  | some c, some i =>
    if !b.on dEVT then b
    else
      match nth [] b.sched.rolls i with
      | it :: rest =>
        trace 1 c it.handle i { b with sched := { b.sched with
          rolls := b.sched.rolls.set i rest, cores := b.sched.cores.set c (some it) } }
      | [] => b
  | _, _ => b

/-- A handler ends on core c, and its descriptor returns to the pool (R198). The EVT cycles it ran are free. -/
def endHandler (c : Nat) (it : Item) (b : Block) : Block :=
  let b := { b with sched := { b.sched with cores := b.sched.cores.set c none, posts := b.sched.posts.set c none } }
  let (k, b) := b.freshWord
  noteFills (trace 2 c it.handle k (handlerEffect it b))

/-- An item's handler posts a record as it ends, or none; a core whose post finds no place stalls with it (R206). -/
def postAndEnd (c : Nat) (it : Item) (post : Option EventRecord) (b : Block) : Block :=
  match post with
  | none => endHandler c it b
  | some r =>
    match offer r b.now b with
    | (true, b) => endHandler c it b
    | (false, b) => { b with sched := { b.sched with posts := b.sched.posts.set c (some r) } }

/-- HANDLER_COMPLETE (R198, R206): the handler comes to its end, with the record it posts; a stalled core stays so. -/
def handlerComplete (f : HandlerEnd) (b : Block) : Block :=
  match nth none b.sched.cores f.core, nth none b.sched.posts f.core with
  | some it, none => postAndEnd f.core it f.post b
  | _, _ => b

/-- A stalled core offers its record again (R605). -/
def admitCorePost (c : Nat) (b : Block) : Block :=
  match nth none b.sched.cores c, nth none b.sched.posts c with
  | some it, some r => postAndEnd c it (some r) b
  | _, _ => b

/-- EVTCORE_HANG (R201). -/
def evtcoreHang (c : Nat) (b : Block) : Block :=
  match nth none b.sched.cores c with
  | none => b
  | some it =>
    let b := { b with sched := { b.sched with cores := b.sched.cores.set c none, posts := b.sched.posts.set c none } }
    noteFills (trace 11 c it.handle it.handler (b.raise evEVTCORE_HANG))

/-! ### The bell (R203 to R205, R386, R388) -/

/-- The timetable whose head is due next within the lead, lowest due time first, then lowest number (R204). -/
def nextRelease (b : Block) : Option (Nat × TTEntry) :=
  let lead := b.rd fSCHED_TT_LEAD_LEAD
  (List.range 4).foldl (fun m i =>
    match nth [] b.sched.tts i with
    | [] => m
    | e :: _ =>
      if b.hasCome ((e.due + tideMod - lead) % tideMod) || b.hasCome e.due then
        match m with
        | some (_, f) => if dueKey b e.due < dueKey b f.due then some (i, e) else m
        | none => some (i, e)
      else m) none

/-- A released entry takes effect (R182, R205, R534). Answers false where its roll is full. -/
def release (e : TTEntry) (b : Block) : Bool × Block :=
  let r := e.ev
  if isDirect (rType r) then
    let b := traceLate 0 r b
    let past := b.hasCome (b.boundAt e.due)
    if b.effMode = mLISTEN then
      if b.hasCome e.due then (true, holdWake r e.due b) else (true, { b with sched := { b.sched with
        timed := b.sched.timed ++ [{ at_ := b.boundAt e.due, act := .event r e.came }] } })
    else if rType r = evtNoteOn then
      (true, directNow r (if past then none else some e.due) e.cut e.came.tick b)
    else if past then (true, directNow r none false e.came.tick b)
    else (true, { b with sched := { b.sched with timed := b.sched.timed ++ [{ at_ := b.boundAt e.due, act := .event r e.came }] } })
  else appendRoll r e.came b

/-- One release of the merged order (R204). Answers whether its entry found its place. -/
def releaseOne (b : Block) : Bool × Block :=
  match nextRelease b with
  | none => (false, { b with tide := { b.tide with releasing := false } })
  | some (i, e) =>
    let (ok, b') := release e b
    if ok then (true, noteFills { b' with sched := { b'.sched with tts := b'.sched.tts.modify i (·.drop 1) } })
    else (false, { b' with tide := { b'.tide with releasing := true } })

/-- Releases entries in merged order until none is due or one finds its roll full (R204). -/
def releaseDue : Nat → Block → Block
  | 0, b => b
  | n + 1, b =>
    let (ok, b) := releaseOne b
    if ok then releaseDue n b else b

/-- A release that has stopped resumes with one entry, and ends where none is due any more (R204, R605). -/
def resumeRelease (b : Block) : Block :=
  if !b.tide.releasing then b
  else
    let (_, b) := releaseOne b
    { b with tide := { b.tide with releasing := (nextRelease b).isSome } }

/-- BELL_TICK (R204, R386, R388): the count comes to the tick in which the bell counter is at its limit; the bell ticks. -/
def bellTick (b : Block) : Block :=
  if !b.tideRuns then b
  else
    let t := (b.tide.bellFrom + b.rd fBELL_CFG_PERIOD_M1 + 1) % tideMod
    let b := if b.hasCome t then b else b.advanceTo t
    let b := { b with tide := { b.tide with bellFrom := b.now } }
    if !b.on dEVT then b
    else if b.tide.releasing then b.raise evBELL_SLIP
    else releaseDue 8192 b

/-- A tick of the Tide, with the bell where it is due in it (R386). -/
def bellingTick (b : Block) : Block :=
  if b.tideRuns && (b.tide.bellFrom + b.rd fBELL_CFG_PERIOD_M1 + 1) % tideMod == (b.now + 1) % tideMod then bellTick b else tick b

/-- A write of BELL_CFG (R387): it reaches the counter 2 to 3 ticks after it completes (a free value). -/
def bellCfgWrite (value : Nat) (b : Block) : Block :=
  let (k, b) := b.fresh 387
  setBellPeriod value (if b.tideRuns then forN (2 + k % 2) (fun _ b => bellingTick b) b else b)

/-! ### Arming (R26, R120, R562, R563) -/

/-- A latency sample (R563, R566). -/
def latSample (m v : Nat) (b : Block) : Block :=
  let bin := min 63 ((v - b.rd (fMON_BASE_BASE.at m)) / 2 ^ b.rd (fMON_CFG_LAT_SHIFT.at m))
  let b := (b.wr (fMON_MIN_VALUE.at m) (min v (b.rd (fMON_MIN_VALUE.at m)))).wr (fMON_MAX_VALUE.at m)
    (max v (b.rd (fMON_MAX_VALUE.at m)))
  let b := b.countUp (fMON_COUNT_COUNT.at m) 1
  let k := m * 64 + bin
  let old := smGet (fun _ => 0) b.tst.bins k
  let b := { b with tst := { b.tst with bins := smSet (fun _ => 0) b.tst.bins k (min (old + 1) (2 ^ 32 - 1)) } }
  let b := b.raiseIf (decide (old + 1 = 2 ^ 32 - 1)) evHISTO_SAT
  b.raiseIf (decide (b.rd (fMON_THRESH_LAT_THRESH.at m) < v)) (evLAT_MON_THRESH m)

/-- The latency monitors see a layer armed (R562). The VOICE cycles of a note that came by a port other than a serial one are
not stated and left free. -/
def latArm (x : Voice) (b : Block) : Block :=
  if !x.lay.first then b
  else
    forN 8 (fun m b =>
      let p := b.rd (fMON_CFG_LAT_PORT.at m)
      let c := b.rd (fMON_CFG_LAT_CLASS.at m)
      if b.flag (fMON_CFG_LAT_EN.at m) && (p == 0xFF || p == x.lay.port) && (c == 0xFF || c == x.lay.cls) then
        match b.rd (fMON_CFG_LAT_KIND.at m), x.lay.due with
        | 1, none =>
          if x.lay.port < 5 then
            latSample m ((if b.pwr.vclk = 1 then 46 else 57) + (if x.lay.moved then 64 else 0)) b
          else
            let (k, b) := b.freshWord
            latSample m k b
        | 2, none =>
          { b with tst := { b.tst with latWait := b.tst.latWait ++ [
            { mon := m, from_ := x.lay.came, bound := (x.start + b.period) % tideMod }] } }
        | 3, some d =>
          { b with tst := { b.tst with latWait := b.tst.latWait ++ [
            { mon := m, from_ := d, bound := (x.start + b.period) % tideMod }] } }
        | _, _ => b
      else b) b

/-- VOICE_ARM (R25, R26, R120): a PENDING seat's voice is armed. -/
def voiceArm (v : Nat) (b : Block) : Block :=
  let x := b.voice v
  if x.st = 1 ∧ !x.armed then
    let (b, x) := armVoice b v x
    latArm x (b.setVoice v x)
  else b

def execNoteOn (r : EventRecord) (s : State) := done (offerAs 1 r) s
def execNoteOff (r : EventRecord) (s : State) := done (offerAs 2 r) s
def execPolyPressure (r : EventRecord) (s : State) := done (offerAs 3 r) s
def execNoteBend (r : EventRecord) (s : State) := done (offerAs 4 r) s
def execNoteCtrl (r : EventRecord) (s : State) := done (offerAs 5 r) s
def execController (r : EventRecord) (s : State) := done (offerAs 6 r) s
def execChannelPressure (r : EventRecord) (s : State) := done (offerAs 7 r) s
def execPitchBend (r : EventRecord) (s : State) := done (offerAs 8 r) s
def execModWriteRecord (r : EventRecord) (s : State) := done (offerAs 9 r) s
def execCancel (r : EventRecord) (s : State) := done (offerAs 10 r) s
def execAllNotesOff (r : EventRecord) (s : State) := done (offerAs 11 r) s
def execAllSoundOff (r : EventRecord) (s : State) := done (offerAs 12 r) s
def execWork (r : EventRecord) (s : State) := done (offerAs 16 r) s
def execVoiceArm (voice : Nat) (s : State) := doneIf (Instr.wf (.voiceArm voice)) (voiceArm voice) s
def execHandOff (v : Nat) (s : State) := doneIf (Instr.wf (.handOff v)) (handOff v) s
def execBellTick (s : State) := done bellTick s
def execRollDispatch (s : State) := done rollDispatch s
def execHandlerComplete (f : HandlerEnd) (s : State) := doneIf (Instr.wf (.handlerComplete f)) (handlerComplete f) s
def execEvtcoreHang (core : Nat) (s : State) := doneIf (Instr.wf (.evtcoreHang core)) (evtcoreHang core) s

end Sys2Proof.Machine
end

