-- ==== Sys2Proof/Machine/Lanes.lean ====
section
/-! DEFINITION. The lanes and their slots (01 R18 to R22; 17 R569; 18 R578). -/

namespace Sys2Proof.Machine

/-- Changes one lane. -/
def Block.modLane (b : Block) (l : Nat) (f : Lane → Lane) : Block := b.setLane l (f (b.lane l))

/-- VOICE cycles per second (R19). -/
def voiceHz (b : Block) : Nat := if b.pwr.vclk = 1 then 400000000 else 800000000

/-- Tide ticks per second (R367). -/
def tideHz (b : Block) : Nat := if b.rd fTIDE_STAT_FAMILY = 0 then 49152000 else 45158400

/-- The first render of a seat belongs to the open window or an earlier one (R182, R209). -/
def startCome (b : Block) (x : Voice) : Bool :=
  decide ((b.lastBound + tideMod - x.start % tideMod) % tideMod < 2 ^ 47)

/-- The tick at which a lane comes to a slot of the open window: the slot's mark, or the completion that it was behind with. -/
def reaches (b : Block) (l s : Nat) : Nat :=
  match (b.lane l).doneAt with
  | some t => if b.hasCome (slotMark b s) && decide (stampAge b t ≤ stampAge b (slotMark b s)) then t else slotMark b s
  | none => slotMark b s

/-- The arming of a seat due now is still in progress as the lane comes to its slot (R28; DEDUCED, notes/assumptions/10.md). -/
def arming (b : Block) (l s : Nat) : Bool :=
  let x := b.voice (16 * s + l)
  x.st == 1 && !x.armed && x.lay.due.isNone && x.start == b.nextBound &&
  decide ((reaches b l s + tideMod - x.stamp % tideMod) % tideMod < 2 ^ 47)

/-- A slot holds a voice to render in the window that is open (R28, R182, R578). -/
def toRender (b : Block) (l s : Nat) : Bool :=
  let x := b.voice (16 * s + l)
  x.st != 0 && (x.st != 1 || startCome b x || arming b l s)

/-- The next slot of a lane that holds a voice to render (R578). -/
def nextSlot (b : Block) (l : Nat) : Option Nat :=
  (List.range b.slots).find? (fun s => decide ((b.lane l).next ≤ s) && toRender b l s)

/-- Hand-offs of a lane whose copy may take place do so before its slot starts (R28, R187). -/
def laneHandOffs (l : Nat) (b : Block) : Block :=
  forL (b.sched.handoffs.filter (fun h => laneOf h.reserve == l && handOffReady b h)) doHandOff b

/-- RENDER_LATE (R578). -/
def noteLate (s : Nat) (b : Block) : Block :=
  if !b.glob.lateRaised && decide (4 * b.period < max 1 b.slots * stampAge b (slotMark b s)) then
    { b with glob := { b.glob with lateRaised := true } }.raise evRENDER_LATE
  else b

/-- SLOT_START (R18, R28, R118): the lane comes to its next slot with a voice to render, no earlier than the slot's mark,
waits for an arming still to be done, and renders the voice. The voice before its render stays by until the slot is complete. -/
def slotStart (l : Nat) (b : Block) : Block :=
  if !b.tideRuns || b.tide.bound.isNone || decide (b.laneCount ≤ l) || (b.lane l).busy.isSome then b
  else
    let b := laneHandOffs l b
    match nextSlot b l with
    | none => b
    | some s =>
      let v := 16 * s + l
      let b := if b.hasCome (slotMark b s) then b else b.advanceTo (slotMark b s)
      let b := if arming b l s then b.modVoice v (fun x => { x with start := b.lastBound }) else b
      let b := voiceArm v (noteLate s b)
      let x := b.voice v
      let b := b.modLane l (fun k => { k with next := s + 1, busy := some s, saved := none, push := [] })
      if x.st != 0 && startCome b x then
        let was := b.store.slots.filter (fun t => t.voice == v)
        let (b, y, pushes, clip) := renderVoice b v { x with st := if x.st = 1 then 2 else x.st }
        ((b.setVoice v y).modLane l (fun k => { k with saved := some (v, x, was), push := pushes })).raiseIf clip evVOICE_CLIP
      else b

/-- A voice's pushes enter the accumulators of their buses, modulo 2^80 (R266, R269). -/
def pushAll (ps : List Push) (b : Block) : Block :=
  forL ps (fun p b =>
    let add (l : List Int) (x : Int) := l.modify p.bus (fun a => sext 80 (unsx 80 (a + x * 2 ^ 30)))
    { b with mix := { b.mix with accL := add b.mix.accL p.l, accR := add b.mix.accR p.r } }) b

/-- What the end of a render does to its seat: a voice retires when envelope 0 is IDLE (R144), and a dismissal or a silencing
ramp that has reached its zero-gain render frees the seat (R188, R74). -/
def endRender (v : Nat) (b : Block) : Block :=
  let x := b.voice v
  let idle := (nth Env.reset x.env 0).stage == 6
  if x.st = 0 then b
  else if idle then trace 9 8 v x.lay.cls (freeSeat v b)
  else if x.dismN != 0 && decide (x.dismN ≤ x.dismDone) then freeSeat v b
  else if x.silence.any (fun k => decide (4 ≤ k)) then freeSeat v b
  else b

/-- SLOT_COMPLETE (R22, R266): the lane finishes its slot and pushes the voice's values. The VOICE cycles it spent are not
stated and left free (R569). -/
def slotComplete (l : Nat) (b : Block) : Block :=
  match (b.lane l).busy with
  | none => b
  | some s =>
    let k := b.lane l
    let (c, b) := b.fresh 569
    let b := b.modLane l (fun k => { k with busy := none, saved := none, push := [], cycles := k.cycles + c, doneAt := some b.now })
    let b := pushAll k.push b
    if k.saved.isSome then endRender (16 * s + l) b else b

/-- The voices that a lane leaves unfinished (R21). -/
def unfinished (b : Block) (l : Nat) : List Nat :=
  let k := b.lane l
  let rest := (List.range b.slots).filter (fun s => decide (k.next ≤ s) || k.busy == some s)
  (rest.map (fun s => 16 * s + l)).filter (fun v => (b.voice v).st != 0 && startCome b (b.voice v))

/-- TEST_LANE_LOADl and TEST_LANE_SLACKl at the end of a window (R569); the VOICE cycles within a tick are not stated, and
either neighbour is left open. -/
def noteLoad (l : Nat) (overrun : Bool) (b : Block) : Block :=
  let k := b.lane l
  let c := min k.cycles 0xFFFF
  let b := (b.wr (fTEST_LANE_LOAD_LAST.at l) c).wr (fTEST_LANE_LOAD_PEAK.at l) (max c (b.rd (fTEST_LANE_LOAD_PEAK.at l)))
  let old := b.rd (fTEST_LANE_SLACK_MIN_SLACK.at l)
  match overrun, k.doneAt with
  | true, _ => b.wr (fTEST_LANE_SLACK_MIN_SLACK.at l) 0
  | false, some t =>
    let n := stampAge b t * voiceHz b
    let hz := tideHz b
    let slack := (within 569 [n, hz] (n / hz) ((n + hz - 1) / hz)).toNat
    b.wr (fTEST_LANE_SLACK_MIN_SLACK.at l) (min old slack)
  | false, none => b

/-- A seat at the close of a window that interrupted its render (R21, R121): the voice as it stood before the render, with all that
has come to the seat since. A seat freed since is as it stands now. -/
def Voice.unrendered (was now : Voice) : Voice :=
  if now.st = 0 || !now.armed then now
  else
    let again := now.changes.any (fun c => match c with | .retrigger _ => true | .off _ => false | .perNote _ _ => false)
    let stolen := now.dismN != was.dismN
    { was with
      st := if now.st = 4 then 4 else was.st, held := now.held, relVel := now.relVel, lay := { now.lay with vel := was.lay.vel }
      dismN := now.dismN, dismDone := if stolen then now.dismDone else was.dismDone
      minGate := if again then now.minGate else was.minGate, minLeft := if again then now.minLeft else was.minLeft
      changes := was.changes ++ now.changes, silence := now.silence, waiting := now.waiting, victimOf := now.victimOf }

/-- The stream slots of a voice whose render was interrupted come back to what they were: those that the render opened close, those
that it closed are open again where their number is free, and what it passed has not been passed (R21, R249). -/
def restoreSlots (v : Nat) (was : List Slot) (b : Block) : Block :=
  let same (s t : Slot) := s.id == t.id && s.map == t.map && s.zone == t.zone && s.first == t.first
  let b := forL (b.store.slots.filter (fun s => s.voice == v && !was.any (same s))) (fun s b => closeSlot b s.id) b
  let kept := b.store.slots.map (fun s =>
    match was.find? (same s) with
    | some t => if s.voice = v then { s with passed := t.passed, deadline := t.deadline } else s
    | none => s)
  let back := (was.filter (fun t => kept.all (fun s => s.id != t.id))).map (fun t => { t with asked := 0 })
  b.setSlots (kept ++ back)

/-- A lane at the close of its window (R21, R75, R268): unfinished voices keep the state before the render that was interrupted
and contribute what they pushed last; one that SILENCE_VOICES has reached is forced to zero. -/
def closeLane (l : Nat) (b : Block) : Block :=
  let vs := unfinished b l
  let b := match (b.lane l).saved with
    | some (v, was, slots) =>
      let now := b.voice v
      let b := b.setVoice v (was.unrendered now)
      if now.st = 0 || !now.armed then b else restoreSlots v slots b
    | none => b
  let b := noteLoad l (!vs.isEmpty) b
  let b := b.raiseIf (!vs.isEmpty) (evVOICE_OVERRUN l)
  let b := forL vs (fun v b =>
    let x := b.voice v
    if x.silence.isSome then freeSeat v b else pushAll x.pushed b) b
  b.setLane l Lane.reset

/-- The close of a window in every lane that renders. -/
def closeLanes (b : Block) : Block := forN b.laneCount closeLane b

def execSlotStart (lane : Nat) (s : State) := doneIf (Instr.wf (.slotStart lane)) (slotStart lane) s
def execSlotComplete (lane : Nat) (s : State) := doneIf (Instr.wf (.slotComplete lane)) (slotComplete lane) s

end Sys2Proof.Machine
end

