-- ==== Sys2Proof/Machine/Voices.lean ====
section
/-! DEFINITION. What the host and events set for voices: tuning, modulation writes, host parameters, tempo and global LFOs,
and what all voices latch at a boundary (03 R116, R117; 04 R149 to R166). -/

namespace Sys2Proof.Machine

/-! ### Mod writes (R155 to R158) -/

/-- A live base of a voice moves to a target (R157): over N renders by a ramp unit, or at once where N is 0. A unit retargeted
keeps its place in the order of starting (DESIGN CHOICE, notes/assumptions/47.md). -/
def rampTo (n order d : Nat) (target : Int) (x : Voice) : Voice :=
  let serving := (List.range 4).find? (fun u => match nth none x.ramp u with | some r => r.dest == d | none => false)
  if n = 0 then
    { x with base := x.base.set d target, ramp := match serving with | some u => x.ramp.set u none | none => x.ramp }
  else
    let start := nth 0 x.base d
    let unit (o : Nat) : Ramp := { dest := d, left := n, target := target, step := (target - start).tdiv n, order := o }
    match serving with
    | some u => { x with ramp := x.ramp.modify u (fun r => some (unit (match r with | some k => k.order | none => order))) }
    | none =>
      match (List.range 4).find? (fun u => (nth none x.ramp u).isNone) with
      | some u => { x with ramp := x.ramp.set u (some (unit order)) }
      | none =>
        let age (u : Nat) : Nat := match nth none x.ramp u with | some r => r.order | none => 0
        let u := (List.range 4).foldl (fun m u => if age u < age m then u else m) 0
        match nth none x.ramp u with
        | some r => { x with base := x.base.set r.dest r.target, ramp := x.ramp.set u (some (unit order)) }
        | none => x

/-- The next place in the order of starting of ramp units. -/
def nextRamp (b : Block) : Nat × Block :=
  (b.sched.rampOrder, { b with sched := { b.sched with rampOrder := b.sched.rampOrder + 1 } })

/-- A seat holds an armed note that mod writes reach (R155, R188). -/
def modTarget (x : Voice) : Bool := x.st != 0 && x.armed && x.victimOf.isNone

/-- A mod write at its boundary (R155). Answers whether it was applied. -/
def applyMod (addr : Nat) (value : Int) (b : Block) : Bool × Block :=
  let v := addr / 256 % 1024
  if !b.live v then (false, modFault addr b)
  else if !modTarget (b.voice v) then (false, b.countUp fVOICE_MOD_IDLE_COUNT 1)
  else
    let (o, b) := nextRamp b
    (true, b.modVoice v (rampTo b.glob.smooth o (addr % 256) value))

def mModWrite : Meaning where
  chk p _ :=
    let as := (List.range (p.length / 8)).map (fun i => leAt p (8 * i) 4)
    if as.any (fun a => destReserved (a % 256)) then some .modDestInvalid
    else if as.any (fun a => decide (2 ^ 18 ≤ a)) then some .badField
    else none
  eff _ _ p b :=
    let (n, b) := (List.range (p.length / 8)).foldl (fun (nb : Nat × Block) i =>
      let a := leAt p (8 * i) 4
      let (did, b) := applyMod a (destValue (a % 256) (leAt p (8 * i + 4) 4)) nb.2
      (nb.1 + b2n did, b)) (0, b)
    (ok (toLE 2 n), b)

/-- The voices armed with a note ID in a class (R165). -/
def noteVoices (b : Block) (cls id : Nat) : List Nat :=
  (b.voices.filter (fun e => modTarget e.2 && e.2.lay.cls == cls && e.2.lay.noteId == id)).map (·.1)

def mModWriteNote : Meaning where
  chk p _ :=
    let ds := (List.range ((p.length - 4) / 8)).map (fun i => leAt p (4 + 8 * i) 4)
    if ds.any (fun d => destReserved (d % 256)) then some .modDestInvalid
    else if ds.any (fun d => decide (256 ≤ d)) || decide (63 < leAt p 0 2) then some .badField
    else none
  eff _ _ p b :=
    let vs := noteVoices b (leAt p 0 2) (leAt p 2 2)
    let b := forN ((p.length - 4) / 8) (fun i b =>
      let d := leAt p (4 + 8 * i) 1
      forL vs (fun v b => (applyMod (v * 256 + d) (destValue d (leAt p (8 + 8 * i) 4)) b).2) b) b
    (ok (toLE 2 vs.length), b)

/-! ### Host parameters (R159) -/

/-- One boundary of a host parameter's ramp. -/
def HParam.tick (h : HParam) : HParam :=
  if h.left ≤ 1 then { h with cur := h.target, left := 0 } else { h with cur := h.cur + h.step, left := h.left - 1 }

/-- A write to a host parameter: its register takes the target, and its ramp starts. -/
def writeHparam (i w : Nat) (b : Block) : Block :=
  let n := b.glob.smooth
  let t := sext 32 w
  let b := b.setWord (rVOICE_HPARAM + 4 * i) w
  { b with glob := { b.glob with hparam := b.glob.hparam.modify i (fun h =>
    if n = 0 then { cur := t, target := t, step := 0, left := 0 }
    else { h with target := t, step := (t - h.cur).tdiv n, left := n }) } }

def mSetHparam : Meaning where
  chk p _ :=
    if (List.range (p.length / 8)).any (fun i => decide (31 < leAt p (8 * i) 1) || leAt p (8 * i + 1) 3 != 0) then
      some .badField
    else none
  eff _ _ p b := (ok [], forN (p.length / 8) (fun i b => writeHparam (leAt p (8 * i) 1) (leAt p (8 * i + 4) 4) b) b)

/-! ### The beat (R149, R163, R166) -/

/-- TPB and ORIGIN as the staging registers hold them (R163). -/
def stagedBeat (b : Block) : Nat × Nat :=
  (b.rd fVOICE_TEMPO_TPB_TPB, b.rd fVOICE_BEAT_ORIGIN_LO_ORIGIN_LO + 2 ^ 32 * b.rd fVOICE_BEAT_ORIGIN_HI_ORIGIN_HI)

/-- The beat definition that waits for the boundary comes into force, or that which stands in the registers (R163, R166). -/
def commitBeat (b : Block) : Block :=
  let (tpb, origin) := b.glob.beatStaged.getD (stagedBeat b)
  { b with glob := { b.glob with tpb := tpb, origin := origin, beatStaged := none } }

/-- A write of VOICE_BEAT_ORIGIN_HI: TPB and ORIGIN as staged now commit at the next boundary; what is staged after it waits for the
next such write (R163). -/
def writeOriginHi (w : Nat) (b : Block) : Block :=
  let b := b.put rVOICE_BEAT_ORIGIN_HI w
  { b with glob := { b.glob with beatStaged := some (stagedBeat b) } }

/-- The origin that SET_TEMPO puts in force at a boundary (R166). -/
def tempoOrigin (b : Block) (t tpb mode origin : Nat) : Nat :=
  if mode = 0 then
    let gone := (t + tideMod - b.glob.origin % tideMod) % tideMod
    unsx 48 ((t : Int) - roundDiv ((gone : Int) * tpb) b.glob.tpb)
  else origin

def mSetTempo : Meaning where
  chk p _ := if leAt p 0 4 < 16384 || 1 < leAt p 4 1 then some .badField else none
  eff _ stamp p b :=
    let o := tempoOrigin b stamp (leAt p 0 4) (leAt p 4 1) (leAt p 8 6)
    let b := ((b.wr fVOICE_TEMPO_TPB_TPB (leAt p 0 4)).wr fVOICE_BEAT_ORIGIN_LO_ORIGIN_LO o).wr
      fVOICE_BEAT_ORIGIN_HI_ORIGIN_HI (o / 2 ^ 32)
    (ok (toLE 6 o), commitBeat { b with glob := { b.glob with beatStaged := none } })

/-! ### Global LFOs (R151) -/

/-- The seed of global LFO l (R151); a generator never holds 0 (R105). -/
def glfoSeed (b : Block) (l : Nat) : Nat :=
  let s := Nat.xor (b.rd fVOICE_NOISE_SEED_SEED) (0x4C464F00 + l)
  if s = 0 then 1 else s

/-- The settings of a global LFO; its FADE_TIME has no parameter in SET_GLOBAL_LFO and is left free, and neither has OFFSET, taken
as 0 (DESIGN CHOICE, notes/assumptions/47.md). -/
def glfoSet (l : Nat) (g : GLfo) : LfoSet :=
  { wave := g.wave, mode := g.mode, flags := g.flags, num := g.num, den := g.den, rate := g.rate, depth := g.depth,
    phase := g.phase, shape := g.shape, fade := (Config.freeNat 151 l : Nat), offset := 0 }

/-- Every global LFO advances by one sample. -/
def stepGlobals (b : Block) : Block :=
  { b with glob := { b.glob with glfo := b.glob.glfo.mapIdx (fun l g =>
    let (s, out) := lfoStep b (glfoSet l g) g.st
    { g with st := s, out := out }) } }

def mSetGlobalLfo : Meaning where
  chk p _ :=
    let bad (x : Nat) : Bool := decide (x < 1) || decide (64 < x)
    if 3 < leAt p 0 1 || 6 < leAt p 1 1 || 2 < leAt p 2 1 || 7 < leAt p 3 1 || bad (leAt p 4 1) || bad (leAt p 5 1) then
      some .badField
    else none
  eff _ stamp p b :=
    let l := leAt p 0 1
    let (k, b) := b.fresh 148
    let h := within 148 [k] (-(2 ^ 27)) (2 ^ 27 - 1)
    let rate := leAtS p 8 4
    let acc := if leAt p 2 1 = 1 then lfoInc b.fs rate * (b.pairCount stamp / b.period) % 2 ^ 32 else 0
    let g : GLfo :=
      { wave := leAt p 1 1, mode := leAt p 2 1, flags := leAt p 3 1, num := leAt p 4 1, den := leAt p 5 1, rate := rate
        depth := leAtS p 12 4, phase := leAtS p 16 4, shape := leAtS p 20 4
        st := { Lfo.reset with gen := glfoSeed b l, acc := acc, h := h, hPrev := h }, out := 0 }
    (ok [], { b with glob := { b.glob with glfo := b.glob.glfo.set l g } })

/-! ### Tuning, seed, smoothing -/

def mSetTuning : Meaning where
  chk p _ := if leAt p 0 4 < 26214400 || 31457280 < leAt p 0 4 then some .badField else none
  eff _ _ p b :=
    let b := b.wr fVOICE_TUNE_REF_F_CODE (leAt p 0 4)
    (ok [], { b with glob := { b.glob with tuneF := leAt p 0 4 } })

def mSetTuningTable : Meaning where
  chk p _ :=
    let t := leAt p 0 1
    let n := leAt p 2 1
    if t = 0 || 8 < t || 128 < leAt p 1 1 + n ||
        (List.range n).any (fun i => decide (786432 < (leAtS p (4 + 4 * i) 4).natAbs)) then some .badField
    else none
  eff _ _ p b :=
    (ok [], { b with glob := { b.glob with
      tune := smWriteAll (fun _ => 0) b.glob.tune (leAt p 0 1 * 128 + leAt p 1 1)
        ((List.range (leAt p 2 1)).map (fun i => leAtS p (4 + 4 * i) 4)) } })

def mSetNoiseSeed : Meaning := plain (fun p b => (ok [], b.wr fVOICE_NOISE_SEED_SEED (leAt p 0 4)))

def mSetSmooth : Meaning where
  chk p _ := if 4095 < leAt p 0 2 then some .badField else none
  eff _ _ p b := (ok [], b.wr fVOICE_SMOOTH_SAMPLES (leAt p 0 2))

/-! ### The boundary (R83, R126, R155, R159, R163) -/

/-- The 16 assigned controllers as the registers hold them. -/
def assigned (b : Block) : List Nat :=
  (List.range 16).map (fun i => bitsOf (b.word (rVOICE_ASSIGN + 4 * (i / 4))) (8 * (i % 4) + 7) (8 * (i % 4)))

/-- Mod writes of events whose boundary has opened, in order of arrival: all, or those that came before a place in that order
(R155). -/
def modsBefore (seq : Option Nat) (b : Block) : Block :=
  let goes (m : ModWrite) : Bool := b.hasCome m.at_ && (match seq with | some s => decide (m.seq < s) | none => true)
  let due := b.glob.mods.filter goes
  let b := { b with glob := { b.glob with mods := b.glob.mods.filter (fun m => !goes m) } }
  forL due (fun m b => (applyMod m.addr m.value b).2) b

/-- The addresses by which the wake journal names global source n, and word i of channel bank k (its controllers, pressure and bend);
the spec gives none (notes/assumptions/20.md). -/
def sourceAt (n : Nat) : Nat := 0x05000000 + 4 * n
def bankWordAt (k i : Nat) : Nat := 0x05010000 + 0x400 * k + 4 * i

def bankWords (k : Bank) : List Int := k.cc ++ [k.press, k.bend]

/-- The global sources latched at the boundary are journaled: those that all voices share, and what has changed in the banks
(R126, R509). -/
def logSources (was : List (Nat × Bank)) (b : Block) : Block :=
  if !b.logsOutcomes then b
  else
    let b := forL ((List.range 184).filter (fun n => decide (64 ≤ n) && !(decide (69 ≤ n) && decide (n < 96)))) (fun n b =>
      logOutcome (sourceAt n) (unsx 32 (sourceValue b Voice.reset [] [] n)) b) b
    forL ((was ++ b.glob.banksL).map (·.1)).eraseDups (fun k b =>
      let old := bankWords (smGet (fun _ => Bank.reset) was k)
      let new := bankWords (b.bankL k)
      forN 130 (fun i b => if nth 0 old i = nth 0 new i then b else logOutcome (bankWordAt k i) (unsx 32 (nth 0 new i)) b) b) b

/-- What all voices of the opening window see: the mod writes due, whose ramps start with the smoothing in force before (R162);
tuning, smoothing and assignment written before it, the beat, the banks, host parameters and BDSP_CTL values as latched, and the
global LFOs. -/
def voiceBoundary (b : Block) : Block :=
  let was := b.glob.banksL
  let b := modsBefore none (if b.glob.beatStaged.isSome then commitBeat b else b)
  let hp := b.glob.hparam.map HParam.tick
  let b := { b with glob := { b.glob with
    tuneF := b.rd fVOICE_TUNE_REF_F_CODE, smooth := b.rd fVOICE_SMOOTH_SAMPLES, assign := assigned b
    beat := (b.lastBound + tideMod - b.glob.origin % tideMod) % tideMod
    banksL := b.glob.banks, hparam := hp, hparamL := hp.map (·.cur)
    ctl := (List.range 8).map (fun i => sext 32 (b.word (rBDSP_CTL + 0x1000 * (i / 2) + 4 * (i % 2))))
    lateRaised := false, notReadyRaised := false } }
  logSources was (stepGlobals b)

def execSetTuning (c : Cmd) (s : State) := done (command 0x0140 mSetTuning c) s
def execSetTuningTable (c : Cmd) (s : State) := done (command 0x0141 mSetTuningTable c) s
def execSetNoiseSeed (c : Cmd) (s : State) := done (command 0x0142 mSetNoiseSeed c) s
def execModWrite (c : Cmd) (s : State) := done (command 0x0200 mModWrite c) s
def execModWriteNote (c : Cmd) (s : State) := done (command 0x0201 mModWriteNote c) s
def execSetHparam (c : Cmd) (s : State) := done (command 0x0202 mSetHparam c) s
def execSetTempo (c : Cmd) (s : State) := done (command 0x0203 mSetTempo c) s
def execSetGlobalLfo (c : Cmd) (s : State) := done (command 0x0204 mSetGlobalLfo c) s
def execSetSmooth (c : Cmd) (s : State) := done (command 0x0205 mSetSmooth c) s

end Sys2Proof.Machine
end

