-- ==== Sys2Proof/Machine/Patch.lean ====
section
/-! DEFINITION. Patches and classes: validation, worst-case cost, the class-enable check, and the class and scheduler
commands (03 R80, R113; 04 R122 to R160; 05 R170, R171, R210 to R215; 06 R221, R256). -/

namespace Sys2Proof.Machine

/-! ### Validation (R80, R122, R128, R141, R145, R153, R221) -/

/-- Bytes lo to hi - 1 of a patch are 0. -/
def zeroBytes (p : List Byte) (lo hi : Nat) : Bool := ((p.drop lo).take (hi - lo)).all (· == 0)

/-- A WAVE code listed for a mode (R79). -/
def waveListed (mode wave : Nat) : Bool :=
  match mode with
  | 3 => decide (wave ≤ 3)
  | 5 => decide (wave ≤ 2)
  | 2 => decide (wave ≤ 2)
  | _ => wave == 0

/-- Oscillator record n passes R80 and R221; a SYNC_SRC, PM_SRC or RING_SRC above 3 is refused beside them (DESIGN CHOICE,
notes/assumptions/47.md). -/
def oscRecordOk (p : List Byte) (n : Nat) : Bool :=
  let m := pMode p n
  let sync := bit (pFlags p n) 2
  decide (m ≤ 6) && decide (pFlags p n < 32) && waveListed m (pWave p n) && decide (pInterp p n ≤ 3) &&
  decide (pSyncSrc p n ≤ 3) && decide (pPmSrc p n ≤ 3) && decide (pRingSrc p n ≤ 3) && decide (pTune p n ≤ 8) &&
  decide (pInput p n ≤ 31) && leAt p (n * 64 + 0x0B) 1 == 0 &&
  !(sync && (pSyncSrc p n == n || m == oscModeSample || m == oscModeNoise || m == oscModeInput)) &&
  !(m == oscModeTable && decide (127 < pSource p n)) && !(m == oscModeSample && decide (255 < pSource p n))

/-- The matrix slots in use. -/
def slotsUsed (p : List Byte) : List Nat := (List.range 32).filter (fun k => pSlot p k 0 != 0xFF)

/-- Filter record f: MODE listed (DESIGN CHOICE, notes/assumptions/47.md), the bytes without a field 0 (R122, R134). -/
def filterRecordOk (p : List Byte) (f : Nat) : Bool :=
  let o := 0x100 + f * 0x40
  decide (leAt p o 1 ≤ 8) && zeroBytes p (o + 1) (o + 4) && zeroBytes p (o + 0x1C) (o + 0x40)

/-- The bytes without a field of the envelope, LFO and output records, and those behind the cost, are 0 (R122, R210). -/
def unusedZero (p : List Byte) : Bool :=
  (List.range 6).all (fun e => zeroBytes p (0x181 + e * 0x40) (0x184 + e * 0x40) && zeroBytes p (0x1A4 + e * 0x40) (0x1C0 + e * 0x40)) &&
  (List.range 4).all (fun l => zeroBytes p (0x305 + l * 0x40) (0x308 + l * 0x40) && zeroBytes p (0x320 + l * 0x40) (0x340 + l * 0x40)) &&
  zeroBytes p 0x40A 0x420 && zeroBytes p 0x612 0x800

/-- Envelope record e (R141). -/
def envRecordOk (p : List Byte) (e : Nat) : Bool :=
  let f := leAt p (0x180 + e * 0x40) 1
  decide (f < 16) && !(bit f 1 && bit f 2) && (e != 0 || bit f 0)

/-- LFO record l (R145). -/
def lfoRecordOk (p : List Byte) (l : Nat) : Bool :=
  let o := 0x300 + l * 0x40
  let in64 (x : Nat) : Bool := decide (1 ≤ x) && decide (x ≤ 64)
  decide (leAt p o 1 ≤ 6) && decide (leAt p (o + 1) 1 ≤ 2) && decide (leAt p (o + 2) 1 < 8) && in64 (leAt p (o + 3) 1) &&
  in64 (leAt p (o + 4) 1)

/-- The output record (R140, R153). -/
def outputRecordOk (p : List Byte) : Bool :=
  (List.range 4).all (fun n => decide (oscRoute p n ≤ 4)) && decide (leAt p 0x404 1 ≤ 1) &&
  (List.range 5).all (fun i => decide (leAt p (0x405 + i) 1 ≤ 15))

/-- Why PATCH_LOAD refuses an image, in the order of R215. -/
def validatePatch (p : List Byte) : Option Reason :=
  let used := slotsUsed p
  let src (s : Nat) : Bool := sourceOk s
  if !(List.range 4).all (oscRecordOk p) then some .badField
  else if used.any (fun k => decide (pSlot p k 1 < 0x60) && destReserved (pSlot p k 1)) then some .modDestInvalid
  else if !((List.range 2).all (filterRecordOk p) && unusedZero p) then some .badField
  else if used.any (fun k => !src (pSlot p k 0) || (pSlot p k 2 != 0xFF && !src (pSlot p k 2))) then some .modSourceInvalid
  else if used.any (fun k => destReserved (pSlot p k 1)) then some .modDestInvalid
  else if used.any (fun k => decide (5 < pSlot p k 3)) then some .badField
  else if !((List.range 6).all (envRecordOk p) && (List.range 4).all (lfoRecordOk p) && outputRecordOk p) then some .badField
  else none

/-! ### Cost (R20, R113, R160) -/

/-- A map defines loop crossfades (R113). -/
def mapCrossfades (b : Block) (m : Nat) : Bool :=
  (sampleMap b m).zones.any (fun z => match z with | some z => zLoops z && zXfade z != 0 | none => false)

/-- The cost of oscillator n without the additions; none where what it reads is not defined (R113, R221). -/
def oscCost (b : Block) (p : List Byte) (n : Nat) : Option Nat :=
  let t := if pInterp p n = 3 then 2 else 1
  let blend := bit (pFlags p n) 3
  match pMode p n with
  | 0 => some 0
  | 1 =>
    let k := pSource p n
    if tableState b k = 0 then none
    else some (3 + (if 1 < b.rd (fTBL_DESC_W0_FRAMES.at k) then 2 else 1) * (if blend then 2 else 1) *
      (if b.rd (fTBL_DESC_W0_MORPH_LEN.at k) != 0 then 2 else 1) * t)
  | 2 =>
    let m := pSource p n
    if (sampleMap b m).state < 2 then none else some (3 + (if mapCrossfades b m then 2 else 1) * t)
  | 3 => some (match pWave p n with | 0 => 4 | 1 => 5 | _ => if blend then 5 else 4)
  | 4 => some 5
  | 5 => some 3
  | _ => some 1

/-- What SYNC_EN, ring, drift and a WAVETABLE's phase modulation add (R113). -/
def oscExtra (p : List Byte) (n : Nat) : Nat :=
  let uses (k : Nat) : Bool := targeted p (n * 24 + k) || patchBase p (n * 24 + k) != 0
  if pMode p n = oscModeOff then 0
  else (if bit (pFlags p n) 2 then 3 else 0) + b2n (uses 8) + b2n (uses 9) +
    b2n (pMode p n == oscModeTable && uses 3)

/-- The cost of a filter (R160). -/
def filterCost (p : List Byte) (f : Nat) : Nat :=
  match leAt p (0x100 + f * 0x40) 1 with
  | 0 => 0
  | m => (if m ≤ 5 then 6 else if m = 6 then 7 else 9) + (if driveActive p f then 2 else 0)

/-- The cost of what follows the oscillators (R160). -/
def stageCost (p : List Byte) : Nat :=
  let env := ((List.range 6).filter (fun e => bit (leAt p (0x180 + e * 0x40) 1) 0)).length * 2
  let lfo := (List.range 4).foldl (fun s l =>
    if lfoLive p l then
      s + (if leAt p (0x301 + l * 0x40) 1 = 2 ∨ leAt p (0x300 + l * 0x40) 1 = 6 then 3 else 2)
    else s) 0
  let slots := (slotsUsed p).foldl (fun s k => s + 1 + b2n (pSlot p k 2 != 0xFF) + b2n (pSlot p k 3 != 0)) 0
  let live := ((List.range 3).filter (branchLive p)).length
  let sends := ((List.range 4).filter (fun s => patchBase p (0xD2 + s) != 0 || targeted p (0xD2 + s))).length
  filterCost p 0 + filterCost p 1 + env + lfo + slots + 4 + (live - 1) + sends

/-- The worst-case cost of a patch in VOICE cycles per voice-sample; 0xFFFF where a table or map it reads is not defined
(R20, R113, R160, R221). -/
def patchCost (b : Block) (p : List Byte) : Nat :=
  match (List.range 4).foldl (fun (s : Option Nat) n =>
      match s, oscCost b p n with
      | some x, some y => some (x + y + oscExtra p n)
      | _, _ => none) (some 0) with
  | some c => 14 + c + stageCost p
  | none => 0xFFFF

/-- A patch image with its cost bytes as PATCH_LOAD writes them (R210, R221). -/
def withCost (b : Block) (p : List Byte) : List Byte := p.take 0x610 ++ toLE 2 (patchCost b p) ++ p.drop 0x612

/-- The cost bytes of the resident patches follow the tables and maps they read: 0xFFFF while one is not defined (R221, R236). -/
def refreshCosts (b : Block) : Block :=
  { b with store := { b.store with patches := b.store.patches.map (fun e => (e.1, withCost b e.2)) } }

/-- A patch is resident. -/
def resident (b : Block) (n : Nat) : Bool := (b.store.patches.lookup n).isSome

/-! ### The class-enable check (R170) -/

/-- What a seating rule matches, as ranges of port, channel, note and velocity. -/
structure Span where
  port : Nat × Nat
  chan : Nat × Nat
  note : Nat × Nat
  vel : Nat × Nat

def meet2 (a c : Nat × Nat) : Nat × Nat := (max a.1 c.1, min a.2 c.2)

def Span.meet (s t : Span) : Span :=
  { port := meet2 s.port t.port, chan := meet2 s.chan t.chan, note := meet2 s.note t.note, vel := meet2 s.vel t.vel }

def Span.some (s : Span) : Bool :=
  decide (s.port.1 ≤ s.port.2) && decide (s.chan.1 ≤ s.chan.2) && decide (s.note.1 ≤ s.note.2) && decide (s.vel.1 ≤ s.vel.2)

/-- The span of rule i. -/
def ruleSpan (b : Block) (i : Nat) : Span :=
  let p := b.rule (fSCHED_RULE_W0_PORT.at i)
  let c := b.rule (fSCHED_RULE_W0_CHANNEL.at i)
  { port := if p = 0xFF then (0, 255) else (p, p), chan := if c = 0xFFFF then (0, 65535) else (c, c)
    note := (b.rule (fSCHED_RULE_W1_NOTE_LO.at i), b.rule (fSCHED_RULE_W1_NOTE_HI.at i))
    vel := (b.rule (fSCHED_RULE_W1_VEL_LO.at i), b.rule (fSCHED_RULE_W1_VEL_HI.at i)) }

/-- Whether n rules of a list, beside those already met, match one combination. -/
def manyMeet : Nat → Span → List Span → Bool
  | 0, _, _ => true
  | _ + 1, _, [] => false
  | n + 1, s, t :: ts => ((s.meet t).some && manyMeet n (s.meet t) ts) || manyMeet (n + 1) s ts

/-- Step 6 of R170: with class c counted as enabled, more than four rules match a combination that a rule of c matches. -/
def rulesConflict (b : Block) (c : Nat) : Bool :=
  let on := (List.range 256).filter (fun i => b.rule (fSCHED_RULE_W0_VALID.at i) != 0 &&
    (b.rule (fSCHED_RULE_W2_CLASS.at i) == c || classOn b (b.rule (fSCHED_RULE_W2_CLASS.at i))))
  (on.filter (fun i => b.rule (fSCHED_RULE_W2_CLASS.at i) == c)).any (fun i =>
    let s := ruleSpan b i
    s.some && manyMeet 4 s ((on.filter (· != i)).map (ruleSpan b)))

/-- The distinct maps of a patch's SAMPLE oscillators (R256). -/
def patchMaps (p : List Byte) : List Nat :=
  (((List.range 4).filter (fun n => pMode p n == oscModeSample)).map (pSource p)).eraseDups

/-- The slot demand of the enabled classes and class c with the patch given (R256). -/
def slotDemand (b : Block) (c patch : Nat) : Nat :=
  let cs := (List.range 64).filter (fun k => k == c || classOn b k)
  let d (k : Nat) : Nat := (patchMaps (b.patch (if k = c then patch else b.rd (fCLASS_CFG_PATCH.at k)))).length
  cs.foldl (fun s k => s + min (b.rd (fCLASS_POLY_MAX.at k)) (liveSeats b (classBlocks b k)).length * d k) 0 +
  (liveSeats b (reserveBlocks b)).length * cs.foldl (fun m k => max m (d k)) 0

/-- The least ring size for a patch's maps (R256); RATE is in 2^-8 Hz (R240). -/
def ringNeed (b : Block) (p : List Byte) : Nat :=
  let zs := (patchMaps p).flatMap (fun m => (sampleMap b m).zones.filterMap id)
  let zr := zs.foldl (fun m z => max m (zRate z)) 0
  let fb := zs.foldl (fun m z => max m (zBytes z)) 0
  let d := b.fs * 256
  (4 * zr * b.rd fSTRM_CFG_LEAD + d - 1) / d * fb + 512

/-- The slot demand with a class counted in exceeds SLOTS (R256). -/
def demandExceeds (b : Block) (c patch : Nat) : Bool := decide (b.rd fSTRM_CFG_SLOTS < slotDemand b c patch)

/-- The reasons of R256 as they apply to oscillator n of the patch of class c. -/
def checkSource (b : Block) (c patch n : Nat) : Option Reason :=
  let p := b.patch patch
  let sample := pMode p n == oscModeSample
  if pMode p n == oscModeTable && tableState b (pSource p n) != 2 then some .tableNotCommitted
  else if sample && (sampleMap b (pSource p n)).state != 3 then some .headNotResident
  else if sample && (!b.flag fSTRM_CTRL_ENABLE || demandExceeds b c patch) then some .streamSlotsExhausted
  else if sample && decide (ringSize b < ringNeed b p) then some .streamRingTooSmall
  else none

/-- Step 8 of R170: the table and stream checks on oscillators 0 to 3 in order; the slot demand, which is no oscillator's own, is
checked at the first SAMPLE oscillator, or last where there is none (R256). -/
def checkSources (b : Block) (c patch : Nat) : Option Reason :=
  match (List.range 4).findSome? (checkSource b c patch) with
  | some r => some r
  | none => if demandExceeds b c patch then some .streamSlotsExhausted else none

/-- Steps 1, 2, 7 and 8 of R170, on a patch. -/
def checkPatchFor (b : Block) (c patch : Nat) : Option Reason :=
  if !resident b patch then some .patchMissing
  else if patchCost b (b.patch patch) = 0xFFFF then some .patchCostUnknown
  else if b.budget < patchCost b (b.patch patch) then some .rollVoiceBudget
  else checkSources b c patch

/-- The check of class c's enable (R170). -/
def checkClass (c : Nat) (b : Block) : Option Reason :=
  let patch := b.rd (fCLASS_CFG_PATCH.at c)
  let own := classBlocks b c
  if !resident b patch then some .patchMissing
  else if patchCost b (b.patch patch) = 0xFFFF then some .patchCostUnknown
  else if own = 0 then some .classLimit
  else if (liveSeats b own).isEmpty then some .notInMode
  else if Nat.land own (reserveBlocks b) ≠ 0 ∨
      (List.range 64).any (fun k => k != c && classHeld b k && Nat.land own (classBlocks b k) != 0) then some .seatsOverlap
  else if rulesConflict b c then some .directSeatingConflict
  else if b.budget < patchCost b (b.patch patch) then some .rollVoiceBudget
  else checkSources b c patch

/-! ### Registers with rules of their own (R171, R208, R211) -/

/-- A write of CLASS_CFG, its ENABLE apart: PATCH stays while the class is enabled or draining (R171). -/
def writeClassCfg (c v : Nat) (b : Block) : Block :=
  let a := rCLASS_CFG + 0x20 * c
  let v := putBits v 31 31 (b2n (classOn b c))
  if classHeld b c then b.put a (putBits v 8 0 (b.rd (fCLASS_CFG_PATCH.at c))) else b.put a v

/-- A write of CLASS_BLOCKS: ignored while the class is enabled or draining (R171). -/
def writeClassBlocks (c a v : Nat) (b : Block) : Block := if classHeld b c then b else b.put a v

/-- A write of SCHED_NOTE_ID_NEXT: 0 stores 1 (R211). -/
def writeNoteId (v : Nat) (b : Block) : Block := b.put rSCHED_NOTE_ID_NEXT (if v % 2 ^ 16 = 0 then 1 else v)

/-- A write of SCHED_TRACE_BASE: ignored while EN is 1. -/
def writeTraceBase (v : Nat) (b : Block) : Block := if b.flag fSCHED_TRACE_CFG_EN then b else b.put rSCHED_TRACE_BASE v

/-- A write of SCHED_TRACE_CFG: setting EN restarts the ring at WPTR 0 (R208). -/
def writeTraceCfg (v : Nat) (b : Block) : Block :=
  let was := b.flag fSCHED_TRACE_CFG_EN
  let b := b.put rSCHED_TRACE_CFG v
  if !was && b.flag fSCHED_TRACE_CFG_EN then
    { b.wr fSCHED_TRACE_WPTR_WPTR 0 with sched := { b.sched with traceStopped := false } }
  else b

/-- SCHED_POOL with its count of free descriptors, 0 while EVT is off (R211, R528). -/
def schedPool (b : Block) : Nat := putBits (b.word rSCHED_POOL) 12 0 (if b.on dEVT then poolFree b else 0)

/-- Two timetable fills (R211). -/
def ttFill (b : Block) (i : Nat) : Nat := (nth [] b.sched.tts i).length + 2 ^ 16 * (nth [] b.sched.tts (i + 1)).length

/-- CLASS_STAT (R171). -/
def classStat (b : Block) (c : Nat) : Nat := activeOf b c + 2 ^ 16 * reservedOf b c

/-! ### Commands (R214, R215) -/

/-- The staging copy of a patch (R215). -/
def stagingOf (b : Block) (n : Nat) : List Byte := (b.store.staging.lookup n).getD (b.patch n)

/-- Puts an entry into a list of patches. -/
def putImage (l : List (Nat × List Byte)) (n : Nat) (p : List Byte) : List (Nat × List Byte) := smInsert (smErase l n) n p

/-- Bytes of an image replaced from an offset. -/
def patchBytes (p : List Byte) (o : Nat) (bs : List Byte) : List Byte := p.take o ++ bs ++ p.drop (o + bs.length)

/-- A class that is enabled or draining names the patch, or a swap from it is not done (R215). -/
def patchInUse (b : Block) (n : Nat) : Bool :=
  (List.range 64).any (fun c => classHeld b c && b.rd (fCLASS_CFG_PATCH.at c) == n) || b.sched.swaps.any (fun s => s.2 == n)

def mPatchWrite : Meaning where
  chk p _ :=
    if 511 < leAt p 0 2 || 2048 < leAt p 2 2 + (p.length - 4) then some .badField else none
  eff _ _ p b :=
    let n := leAt p 0 2
    (ok [], { b with store := { b.store with
      staging := putImage b.store.staging n (patchBytes (stagingOf b n) (leAt p 2 2) (p.drop 4)) } })

def mPatchLoad : Meaning where
  chk p b :=
    let n := leAt p 0 2
    if 511 < n then some .badField
    else if patchInUse b n then some .notOwner
    else validatePatch (stagingOf b n)
  eff _ _ p b :=
    let n := leAt p 0 2
    let b := { b with store := { b.store with
      patches := putImage b.store.patches n (withCost b (stagingOf b n)), staging := smErase b.store.staging n } }
    (ok (toLE 2 (patchCost b (b.patch n))), b)

def mClassSet : Meaning where
  chk p b :=
    let c := leAt p 0 1
    let cfg := leAt p 4 4
    if 63 < c || bit cfg 31 || !regWordOk (rCLASS_CFG + 0x20 * c) cfg || !regWordOk (rCLASS_POLY + 0x20 * c) (leAt p 16 4) then
      some .badField
    else if classHeld b c then some .notOwner
    else none
  eff _ _ p b :=
    let c := leAt p 0 1
    (ok [], ((b.put (rCLASS_CFG + 0x20 * c) (leAt p 4 4)).setWord64 (rCLASS_BLOCKS + 0x20 * c) (leAt p 8 8)).put
      (rCLASS_POLY + 0x20 * c) (leAt p 16 4))

def mClassEnable : Meaning where
  chk p _ := if 63 < leAt p 0 1 || 1 < leAt p 1 1 then some .badField else none
  eff tok stamp p b :=
    let a := rCLASS_CFG + 0x20 * leAt p 0 1
    if leAt p 1 1 = 1 then enableByCommand a tok stamp b [] b else (ok [], clearEnable a b)

def mRuleWrite : Meaning where
  chk p _ :=
    let n := leAt p 1 1
    if 256 < leAt p 0 1 + n || (List.range (4 * n)).any (fun i =>
        !regWordOk (rSCHED_RULE_W0 + 0x10 * (leAt p 0 1) + 4 * i) (leAt p (4 + 4 * i) 4)) then some .badField
    else none
  eff _ _ p b :=
    let b := forN (4 * leAt p 1 1) (fun i b => b.put (rSCHED_RULE_W0 + 0x10 * leAt p 0 1 + 4 * i) (leAt p (4 + 4 * i) 4)) b
    (ok [], forN (leAt p 1 1) (fun i b => commitRule (leAt p 0 1 + i) b) b)

/-- A seat of a block is DISMISSING. -/
def blockDismissing (b : Block) (k : Nat) : Bool := (List.range 16).any (fun i => (b.voice (16 * k + i)).st == 4)

def mSetReserve : Meaning where
  chk p b :=
    let new := leAt p 0 8
    let old := reserveBlocks b
    if 4 < (banksIn new).length then some .reservePoolSize
    else if (banksIn new).any (fun k => (List.range 64).any (fun c => classHeld b c && bit (classBlocks b c) k)) ||
        (List.range 64).any (fun k => bit new k != bit old k && blockDismissing b k) then some .seatsOverlap
    else none
  eff _ _ p b := (ok [], b.setWord64 rSCHED_RESERVE (leAt p 0 8))

def mPatchSwap : Meaning where
  chk p b :=
    let c := leAt p 0 1
    if 63 < c || 511 < leAt p 2 2 then some .badField
    else if classHeld b c && !classOn b c then some .notOwner
    else checkPatchFor b c (leAt p 2 2)
  eff _ _ p b :=
    let c := leAt p 0 1
    let old := b.rd (fCLASS_CFG_PATCH.at c)
    let b := b.wr (fCLASS_CFG_PATCH.at c) (leAt p 2 2)
    (ok [], finishSwaps { b with sched := { b.sched with swaps := b.sched.swaps ++ [(c, old)] } })

def mSetSched : Meaning where
  chk p _ := if leAt p 0 2 < 64 || 4095 < leAt p 2 2 || leAt p 4 4 < 1024 then some .badField else none
  eff _ _ p b :=
    (ok [], ((b.wr fSCHED_TT_LEAD_LEAD (leAt p 0 2)).wr fSCHED_POOL_HWM (leAt p 2 2)).wr fSCHED_HANG_LIMIT_CYCLES (leAt p 4 4))

/-- SCHED_TRACE_CFG as SET_TRACE spells it. -/
def traceWord (p : List Byte) : Nat := leAt p 6 2 + 2 ^ 16 * leAt p 4 2 + 2 ^ 30 * leAt p 8 1 + 2 ^ 31 * leAt p 9 1

def mSetTrace : Meaning where
  chk p _ :=
    if leAt p 0 4 % 16 ≠ 0 || 1 < leAt p 8 1 || 1 < leAt p 9 1 || leAt p 4 2 < 16 || 16383 < leAt p 4 2 || 0x7FF < leAt p 6 2
    then some .badField else none
  eff _ _ p b := (ok [], writeTraceCfg (traceWord p) (writeTraceBase (leAt p 0 4) b))

def mGetSchedStat : Meaning := plain (fun _ b =>
  (ok (toLE 4 (schedPool b) ++ toLE 4 (ttFill b 0) ++ toLE 4 (ttFill b 2) ++
    words4 b [rSCHED_STEAL_COUNT, rSCHED_DROP_COUNT, rSCHED_CANCEL_COUNT]), b))

def execPatchWrite (c : Cmd) (s : State) := done (command 0x0100 mPatchWrite c) s
def execPatchLoad (c : Cmd) (s : State) := done (command 0x0101 mPatchLoad c) s
def execClassSet (c : Cmd) (s : State) := done (command 0x0102 mClassSet c) s
def execClassEnable (c : Cmd) (s : State) := done (command 0x0103 mClassEnable c) s
def execRuleWrite (c : Cmd) (s : State) := done (command 0x0104 mRuleWrite c) s
def execSetReserve (c : Cmd) (s : State) := done (command 0x0105 mSetReserve c) s
def execPatchSwap (c : Cmd) (s : State) := done (command 0x0106 mPatchSwap c) s
def execSetSched (c : Cmd) (s : State) := done (command 0x0E00 mSetSched c) s
def execSetTrace (c : Cmd) (s : State) := done (command 0x0E01 mSetTrace c) s
def execGetSchedStat (c : Cmd) (s : State) := done (command 0x0E02 mGetSchedStat c) s

end Sys2Proof.Machine
end

