-- ==== Sys2Proof/Machine/Tables.lean ====
section
/-! DEFINITION. The table builder and table generations (06 R216 to R236, R257 to R262). -/

namespace Sys2Proof.Machine

/-- LPDDR5 is trained (R398, R259). -/
def trained (b : Block) : Bool := b.flag fSTRM_LIB_STAT_LPDDR_TRAINED

/-! ### The image (R217, R219, R224, R225) -/

/-- What a build works from: frames, width, flags and the source entries. -/
structure Source where
  frames : Nat
  wide : Bool
  normalise : Bool
  dcRemove : Bool
  data : List (List Int)
  /-- R227: the 8-byte words of the source that held an uncorrectable error, and a fresh number for what they spoil. -/
  bad : List Nat
  seed : Nat

/-- The source entries of a build: frames of 2,048, little-endian (R223). -/
def sourceData (b : Block) (k : Build) (frames : Nat) (wide : Bool) : List (List Int) :=
  let w := if wide then 4 else 2
  (List.range frames).map (fun i => (List.range 2048).map (fun j =>
    let a := k.addr + w * (i * 2048 + j)
    leAtS (if k.space = 0 then b.lpddrBytes a w else b.slateBytes a w) 0 w))

/-- The weight of source entry m in entry j of level L, at 2^80: DC and the harmonics 1 to H(L), each at the amplitude it has in
the source (R224). -/
def dftWeight (dc : Bool) (level j m : Nat) : Int :=
  (List.range (2 ^ (10 - level))).foldl (fun s h =>
    s + 2 * fxCos (((h + 1) * (j * 2 ^ level + 2048 - m) : Nat) : Int) 2048) (if dc then (fxOne : Int) else 0)

/-- An entry is formed from a word with an uncorrectable error, and so undefined (R227): level 0 as it is given keeps each word to
itself, and everything else is formed from the whole frame. -/
def spoilt (s : Source) (i level j : Nat) : Bool :=
  let w := if s.wide then 4 else 2
  if level = 0 ∧ !s.dcRemove then s.bad.contains (w * (i * 2048 + j) / 8) else s.bad.any (fun k => k / (w * 256) == i)

/-- Entry j of level L of frame i before scale and rounding, at 2^91 (R224, R225); a spoilt one is free. -/
def exactEntry (s : Source) (i level j : Nat) : Int :=
  let src := nth [] s.data i
  if spoilt s i level j then Config.approx 227 [s.seed, i, level, j]
  else if level = 0 then
    nth 0 src j * 2 ^ 91 - (if s.dcRemove then src.foldl (· + ·) 0 * 2 ^ 80 else 0)
  else (List.range 2048).foldl (fun t m => t + nth 0 src m * dftWeight (!s.dcRemove) level j m) 0

/-- The largest positive code of a width. -/
def topCode (wide : Bool) : Int := if wide then 2 ^ 31 - 1 else 2 ^ 15 - 1

/-- The largest magnitude over all levels and frames, at 2^91. -/
def peakEntry (s : Source) : Nat :=
  forN s.frames (fun i m => forN 11 (fun l m => forN (2 ^ (11 - l)) (fun j m => max m (exactEntry s i l j).natAbs) m) m) 0

/-- The NORMALISE scale as a fraction: the largest magnitude maps to the largest positive code; 1 for a silent source and
without the flag (R225). -/
def scaleOf (s : Source) : Int × Nat :=
  let p := peakEntry s
  if s.normalise && p != 0 then (topCode s.wide * 2 ^ 91, p) else (1, 1)

/-- An entry before saturation: exact where level 0 is kept as it is given, else within 2 LSB, or 2^-24 of full scale for a
32-bit table (R224). -/
def builtEntry (s : Source) (scale : Int × Nat) (i level j : Nat) : Int :=
  if spoilt s i level j then Config.approx 228 [s.seed, i, level, j]
  else if level = 0 ∧ !s.dcRemove ∧ !s.normalise then nth 0 (nth [] s.data i) j
  else
    let n := exactEntry s i level j * scale.1
    let d : Int := 2 ^ 91 * (scale.2 : Int)
    let tol := if s.wide then 128 else 2
    within 224 [n, d] (-((-n) / d) - tol) (n / d + tol)

/-- SCALE in the coefficient format (R219); a scale outside the format is not stated and left free. -/
def scaleCode (scale : Int × Nat) : Nat :=
  let n := scale.1 * 2 ^ 30
  let v := within 225 [n, scale.2] (n / scale.2) (-((-n) / scale.2))
  if v < 2 ^ 31 then unsx 32 v else unsx 32 (Config.approx 226 [n, scale.2])

/-- The image of a generation and the entries saturated in it (R217, R219). -/
def buildImage (s : Source) (table gen flags stamp : Nat) : List Byte × Nat :=
  let scale := scaleOf s
  let w := if s.wide then 4 else 2
  let raw := (List.range 11).flatMap (fun l => (List.range s.frames).flatMap (fun i =>
    (List.range (2 ^ (11 - l))).map (fun j => builtEntry s scale i l j)))
  let sat := (raw.filter (fun v => v != satS (8 * w) v)).length
  let header := toLE 2 table ++ toLE 2 gen ++ toLE 2 s.frames ++ toLE 1 (b2n s.wide) ++ toLE 1 flags ++
    toLE 4 (scaleCode scale) ++ toLE 4 sat ++ toLE 6 stamp ++ List.replicate 234 0
  (header ++ raw.flatMap (fun v => toLE w (unsx (8 * w) (satS (8 * w) v))), sat)

/-- The builder writes an image into the banks of a generation (R218, R226): those it still owns (R345). -/
def storeImage (banks : List Nat) (image : List Byte) (b : Block) : Block :=
  (banks.zipIdx).foldl (fun b e => slateStore rqTBLD (e.1 * 2 ^ 19) ((image.drop (e.2 * 2 ^ 19)).take (2 ^ 19)) b) b

/-- Banks of a generation (R217). -/
def banksNeeded (frames : Nat) (wide : Bool) : Nat := (256 + (if wide then 4 else 2) * frames * 4094 + 2 ^ 19 - 1) / 2 ^ 19

/-! ### Descriptors and the pool -/

/-- W4 and W5: the retiring list while MORPHING is 1, else the pending list (R257). -/
def showLists (t : Nat) (b : Block) : Block :=
  let x := tableX b t
  match x.retire, x.pend with
  | some r, _ => b.setDescBanks rTBL_DESC_W45 t r.1
  | none, some g => b.setDescBanks rTBL_DESC_W45 t g.banks
  | none, none => b.setDescBanks rTBL_DESC_W45 t []

/-- TBLD_STAT: BUSY, QUEUED and CUR_TABLE (R257). -/
def noteBuilder (b : Block) : Block :=
  let b := (b.wrB fTBLD_STAT_BUSY b.store.running.isSome).wr fTBLD_STAT_QUEUED b.store.builds.length
  match b.store.running with
  | some k => b.wr fTBLD_STAT_CUR_TABLE k.table
  | none => b

/-- The free banks of the builder's pool, in ascending order (R222). -/
def freePool (b : Block) : List Nat :=
  let held := generationBanks b ++ (match b.store.running with | some k => k.banks | none => [])
  (List.range 64).filter (fun k => b.owner k == rqTBLD && !held.contains k)

/-- The generation number after one (R220). -/
def nextGen (g : Nat) : Nat := g % 65535 + 1

/-! ### Builds (R222 to R228) -/

/-- The length of a build's source in bytes. -/
def sourceLen (b : Block) (t : Nat) : Nat :=
  (if b.flag (fTBL_DESC_W0_WIDTH.at t) then 4 else 2) * 2048 * b.rd (fTBL_DESC_W0_FRAMES.at t)

/-- A slate source has a bank that the host port does not own (R223, R227). -/
def sourceLost (b : Block) (addr len : Nat) : Bool := (banksOfRange addr len).any (fun k => b.owner k != rqHOST)

def mTableDefine : Meaning where
  chk p b :=
    let t := leAt p 0 1
    if 127 < t || 1 < leAt p 1 1 || leAt p 2 2 = 0 || 256 < leAt p 2 2 || 1024 < leAt p 4 2 || tableState b t ≠ 0 then
      some .badField
    else none
  eff _ _ p b :=
    let t := leAt p 0 1
    let wide := leAt p 1 1 == 1
    let b := ((b.wr (fTBL_DESC_W0_STATE.at t) 1).wrB (fTBL_DESC_W0_WIDTH.at t) wide).wr (fTBL_DESC_W0_FRAMES.at t) (leAt p 2 2)
    (ok [], refreshCosts
      ((b.wr (fTBL_DESC_W0_MORPH_LEN.at t) (leAt p 4 2)).wr (fTBL_DESC_W1_NBANKS.at t) (banksNeeded (leAt p 2 2) wide)))

def mTableBuild : Meaning where
  chk p b :=
    let t := leAt p 0 1
    let addr := leAt p 4 8
    let len := sourceLen b t
    if 127 < t || 7 < leAt p 1 1 || 1 < leAt p 2 1 || addr % 64 ≠ 0 || tableState b t = 0 then some .badField
    else if leAt p 2 1 = 0 ∧ !trained b then some .lpddrNotTrained
    else if leAt p 2 1 = 0 ∧ fittedBytes b < addr + len then some .badField
    else if leAt p 2 1 = 1 ∧ 2 ^ 25 < addr + len then some .badField
    else if 8 ≤ b.store.builds.length then some .busyBackpressure
    else if leAt p 2 1 = 1 ∧ sourceLost b addr len then some .regionNotOwned
    else if b.store.running.isNone && b.store.builds.isEmpty &&
        decide ((freePool b).length < b.rd (fTBL_DESC_W1_NBANKS.at t)) then some .regionNotOwned
    else none
  eff tok stamp p b :=
    let k : Build :=
      { tok := tok, stamp := stamp, table := leAt p 0 1, flags := leAt p 1 1, space := leAt p 2 1, addr := leAt p 4 8, banks := [] }
    (.later, noteBuilder { b with store := { b.store with builds := b.store.builds ++ [k] } })

/-- The running build ends without a generation. -/
def dropBuild (b : Block) : Block := noteBuilder { b with store := { b.store with running := none } }

/-- A running build loses its source (R227). -/
def checkBuild (b : Block) : Block :=
  match b.store.running with
  | none => b
  | some k =>
    let fail (r : Reason) : Block := ((dropBuild b).raise evTBL_BUILD_FAIL).finish k.tok k.stamp false (failedWith r [])
    if k.space = 1 && sourceLost b k.addr (sourceLen b k.table) then fail .regionNotOwned
    else if k.space = 0 && !trained b then fail .lpddrNotTrained
    else b

/-- BUILD_START (R222, R226): the next build takes the lowest-numbered free banks it needs. -/
def buildStart (b : Block) : Block :=
  match b.store.running, b.store.builds with
  | none, k :: rest =>
    if !b.on dTBLD then b
    else
      let need := b.rd (fTBL_DESC_W1_NBANKS.at k.table)
      let pool := freePool b
      let b := { b with store := { b.store with builds := rest } }
      if pool.length < need then (noteBuilder b).finish k.tok k.stamp false (refusedWith .regionNotOwned)
      else checkBuild (noteBuilder { b with store := { b.store with running := some { k with banks := pool.take need } } })
  | _, _ => b

/-- The first boundary at which a generation just built may commit: on a PRIMARY two periods later (R229, R504). -/
def firstCommit (b : Block) : Nat :=
  if b.isPrimary then b.boundAt ((b.now + 2 * b.period) % tideMod) else b.nextBound

/-- What the builder found as it read a source (R227, R348): the words with an uncorrectable error, reported as that memory's
errors are. An error in slate stands in the words read; one in LPDDR5 is a free value, and so is its word. DESIGN CHOICE,
notes/assumptions/49.md -/
def sourceErrors (k : Build) (len : Nat) (b : Block) : List Nat × Block :=
  if k.space = 0 then
    let (e, b) := b.fresh 227
    match e % 3 with
    | 0 => ([], b)
    | 1 => ([], b.raise evLPDDR_ECC_CORR)
    | _ =>
      let (w, b) := b.freshWord
      ([w % (len / 8)], b.raise evLPDDR_ECC_UNCORR)
  else
    let ws := (b.slate.hurt.map (·.1)).filter (fun w => decide (k.addr ≤ 8 * w) && decide (8 * w < k.addr + len))
    ((ws.filter (fun w => eccOf b w == .double)).map (· - k.addr / 8), forL ws (fun w b => checkRead (8 * w) b) b)

/-- What the running build works from, its errors reported. -/
def buildSource (k : Build) (b : Block) : Source × Block :=
  let frames := b.rd (fTBL_DESC_W0_FRAMES.at k.table)
  let wide := b.flag (fTBL_DESC_W0_WIDTH.at k.table)
  let data := sourceData b k frames wide
  let (bad, b) := sourceErrors k (sourceLen b k.table) b
  let (seed, b) := b.freshWord
  ({ frames := frames, wide := wide, normalise := bit k.flags 1, dcRemove := bit k.flags 2, data := data, bad := bad, seed := seed }, b)

/-- The words of a generation in its banks, its descriptor, and what the builder holds of the table (R504). -/
def builtRuns (t : Nat) (banks : List Nat) (bytes : Nat) : List (Nat × Nat) :=
  (banks.zipIdx).map (fun e => (0x02000000 + 0x80000 * e.1, (min 0x80000 (bytes - 0x80000 * e.2) + 3) / 4)) ++
  [(rTBL_DESC_W0 + 0x20 * t, 8), (copyTables + 0x20 * t, 8)]

/-- A PRIMARY copies to its shadow what it has built, and orders the commit that the build brings with it (R504). -/
def copyBuilt (t : Nat) (banks : List Nat) (bytes : Nat) (commit : Bool) (b : Block) : Block :=
  if !copies b then b
  else
    let b := addCopy (builtRuns t banks bytes) b
    if commit then mirrorCommand 0x0302 (firstCommit b) (toLE 4 1 ++ toLE 1 t) b else b

/-- A commit waits for the copy of its tables (R504): on a PRIMARY until its shadow has acknowledged it, on a shadow in step until it
has come. -/
def awaitsCopy (b : Block) (ts : List Nat) : Bool :=
  (copies b && copyLeft b) || (b.isShadow && ferryState b == 6 && ts.any (fun t => (tableX b t).pend.isNone))

/-- BUILD_COMPLETE (R219, R224, R227, R229, R233): the image is in its banks, the generation is pending, and the command replies
with the GEN to be committed and SAT. -/
def buildComplete (b : Block) : Block :=
  match b.store.running with
  | none => b
  | some k =>
    let t := k.table
    let (s, b) := buildSource k b
    let gen := nextGen (b.rd (fTBL_DESC_W1_GEN.at t))
    let (image, sat) := buildImage s t gen k.flags b.now
    let b := (storeImage k.banks image (dropBuild b)).countUp fTBLD_SAT_COUNT_COUNT sat
    let x := tableX b t
    let b := b.setTableX t { x with
      pend := some { banks := k.banks, commitAt := if bit k.flags 0 then some (firstCommit b) else none } }
    let b := copyBuilt t k.banks image.length (bit k.flags 0) (showLists t (b.wr (fTBL_DESC_W0_PENDING.at t) 1))
    b.finish k.tok k.stamp false (ok (toLE 2 gen ++ toLE 2 0 ++ toLE 4 sat))

/-- STOP_TBLD (R228): every build ends CANCELLED; complete pending generations stay. -/
def stopBuilder (b : Block) : Block :=
  let all := b.store.running.toList ++ b.store.builds
  let b := noteBuilder { b with store := { b.store with running := none, builds := [] } }
  forL all (fun k b => b.finish k.tok k.stamp false cancelled) b

/-! ### Commit and return (R229 to R233) -/

/-- An oscillator of a voice reads a table. -/
def oscReads (b : Block) (x : Voice) (n t : Nat) : Bool :=
  let p := b.patch x.patch
  pMode p n == oscModeTable && pSource p n == t

/-- Every voice already rendered starts to morph in the oscillators that read a table (R231). -/
def startMorph (t : Nat) (b : Block) : Block :=
  { b with voices := b.voices.map (fun e =>
    if e.2.st != 0 && e.2.renders != 0 then
      (e.1, { e.2 with osc := e.2.osc.mapIdx (fun n o => if oscReads b e.2 n t then { o with morph := some 0 } else o) })
    else e) }

/-- A pending generation is committed at boundary k (R230 to R232). -/
def commitTable (t k : Nat) (b : Block) : Block :=
  let x := tableX b t
  match x.pend with
  | none => b
  | some g =>
    let m := b.rd (fTBL_DESC_W0_MORPH_LEN.at t)
    let old := if tableState b t = 2 then some (committedBanks b t, m + 1) else none
    let b := forL g.banks (giveBank rqVOICE) b
    let b := (b.setTableX t { x with pend := none, retire := old }).setDescBanks rTBL_DESC_W23 t g.banks
    let b := ((b.wr (fTBL_DESC_W0_STATE.at t) 2).wr (fTBL_DESC_W0_PENDING.at t) 0).wrB (fTBL_DESC_W0_MORPHING.at t) old.isSome
    let b := b.wr (fTBL_DESC_W1_GEN.at t) (nextGen (b.rd (fTBL_DESC_W1_GEN.at t)))
    let b := (b.wr (fTBL_DESC_W6_STAMP_LO.at t) k).wr (fTBL_DESC_W7_STAMP_HI.at t) (k / 2 ^ 32)
    let b := showLists t b
    if old.isSome && m != 0 then startMorph t b else b

/-- A boundary passes for a table: its retiring banks, and those of a freed table, return to the builder's pool at the last of
those they wait for (R232, R236). -/
def returnBanks (t : Nat) (b : Block) : Block :=
  let x := tableX b t
  let b := match x.retire with
    | some (l, n) =>
      if n ≤ 1 then
        showLists t (((forL l (giveBank rqTBLD) b).setTableX t { x with retire := none }).wr (fTBL_DESC_W0_MORPHING.at t) 0)
      else b.setTableX t { x with retire := some (l, n - 1) }
    | none => b
  let x := tableX b t
  match x.freed with
  | some (l, n) =>
    if n ≤ 1 then (forL l (giveBank rqTBLD) b).setTableX t { x with freed := none }
    else b.setTableX t { x with freed := some (l, n - 1) }
  | none => b

/-- A patch reads a table. -/
def patchReads (p : List Byte) (mode k : Nat) : Bool := (List.range 4).any (fun n => pMode p n == mode && pSource p n == k)

/-- An enabled class's patch reads a table or map (R236, R247). -/
def classReads (b : Block) (mode k : Nat) : Bool :=
  (List.range 64).any (fun c => classOn b c && patchReads (b.patch (b.rd (fCLASS_CFG_PATCH.at c))) mode k)

/-- A table becomes UNDEFINED at its boundary (R236). -/
def freeTable (t : Nat) (b : Block) : Block :=
  let gone := (b.store.running.toList ++ b.store.builds).filter (fun d => d.table == t)
  let b := noteBuilder { b with store := { b.store with
    running := b.store.running.filter (fun d => d.table != t), builds := b.store.builds.filter (fun d => d.table != t) } }
  let b := forL gone (fun d b => b.finish d.tok d.stamp false (failedWith .aborted [])) b
  let x := tableX b t
  let back := (if tableState b t = 2 then committedBanks b t else []) ++ (match x.retire with | some r => r.1 | none => []) ++
    (match x.freed with | some r => r.1 | none => [])
  let b := b.setTableX t { pend := none, retire := none, freed := if back.isEmpty then none else some (back, 1) }
  refreshCosts (forN 6 (fun i b => b.setWord (rTBL_DESC_W0 + 0x20 * t + 4 * i) 0) b)

/-- What a TABLE_COMMIT or TABLE_FREE waiting for its boundary does at boundary k: a commit waits until every retiring
generation of its tables has returned (R229). Answers whether it is done and whether a table was committed. -/
def tableAct (a : Held) (k : Nat) (b : Block) : Bool × Bool × Block :=
  if a.tok.op = 0x0303 then (true, false, (freeTable (leAt a.payload 0 1) b).finish a.tok k false (ok []))
  else
    let ts := ((a.payload.drop 4).map (·.toNat)).eraseDups
    if ts.any (fun t => (tableX b t).retire.isSome) || awaitsCopy b ts then (false, false, b)
    else
      let any := ts.any (fun t => (tableX b t).pend.isSome)
      (true, any, (forL ts (fun t b => commitTable t k b) b).finish a.tok k false (ok []))

/-- The tables at boundary k: returns, commits by command, frees and automatic commits, and TBL_COMMIT once (R229 to R236). -/
def tableBoundary (b : Block) : Block :=
  let k := b.lastBound
  let b := forN 128 returnBanks b
  let acts := b.store.acts
  let (did, b) := acts.foldl (fun (s : Bool × Block) a =>
    let (gone, c, b) := tableAct a k s.2
    (s.1 || c, if gone then b else { b with store := { b.store with acts := b.store.acts ++ [a] } }))
    (false, { b with store := { b.store with acts := [] } })
  let auto := (List.range 128).filter (fun t =>
    let x := tableX b t
    x.retire.isNone && !awaitsCopy b [t] && (match x.pend with | some g => (match g.commitAt with | some c => b.hasCome c | none => false) | none => false))
  let b := forL auto (fun t b => commitTable t k b) b
  b.raiseIf (did || !auto.isEmpty) evTBL_COMMIT

def mTableCommit : Meaning where
  chk p b :=
    if ((p.drop 4).map (·.toNat)).any (fun t => decide (127 < t) || (tableX b t).pend.isNone) then some .badField else none
  eff tok stamp p b :=
    (.later, { b with store := { b.store with acts := b.store.acts ++ [{ tok := tok, at_ := stamp, payload := p, timed := false, seq := 0 }] } })
  again := false

def mTableFree : Meaning where
  chk p b :=
    if 127 < leAt p 0 1 || 1 < leAt p 1 1 then some .badField
    else if leAt p 1 1 = 0 ∧ classReads b oscModeTable (leAt p 0 1) then some .notOwner
    else none
  eff tok stamp p b :=
    (.later, { b with store := { b.store with acts := b.store.acts ++ [{ tok := tok, at_ := stamp, payload := p, timed := false, seq := 0 }] } })

def mTableStatus : Meaning where
  chk p _ := if 127 < leAt p 0 1 then some .badField else none
  eff _ _ p b := (ok (words4 b ((List.range 8).map (fun i => rTBL_DESC_W0 + 0x20 * leAt p 0 1 + 4 * i))), b)

def execBuildStart (s : State) := done buildStart s
def execBuildComplete (s : State) := done buildComplete s
def execTableDefine (c : Cmd) (s : State) := done (command 0x0300 mTableDefine c) s
def execTableBuild (c : Cmd) (s : State) := done (command 0x0301 mTableBuild c) s
def execTableCommit (c : Cmd) (s : State) := done (command 0x0302 mTableCommit c) s
def execTableFree (c : Cmd) (s : State) := done (command 0x0303 mTableFree c) s
def execTableStatus (c : Cmd) (s : State) := done (command 0x0304 mTableStatus c) s

end Sys2Proof.Machine
end

