-- ==== Sys2Proof/Machine/Streams.lean ====
section
/-! DEFINITION. The sample library, sample maps and stream slots (06 R237 to R255, R263, R264). -/

namespace Sys2Proof.Machine

/-! ### The library (R237 to R239) -/

/-- The library's first byte and length (R237). -/
def libBase (b : Block) : Nat := b.rd fSTRM_LIB_BASE_BASE * 2 ^ 20
def libSize (b : Block) : Nat := b.rd fSTRM_LIB_BASE_SIZE * 2 ^ 20

/-- A range of LPDDR5 lies within the library. -/
def inLibrary (b : Block) (addr len : Nat) : Bool := decide (libBase b ≤ addr) && decide (addr + len ≤ libBase b + libSize b)

/-- Stores bytes in LPDDR5. -/
def Block.setLpddr (b : Block) (a : Nat) (bs : List Byte) : Block :=
  { b with slate := { b.slate with lpddr := smWriteAll (fun _ => 0) b.slate.lpddr a bs } }

/-- What a byte of the flash reads as where nothing has been written. -/
def flashErased (_ : Nat) : Byte := 0xFF

/-- n bytes of the octal-SPI flash. -/
def Block.flashBytes (b : Block) (a n : Nat) : List Byte := smRange flashErased b.pwr.flash a n

def mLibrarySet : Meaning where
  chk p b :=
    if !trained b then some .lpddrNotTrained
    else if fittedBytes b < (leAt p 0 2 + leAt p 2 2) * 2 ^ 20 then some .badField
    else if b.flag fSTRM_CTRL_ENABLE || b.store.maps.any (fun m => m.2.state == 3) then some .notOwner
    else none
  eff _ _ p b :=
    (ok [], (((hashStale b).wr fSTRM_LIB_BASE_BASE (leAt p 0 2)).wr fSTRM_LIB_BASE_SIZE (leAt p 2 2)).wr fSTRM_LIB_STAT_VALID 1)

def mLibraryLoad : Meaning where
  chk p b :=
    if !trained b then some .lpddrNotTrained
    else if leAt p 4 4 % 64 ≠ 0 || leAt p 0 4 < 0x00300000 then some .badField
    else if libSize b < leAt p 4 4 + leAt p 8 4 then some .sampleOutOfLibrary
    else none
  eff tok stamp p b :=
    (.later, { hashStale b with store := { b.store with
      loading := b.store.loading ++ [(tok, stamp, leAt p 0 4, leAt p 4 4, leAt p 8 4)] } }.wr fSTRM_LIB_STAT_LOAD_BUSY 1)

/-- LIBRARY_LOAD_DONE (R238, R239): the copy is complete, or a flash error has stopped it at a byte. Loads run one at a time
(DESIGN CHOICE, notes/assumptions/50.md); LOAD_BUSY clears with the last. -/
def libraryLoadDone (errorAt : Option Nat) (b : Block) : Block :=
  match b.store.loading with
  | [] => b
  | (tok, stamp, flash, off, len) :: rest =>
    let n := match errorAt with | some e => min e len | none => len
    let data := b.flashBytes flash n
    let b := ({ b with store := { b.store with loading := rest } }.setLpddr (libBase b + off) data).wrB fSTRM_LIB_STAT_LOAD_BUSY
      (!rest.isEmpty)
    let reply := toLE 4 n ++ toLE 4 (crc32c data)
    match errorAt with
    | none => (b.wr fSTRM_LIB_STAT_VALID 1).finish tok stamp false (ok reply)
    | some _ => (b.raise evFLASH_ERR).finish tok stamp false (failedWith .aborted reply)

/-! ### Streams switched on and off (R248, R255) -/

/-- The checks of STRM_CTRL.ENABLE (R248). -/
def checkStream (b : Block) : Option Reason :=
  if !trained b then some .lpddrNotTrained
  else if (streamBanks b).any (fun k => decide (64 ≤ k) || b.owner k != rqSTRM) then some .regionNotOwned
  else none

/-- STRM_CTRL.ENABLE falls: fetching stops at the next boundary (R255). -/
def streamsOff (b : Block) : Block := { b with store := { b.store with stopAtBound := true } }

/-- A write of STRM_CFG or STRM_RING_BANK: ignored while ENABLE is 1 (R248). -/
def writeStrmCfg (a v : Nat) (b : Block) : Block := if b.flag fSTRM_CTRL_ENABLE then b else b.put a v

def mStreamConfig : Meaning where
  chk p b :=
    if b.flag fSTRM_CTRL_ENABLE then some .notOwner
    else if 63 < leAt p 0 1 || 3 < leAt p 1 1 || leAt p 2 2 < 64 || 1024 < leAt p 2 2 || leAt p 4 2 = 0 || 2048 < leAt p 4 2 then
      some .badField
    else none
  eff _ _ p b :=
    let b := ((b.wr fSTRM_RING_BANK_BANK (leAt p 0 1)).wr fSTRM_CFG_RING (leAt p 1 1)).wr fSTRM_CFG_LEAD (leAt p 2 2)
    (ok [], (b.wr fSTRM_CFG_SLOTS (leAt p 4 2)).setWord64 rSTRM_HEAD (leAt p 8 8))

/-- STREAM_ENABLE (R237, R248, R264): an enable goes through roll call, which names LPDDR_NOT_TRAINED itself; the forms that make
no check there are refused here. -/
def mStreamEnable : Meaning where
  chk p b :=
    if 1 < leAt p 0 1 || 1 < leAt p 1 1 then some .badField
    else if (leAt p 0 1 = 0 ∨ b.flag fSTRM_CTRL_ENABLE) ∧ !trained b then some .lpddrNotTrained
    else none
  eff tok stamp p b :=
    let b' := b.wr fSTRM_CTRL_END_EVT (leAt p 1 1)
    if leAt p 0 1 = 1 then enableByCommand rSTRM_CTRL tok stamp b [rSTRM_CTRL] b'
    else (ok [], streamsOff (clearEnable rSTRM_CTRL b'))

/-! ### Sample maps (R240 to R247) -/

/-- Zones allotted to the maps other than one (R247). -/
def zonesElsewhere (b : Block) (m : Nat) : Nat :=
  b.store.maps.foldl (fun s e => if e.1 = m then s else s + e.2.zones.length) 0

/-- A map becomes UNDEFINED; a seal of it under way or waiting ends (DESIGN CHOICE, entry 11). -/
def freeMap (m : Nat) (b : Block) : Block :=
  let b := refreshCosts (b.setMap m SampleMap.reset)
  let (gone, kept) := b.store.sealing.partition (fun k => k.2.2 == m)
  forL gone (fun k b => b.finish k.1 k.2.1 false (failedWith .aborted [])) { b with store := { b.store with sealing := kept } }

def mSampleMapBegin : Meaning where
  chk p b :=
    let m := leAt p 0 2
    if !trained b then some .lpddrNotTrained
    else if 255 < m || leAt p 2 2 = 0 || 512 < leAt p 2 2 then some .badField
    else if classReads b oscModeSample m then some .notOwner
    else if 8192 < zonesElsewhere b m + leAt p 2 2 then some .badField
    else none
  eff _ _ p b :=
    let m := leAt p 0 2
    (ok [], (freeMap m b).setMap m { state := 1, zones := List.replicate (leAt p 2 2) none, heads := [] })

/-- A zone's loop fields (R241). -/
def loopOk (z : List Byte) : Bool :=
  if zLoops z then
    decide (zLoopStart z < zLoopEnd z) && decide (zLoopEnd z ≤ zFrames z) && decide (8 ≤ zLoopEnd z - zLoopStart z) &&
    decide (zXfade z ≤ zLoopStart z) && decide (zXfade z ≤ zLoopEnd z - zLoopStart z)
  else zLoopStart z == 0 && zLoopEnd z == 0 && zXfade z == 0

/-- A zone descriptor's fields are in range (R240, R241). -/
def zoneOk (z : List Byte) : Bool :=
  decide (2 ≤ zFrames z) && decide (1024000 ≤ zRate z) && decide (zRate z ≤ 98304000) && decide (zGain z < 2 ^ 31) &&
  decide (zXfade z ≤ 1024) && decide (64 ≤ zHead z) && decide (zHead z ≤ 1024) && decide (zHead z ≤ zFrames z) &&
  decide (leAt z 32 1 < 4) && decide (leAt z 33 1 ≤ 1) && decide (leAt z 34 1 ≤ leAt z 35 1) && decide (leAt z 35 1 ≤ 127) &&
  decide (leAt z 36 1 ≤ leAt z 37 1) && leAt z 38 2 == 0 && loopOk z

/-- The zone descriptors of a SAMPLE_MAP_ZONES payload. -/
def zonesOf (p : List Byte) : List (List Byte) := (List.range ((p.length - 4) / 40)).map (fun i => (p.drop (4 + 40 * i)).take 40)

def mSampleMapZones : Meaning where
  chk p b :=
    let m := leAt p 0 2
    let mp := sampleMap b m
    if !trained b then some .lpddrNotTrained
    else if 255 < m then some .badField
    else if classReads b oscModeSample m then some .notOwner
    else if mp.state ≠ 1 || mp.zones.length < leAt p 2 2 + (zonesOf p).length then some .badField
    else if (zonesOf p).any (fun z => !inLibrary b (zAddr z) (zFrames z * zBytes z)) then some .sampleOutOfLibrary
    else if (zonesOf p).all zoneOk then none
    else some .badField
  eff _ _ p b :=
    let m := leAt p 0 2
    let mp := sampleMap b m
    let zs := ((zonesOf p).zipIdx).foldl (fun l e => l.set (leAt p 2 2 + e.2) (some e.1)) mp.zones
    (ok [], refreshCosts (b.setMap m { mp with zones := zs, state := if zs.all (·.isSome) then 2 else 1 }))

/-- The bytes of a zone's resident data (R246). -/
def residentLen (z : List Byte) : Nat := ((zHead z + zXfade z) * zBytes z + 63) / 64 * 64

/-- The resident data of the RESIDENT maps other than one: where each piece lies and how long it is. -/
def residentPieces (b : Block) (m : Nat) : List (Nat × Nat) :=
  b.store.maps.flatMap (fun e =>
    if e.1 = m ∨ e.2.state ≠ 3 then []
    else (e.2.zones.zipIdx).map (fun z => (nth 0 e.2.heads z.2, match z.1 with | some d => residentLen d | none => 0)))

/-- The lowest place in the head banks, in 64-byte steps and within one bank, that is free for a piece (notes/assumptions/11.md:
where the pieces lie is not stated). -/
def placePiece (banks : List Nat) (taken : List (Nat × Nat)) (len : Nat) : Option Nat :=
  let starts := banks.flatMap (fun k => k * 2 ^ 19 :: (taken.filterMap (fun t =>
    if t.1 / 2 ^ 19 = k then some (t.1 + t.2) else none)))
  let fits (o : Nat) : Bool := o % 2 ^ 19 + len ≤ 2 ^ 19 && banks.contains (o / 2 ^ 19) &&
    taken.all (fun t => decide (t.1 + t.2 ≤ o) || decide (o + len ≤ t.1))
  (starts.filter fits).foldl (fun m o => match m with | none => some o | some k => some (min k o)) none

/-- Places for all zones of a map; none where the head banks lack room (R246). -/
def placeMap (b : Block) (m : Nat) : Option (List Nat) :=
  let banks := banksIn (b.word64 rSTRM_HEAD)
  ((sampleMap b m).zones.foldl (fun (s : Option (List Nat × List (Nat × Nat))) z =>
    match s with
    | none => none
    | some (hs, taken) =>
      let len := match z with | some d => residentLen d | none => 0
      match placePiece banks taken len with
      | some o => some (hs ++ [o], taken ++ [(o, len)])
      | none => none) (some ([], residentPieces b m))).map (·.1)

def mSampleMapSeal : Meaning where
  chk p b :=
    let m := leAt p 0 2
    if !trained b then some .lpddrNotTrained
    else if 255 < m || (sampleMap b m).state < 2 then some .badField
    else if (placeMap b m).isNone then some .headNotResident
    else none
  eff tok stamp p b := (.later, { b with store := { b.store with sealing := b.store.sealing ++ [(tok, stamp, leAt p 0 2)] } })

/-- SEAL_COPY_DONE (R246; seals run one at a time, DESIGN CHOICE, notes/assumptions/50.md): the heads and crossfade blocks are in slate and the map is RESIDENT. -/
def sealCopyDone (b : Block) : Block :=
  match b.store.sealing with
  | [] => b
  | (tok, stamp, m) :: rest =>
    let b := { b with store := { b.store with sealing := rest } }
    match placeMap b m with
    | none => b.finish tok stamp false (failedWith .headNotResident [])
    | some hs =>
      let mp := sampleMap b m
      let b := (mp.zones.zipIdx).foldl (fun b e =>
        match e.1 with
        | some z =>
          let fb := zBytes z
          let at_ := nth 0 hs e.2
          let b := slateStore rqSTRM at_ (b.lpddrBytes (zAddr z) (zHead z * fb)) b
          if zXfade z = 0 then b
          else slateStore rqSTRM (at_ + zHead z * fb) (b.lpddrBytes (zAddr z + (zLoopStart z - zXfade z) * fb) (zXfade z * fb)) b
        | none => b) b
      let used := mp.zones.foldl (fun s z => s + (match z with | some d => residentLen d | none => 0)) 0
      (b.setMap m { mp with state := 3, heads := hs }).finish tok stamp false (ok (toLE 4 used))

def mSampleMapFree : Meaning where
  chk p b :=
    if !trained b then some .lpddrNotTrained
    else if 255 < leAt p 0 2 then some .badField
    else if classReads b oscModeSample (leAt p 0 2) then some .notOwner
    else none
  eff _ _ p b := (ok [], freeMap (leAt p 0 2) b)

/-! ### Fetching (R250 to R252) -/

/-- The pass of the ring's own frame i. -/
def ringPass (z : List Byte) (first i : Nat) : Nat :=
  if zLoops z then
    let n0 := zLoopEnd z - first
    if i < n0 then 0 else 1 + (i - n0) / max 1 (zLoopEnd z - max (zLoopStart z) (zHead z))
  else 0

/-- Frame f of pass p counted along the play sequence (R244). -/
def unrolled (z : List Byte) (p f : Nat) : Nat :=
  if p = 0 then f else zLoopEnd z + (p - 1) * (zLoopEnd z - zLoopStart z) + (f - zLoopStart z)

/-- E of R251: one past the last frame of the play sequence that is held, counted along it. -/
def heldEnd (z : List Byte) (s : Slot) : Nat :=
  let n := s.held / max 1 (zBytes z)
  match ringTotal z s.first with
  | some t => if t ≤ n then zFrames z else unrolled z (ringPass z s.first n) (ringFrame z s.first n)
  | none => unrolled z (ringPass z s.first n) (ringFrame z s.first n)

/-- The deadline of a slot in boundaries from boundary k (R251). -/
def slotDeadline (b : Block) (k : Nat) (s : Slot) : Nat :=
  let z := zoneOf b s.map s.zone
  let x := b.voice s.voice
  match (List.range 4).find? (fun n => (x.oscN n).zone == some (s.map, s.zone)) with
  | some n =>
    let o := x.oscN n
    k + (heldEnd z s - unrolled z o.loops (o.acc / 2 ^ 32) - 4) * 2 ^ 32 / max o.inc.toNat (2 ^ 24)
  | none => k

/-- Stream descriptors changed since the last boundary come into force (R23). -/
def seeStreams (b : Block) : Block :=
  { b with store := { b.store with
    seen := { maps := b.store.maps, code := b.rd fSTRM_CFG_RING, bank := b.rd fSTRM_RING_BANK_BANK, slots := b.rd fSTRM_CFG_SLOTS } } }

/-- The streams at a boundary: the descriptors as they stand come into force (R23), and the slots close where ENABLE was cleared
(R255), else have their deadlines anew (R251). -/
def streamBoundary (b : Block) : Block :=
  if b.store.stopAtBound then
    let b := { b with store := { b.store with stopAtBound := false } }
    seeStreams (forL b.store.slots (fun s b => closeSlot b s.id) b)
  else
    let b := seeStreams b
    let k := b.lastBound / b.period
    { b with store := { b.store with slots := b.store.slots.map (fun s => { s with deadline := slotDeadline b k s }) } }

/-- Bytes of the play sequence that a slot's ring is ever given (R250). -/
def slotTotal (b : Block) (s : Slot) : Option Nat :=
  (ringTotal (zoneOf b s.map s.zone) s.first).map (fun t => t * zBytes (zoneOf b s.map s.zone))

/-- A slot is eligible: 256 bytes of its ring are free of data and of chunks asked for, and its sequence goes on (R250). -/
def eligible (b : Block) (s : Slot) : Bool :=
  let next := s.held + 256 * s.asked
  decide (next + 256 ≤ s.passed + ringLen b) && (match slotTotal b s with | some t => decide (next < t) | none => true)

/-- STREAM_FETCH_ISSUE (R250, R251): a chunk is asked for, for the eligible slot with the smallest deadline, the lower number on
a tie; at most 32 are outstanding. Fetching goes on to the boundary at which a stop takes effect (R255). -/
def streamFetchIssue (b : Block) : Block :=
  if !(b.flag fSTRM_CTRL_ENABLE || b.store.stopAtBound) || !trained b || decide (32 ≤ b.store.requests.length) then b
  else
    let best := (b.store.slots.filter (eligible b)).foldl (fun (m : Option Slot) s =>
      match m with
      | none => some s
      | some t => if s.deadline < t.deadline ∨ (s.deadline = t.deadline ∧ s.id < t.id) then some s else m) none
    match best with
    | none => b
    | some s =>
      { b with store := { b.store with
        requests := b.store.requests ++ [s.id]
        slots := b.store.slots.map (fun t => if t.id = s.id then { t with asked := t.asked + 1 } else t) } }

/-- Byte n of a slot's play sequence in LPDDR5 (R250). -/
def sequenceByte (b : Block) (s : Slot) (n : Nat) : Byte :=
  let z := zoneOf b s.map s.zone
  let fb := max 1 (zBytes z)
  smGet (fun _ => 0) b.slate.lpddr (zAddr z + ringFrame z s.first (n / fb) * fb + n % fb)

/-- STREAM_CHUNK_ARRIVE (R250, R579): the chunk asked for first arrives and is appended to its ring. An uncorrectable error
leaves the chunk's bytes free. -/
def streamChunkArrive (ecc : Ecc) (b : Block) : Block :=
  match b.store.requests with
  | [] => b
  | id :: rest =>
    let b := { b with store := { b.store with requests := rest } }
    match b.store.slots.find? (fun s => s.id == id) with
    | none => b
    | some s =>
      let n := match slotTotal b s with | some t => min 256 (t - s.held) | none => 256
      let clean := (List.range n).map (fun i => sequenceByte b s (s.held + i))
      let (data, b) := match ecc with
        | .double => (List.range 64).foldl (fun (d : List Byte × Block) _ =>
            let (w, b) := d.2.freshWord
            ((d.1 ++ toLE 4 w).take n, b)) ([], b)
        | _ => (clean, b)
      let b := match ecc with
        | .clean => b
        | .single => b.raise evLPDDR_ECC_CORR
        | .double => b.raise evLPDDR_ECC_UNCORR
      let b := slateStore rqSTRM (ringBase b id + s.held % ringLen b) data b
      { b with store := { b.store with
        slots := b.store.slots.map (fun t => if t.id = id then { t with held := t.held + n, asked := t.asked - 1 } else t) } }

def execLibrarySet (c : Cmd) (s : State) := done (command 0x0400 mLibrarySet c) s
def execLibraryLoad (c : Cmd) (s : State) := done (command 0x0401 mLibraryLoad c) s
def execLibraryLoadDone (errorAt : Option Nat) (s : State) := done (libraryLoadDone errorAt) s
def execStreamConfig (c : Cmd) (s : State) := done (command 0x0402 mStreamConfig c) s
def execStreamEnable (c : Cmd) (s : State) := done (command 0x0403 mStreamEnable c) s
def execSampleMapBegin (c : Cmd) (s : State) := done (command 0x0410 mSampleMapBegin c) s
def execSampleMapZones (c : Cmd) (s : State) := done (command 0x0411 mSampleMapZones c) s
def execSampleMapSeal (c : Cmd) (s : State) := done (command 0x0412 mSampleMapSeal c) s
def execSampleMapFree (c : Cmd) (s : State) := done (command 0x0413 mSampleMapFree c) s
def execSealCopyDone (s : State) := done sealCopyDone s
def execStreamFetchIssue (s : State) := done streamFetchIssue s
def execStreamChunkArrive (ecc : Ecc) (s : State) := done (streamChunkArrive ecc) s

end Sys2Proof.Machine
end

