-- ==== Sys2Proof/Machine/Flash.lean ====
section
/-! DEFINITION. The flash under an update: slots, erasing, programming, and what an operation cut short leaves (16 R547, R548, R550,
R551). -/

namespace Sys2Proof.Machine

/-- The flash address of a slot: A 0, B 1. -/
def slotBase (slot : Nat) : Nat := 0x100000 * (1 + slot)

/-- Erases 64 KiB sectors from an address (16, the worked example; notes/assumptions/27.md). -/
def eraseFlash (a sectors : Nat) (b : Block) : Block :=
  { b with pwr := { b.pwr with flash := b.pwr.flash.filter (fun e => decide (e.1 < a) || decide (a + 0x10000 * sectors ≤ e.1)) } }

/-- Programs flash bytes: a bit that is 0 stays 0 until it is erased. -/
def programFlash (a : Nat) (bs : List Byte) (b : Block) : Block :=
  let old := b.flashBytes a bs.length
  { b with pwr := { b.pwr with flash := smWriteAll flashErased b.pwr.flash a ((old.zip bs).map (fun p => p.1 &&& p.2)) } }

/-- The sectors that a header and a body take. -/
def sectorsFor (len : Nat) : Nat := (0x1000 + len + 0xFFFF) / 0x10000

/-- The header page of the target, its CRC last (R548). -/
def headerPage (u : Update) (fields : List Byte) : List Byte :=
  let h := toLE 4 0x4F564657 ++ toLE 4 u.seq ++ fields.take 104 ++ List.replicate 140 0
  h ++ toLE 4 (crc32c h)

/-- A flash operation of an update stops short: a free number of its sectors erased, the header's first, or of its bytes programmed;
a header that is torn fails its CRC (R550, R551). -/
def tornFlash (b : Block) : Block :=
  let u := b.pwr.update
  match u.waiting with
  | none => b
  | some (tok, p) =>
    let (k, b) := b.fresh 554
    if tok.op = 0x0F00 then eraseFlash (slotBase u.target) (k % (sectorsFor u.length + 1)) b
    else if tok.op = 0x0F01 then programFlash (slotBase u.target + 0x1000 + leAt p 0 4) ((p.drop 4).take k) b
    else programFlash (slotBase u.target) ((headerPage u p).take (k % 256)) b

end Sys2Proof.Machine
end

