-- ==== Sys2Proof/Machine/Gralon.lean ====
section
/-! DEFINITION. The Gralon instruction set: registers, data spaces, the write pipeline, addressing, loops and each operation
(08 R291 to R335). A command of this family is the issue of one instruction by one core: it takes place where the word at the
core's program address is of that kind and the core may issue. -/

namespace Sys2Proof.Machine

def Block.core (b : Block) (c : Nat) : Gralon := nth Gralon.reset b.bdsp c

def Block.modCore (b : Block) (c : Nat) (f : Gralon → Gralon) : Block := { b with bdsp := b.bdsp.modify c f }

/-- RUN of a core. -/
def coreRuns (b : Block) (c : Nat) : Bool := b.flag (fBDSP_CTRL_RUN.at c)

/-- N of R299. -/
def blockSize (b : Block) (c : Nat) : Nat :=
  match b.rd (fBDSP_CTRL_BLOCK.at c) with
  | 1 => 8 | 2 => 16 | 3 => 32 | 4 => 64 | _ => 1

/-! ### Registers (R291, R292, R311) -/

/-- A selector that names a register (R311). -/
def selOk (s : Nat) : Bool := decide (s ≤ 0x3B) || (decide (0x40 ≤ s) && decide (s ≤ 0x4B))

/-- The value of a register by its selector, as a 32-bit word (R292). -/
def readSel (g : Gralon) (s : Nat) : Nat :=
  if s < 0x10 then nth 0 g.d s
  else if s < 0x18 then nth 0 g.p (s - 0x10)
  else if s < 0x20 then unsx 32 (sext 24 (nth 0 g.m (s - 0x18)))
  else if s < 0x28 then nth 0 g.b (s - 0x20)
  else if s < 0x30 then nth 0 g.l (s - 0x28)
  else if s < 0x33 then nth 0 g.lc (s - 0x30)
  else if s < 0x36 then nth 0 g.lsa (s - 0x33)
  else if s < 0x39 then nth 0 g.lea (s - 0x36)
  else if s = 0x39 then g.sr
  else if s = 0x3A then g.imask
  else if s = 0x3B then g.ipend
  else
    let a := nth 0 g.acc ((s - 0x40) / 3)
    match (s - 0x40) % 3 with
    | 0 => unsx 32 a
    | 1 => unsx 32 (a / 2 ^ 32)
    | _ => unsx 32 (sext 16 (unsx 16 (a / 2 ^ 64)))

/-- Part p of an 80-bit value replaced by the low bits of a word. -/
def putPart (a : Int) (p : Nat) (v : Nat) : Int :=
  let w := unsx 80 a
  sext 80 (match p with | 0 => putBits w 31 0 v | 1 => putBits w 63 32 v | _ => putBits w 79 64 v)

/-- A register takes a word: the low bits that it has (R292). -/
def writeSel (g : Gralon) (s v : Nat) : Gralon :=
  if s < 0x10 then { g with d := g.d.set s (v % 2 ^ 32) }
  else if s < 0x18 then { g with p := g.p.set (s - 0x10) (v % 2 ^ 24) }
  else if s < 0x20 then { g with m := g.m.set (s - 0x18) (v % 2 ^ 24) }
  else if s < 0x28 then { g with b := g.b.set (s - 0x20) (v % 2 ^ 24) }
  else if s < 0x30 then { g with l := g.l.set (s - 0x28) (v % 2 ^ 24) }
  else if s < 0x33 then { g with lc := g.lc.set (s - 0x30) (v % 2 ^ 16) }
  else if s < 0x36 then { g with lsa := g.lsa.set (s - 0x33) (v % 2 ^ 14) }
  else if s < 0x39 then { g with lea := g.lea.set (s - 0x36) (v % 2 ^ 14) }
  else if s = 0x39 then { g with sr := Nat.land v 0x77 }
  else if s = 0x3A then { g with imask := Nat.land v 0x800F }
  else if s = 0x3B then { g with ipend := v % 16 }
  else
    let n := (s - 0x40) / 3
    let part := (s - 0x40) % 3
    { g with acc := g.acc.modify n (fun a => putPart a part v), mac := g.mac.modify n (fun a => putPart a part v) }

/-- Sets or clears a bit of a number. -/
def setBit (w i : Nat) (v : Bool) : Nat := putBits w i i (b2n v)

/-- Loop level k is active (SR bits 6:4 hold LA2, LA1, LA0). -/
def Gralon.active (g : Gralon) (k : Nat) : Bool := bit g.sr (4 + k)

/-! ### Faults and sticky bits (R292, R316, R327, R335) -/

/-- BDSP_FAULT captures the first fault: 0 CIRC, 1 ILLEGAL, 2 AOV. -/
def captureFault (c cause ptr pc : Nat) (b : Block) : Block :=
  if b.flag (fBDSP_FAULT_VALID.at c) then b
  else (((b.wr (fBDSP_FAULT_VALID.at c) 1).wr (fBDSP_FAULT_CAUSE.at c) cause).wr (fBDSP_FAULT_PTR.at c) ptr).wr
    (fBDSP_FAULT_PC.at c) pc

/-- IPEND of a core gains a source. -/
def pend (c s : Nat) (b : Block) : Block := b.modCore c (fun g => { g with ipend := setBit g.ipend s true })

/-- What a rise of SR.AOV brings (R292, R322). -/
def aovRises (c : Nat) (b : Block) : Block :=
  let b := captureFault c 2 0 (b.core c).npc (b.raise evBDSP_ACC_OVF)
  if b.flag (fBDSP_CTRL_TRAP_AOV.at c) then pend c 2 b else b

/-- SR.AOV sets (R327). -/
def setAov (c : Nat) (b : Block) : Block :=
  if bit (b.core c).sr 0 then b else aovRises c (b.modCore c (fun g => { g with sr := setBit g.sr 0 true }))

def setSat (c : Nat) (b : Block) : Block := b.modCore c (fun g => { g with sr := setBit g.sr 1 true })

/-- A circular or bit-reversed access outside its buffer (R316). -/
def circFault (c ptr : Nat) (b : Block) : Block :=
  let b := (b.modCore c (fun g => { g with sr := setBit g.sr 2 true })).raise evBDSP_CIRC_FAULT
  let b := captureFault c 0 ptr (b.core c).npc b
  if b.flag (fBDSP_CTRL_TRAP_CIRC.at c) then pend c 1 b else b

/-- The core halts with its next boundary still to come: the close takes zero returns (R302, R335). -/
def zeroReturns (c : Nat) (b : Block) : Block :=
  { b with mix := { b.mix with ret := b.mix.ret.mapIdx (fun i v => if i / 16 = c then 0 else v) } }

/-- An illegal instruction stops the core before it executes (R335). -/
def illegalStop (c : Nat) (b : Block) : Block :=
  let b := captureFault c 1 0 ((b.core c).npc % 2 ^ 14) (b.raise evBDSP_ILLEGAL)
  let b := b.wr (fBDSP_CTRL_RUN.at c) 0
  zeroReturns c (b.modCore c (fun g => { g with halting := true, waiting := false, lateRet := none, depth := 0 }))

/-! ### Writes in flight (R303, R304) -/

/-- One write takes effect. -/
def landWrite (g : Gralon) (w : GWrite) : Gralon :=
  match w.dest with
  | .sel s => writeSel g s (unsx 32 w.value)
  | .mac n => { g with mac := g.mac.set n w.value }
  | .acc n => { g with acc := g.acc.set n w.value }
  | .both n => { g with mac := g.mac.set n w.value, acc := g.acc.set n w.value }
  | .la k => { g with sr := setBit g.sr (4 + k) (w.value != 0) }

/-- Puts a write in its place: by cycle, then by rank, then in the order of issue. -/
def insertWrite (w : GWrite) : List GWrite → List GWrite
  | [] => [w]
  | v :: vs => if v.due < w.due ∨ (v.due = w.due ∧ v.rank ≤ w.rank) then v :: insertWrite w vs else w :: v :: vs

/-- One write takes effect in the machine: each rise of AOV that it brings raises its event (R292). -/
def landOne (c : Nat) (w : GWrite) (b : Block) : Block :=
  let was := bit (b.core c).sr 0
  let b := b.modCore c (fun g => landWrite g w)
  if !was && bit (b.core c).sr 0 then aovRises c b else b

/-- The writes that an instruction of cycle t sees take effect, one by one. -/
def landUpTo (c t : Nat) (b : Block) : Block :=
  let due := (b.core c).flight.filter (fun w => decide (w.due ≤ t))
  forL due (landOne c) (b.modCore c (fun g => { g with flight := g.flight.filter (fun w => !decide (w.due ≤ t)) }))

/-- Those that the next instruction sees. -/
def landed (c : Nat) (b : Block) : Block := landUpTo c (b.core c).cyc b

/-- A write seen from n cycles after this instruction's (R303). -/
def Gralon.later (g : Gralon) (n rank : Nat) (dest : GDest) (v : Int) : Gralon :=
  { g with flight := insertWrite { due := g.cyc + n, rank := rank, dest := dest, value := v } g.flight }

/-- The delay of an LDI or MOVR by its destination (R303). -/
def selDelay (s : Nat) : Nat := if s < 0x10 then 1 else if s = 0x3B then 1 else if s < 0x40 then 3 else 2

/-! ### Data spaces (R293, R294) -/

/-- A read of an I/O word. -/
def ioRead (b : Block) (c a : Nat) : Nat :=
  let g := b.core c
  let passMode := blockSize b c == 1
  if a < 0x4020 then (if passMode then nth 0 g.inp (a - 0x4000) else 0)
  else if a < 0x4030 then nth 0 g.ret (a - 0x4020)
  else if a < 0x4032 then nth 0 g.ctl (a - 0x4030)
  else if a = 0x4032 then (if passMode then 0 else g.half)
  else if a = 0x4034 then g.stamp % 2 ^ 32
  else if a = 0x4035 then g.stamp / 2 ^ 32
  else if 0x4038 ≤ a ∧ a < 0x4040 then nth 0 g.lineW (a - 0x4038)
  else if 0x4040 ≤ a ∧ a < 0x4050 then nth 0 g.tap (a - 0x4040)
  else if 0x4080 ≤ a ∧ a < 0x40C0 then nth 0 g.param (a - 0x4080)
  else 0

/-- A read of X (space 0) or Y (space 1) by a 24-bit pointer. -/
def dataRead (b : Block) (c space p : Nat) : Nat :=
  let a := p % 2 ^ 15
  let g := b.core c
  if a < 0x4000 then smGet (fun _ => 0) (if space = 0 then g.x else g.y) a
  else if space = 0 then ioRead b c a
  else 0

/-- The address by which the wake journal names a word of a core's X or Y memory; the spec gives none
(notes/assumptions/20.md). -/
def journalAt (c space a : Nat) : Nat := 0x04000000 + c * 0x20000 + space * 0x10000 + 4 * a

/-- A write of X or Y: read-only and unlisted words discard it. -/
def dataWrite (c space p v : Nat) (b : Block) : Block :=
  let a := p % 2 ^ 15
  if a < 0x4000 then
    (logJournal (journalAt c space a) v b).modCore c (fun g => if space = 0 then { g with x := smSet (fun _ => 0) g.x a v } else { g with y := smSet (fun _ => 0) g.y a v })
  else if space ≠ 0 then b
  else if 0x4020 ≤ a ∧ a < 0x4030 then
    (if blockSize b c = 1 then b.modCore c (fun g => { g with ret := g.ret.set (a - 0x4020) v }) else b)
  else if 0x4030 ≤ a ∧ a < 0x4032 then b.modCore c (fun g => { g with ctl := g.ctl.set (a - 0x4030) v })
  else if 0x4038 ≤ a ∧ a < 0x4040 then b.modCore c (fun g => { g with lineW := g.lineW.set (a - 0x4038) v })
  else b

/-! ### Addressing (R313 to R317) -/

/-- The circular update (R314). -/
def circular (p : Int) (m base len : Int) : Nat :=
  let q := p + m
  unsx 24 (if len ≠ 0 ∧ base + len ≤ q then q - len else if len ≠ 0 ∧ q < base then q + len else q)

/-- The reversal of w bits. -/
def revBits : Nat → Nat → Nat
  | 0, _ => 0
  | w + 1, x => x % 2 * 2 ^ w + revBits w (x / 2)

/-- log2 of a length that is a power of two from 2 to 8,192 (R317). -/
def revWidth (len : Nat) : Option Nat := ((List.range 13).map (· + 1)).find? (fun w => 2 ^ w == len)

/-- The address of an access through pointer n in a mode, and the pointer after it (R313). -/
def addressOf (g : Gralon) (n mode : Nat) : Nat × Nat :=
  let p := nth 0 g.p n
  let m := sext 24 (nth 0 g.m n)
  let base := nth 0 g.b n
  let len := nth 0 g.l n
  match mode with
  | 0 => (p, p)
  | 1 => (p, (p + 1) % 2 ^ 24)
  | 2 => (p, (p + 2 ^ 24 - 1) % 2 ^ 24)
  | 3 => (p, unsx 24 (p + m))
  | 4 => (p, circular p m base len)
  | 5 =>
    match revWidth len with
    | some w =>
      let o := unsx 24 ((p : Int) - base) % 2 ^ w
      (p, (base + revBits w ((revBits w o + revBits w (unsx w m)) % 2 ^ w)) % 2 ^ 24)
    | none => (p, p)
  | 6 => (unsx 24 (p + m), p)
  | _ => (p, circular p 1 base len)

/-- An access whose pointer lies outside its buffer (R316). -/
def outside (g : Gralon) (n mode : Nat) : Bool :=
  let p := nth 0 g.p n
  let base := nth 0 g.b n
  let len := nth 0 g.l n
  (mode == 4 || mode == 5 || mode == 7) && len != 0 && !(decide (base ≤ p) && decide (p < base + len))

/-! ### Decoding (R306 to R312) -/

/-- The kinds of Gralon instruction. -/
inductive GKind where
  | parallel | jump | call | ret | loop | endloop | ldi | movr | far | wait | swi | rti | sha
  deriving DecidableEq, Repr

/-- The kind of a word by its format and COP (R306, R310). -/
def kindOf (w : Nat) : Option GKind :=
  match bitsOf w 63 62 with
  | 0 => some .parallel
  | 1 =>
    match bitsOf w 61 56 with
    | 0x01 => some .jump | 0x02 => some .call | 0x03 => some .ret | 0x04 => some .loop | 0x05 => some .endloop
    | 0x06 => some .ldi | 0x07 => some .movr | 0x08 => some .far | 0x09 => some .wait | 0x0A => some .swi
    | 0x0B => some .rti | 0x0C => some .sha | _ => none
  | _ => none

/-- A move field is legal (R308). -/
def moveOk (g : Gralon) (f : Nat) : Bool :=
  let op := bitsOf f 13 12
  let reg := bitsOf f 11 7
  let mode := bitsOf f 3 1
  let n := bitsOf f 6 4
  op != 3 && f % 2 == 0 && (op == 0 || decide (reg < 16) || (op == 2 && decide (reg < 20))) &&
  (op == 0 || mode != 5 || (revWidth (nth 0 g.l n)).isSome)

/-- An ALU field is legal (R309). -/
def aluOk (w : Nat) : Bool :=
  match bitsOf w 11 8 with
  | 0xD => bitsOf w 3 3 == 0
  | 0xE => bitsOf w 7 6 == 0 && bitsOf w 3 0 == 0
  | 0xF => false
  | _ => true

/-- The active levels' last three instructions include an address (R320). -/
def nearEnd (g : Gralon) (a : Nat) : Bool :=
  (List.range 3).any (fun k => g.active k && decide (nth 0 g.lsa k ≤ a) && decide (a ≤ nth 0 g.lea k) &&
    decide (nth 0 g.lea k < a + 3))

/-- A word may execute at the core's address: its fields are legal, and so is its place (R308 to R312, R317, R320, R335). -/
def wordLegal (g : Gralon) (w : Nat) : Bool :=
  let a := g.npc
  let slot := g.branch.isSome
  let place := !nearEnd g a && !slot
  let cond := bitsOf w 51 49 != 7
  match kindOf w with
  | none => false
  | some .parallel => moveOk g (bitsOf w 39 26) && moveOk g (bitsOf w 25 12) && aluOk w
  | some .jump => cond && bitsOf w 48 14 == 0 && place
  | some .call => cond && bitsOf w 48 14 == 0 && place
  | some .ret => cond && bitsOf w 48 0 == 0 && place
  | some .loop =>
    let k := bitsOf w 55 54
    let e := bitsOf w 13 0
    decide (k < 3) && bitsOf w 48 48 == 0 && bitsOf w 31 14 == 0 && place && !g.active k && decide (a + 1 ≤ e) &&
    (List.range k).all (fun j => !g.active j || decide (e ≤ nth 0 g.lea j))
  | some .endloop => decide (bitsOf w 55 54 < 3) && bitsOf w 53 0 == 0
  | some .ldi => selOk (bitsOf w 55 49) && bitsOf w 48 32 == 0
  | some .movr => selOk (bitsOf w 55 49) && selOk (bitsOf w 48 42) && bitsOf w 41 0 == 0
  | some .far =>
    let reg := bitsOf w 54 50
    bitsOf w 43 0 == 0 && (decide (reg < 16) || (bitsOf w 55 55 == 1 && decide (reg < 20))) &&
    (bitsOf w 46 44 != 5 || (revWidth (nth 0 g.l (bitsOf w 49 47))).isSome)
  | some .wait => bitsOf w 55 0 == 0 && !slot
  | some .swi => bitsOf w 55 8 == 0
  | some .rti => bitsOf w 55 0 == 0 && place
  | some .sha => bitsOf w 47 0 == 0

/-! ### Sequencing (R305, R318, R319) -/

/-- The loop-end tests of an instruction at an address, from level k - 1 down: the next address where a loop goes round. -/
def loopTest (a : Nat) : Nat → Gralon → Gralon × Option Nat
  | 0, g => (g, none)
  | k + 1, g =>
    if g.active k && nth 0 g.lea k == a then
      if 1 < nth 0 g.lc k then ({ g with lc := g.lc.modify k (· - 1) }, some (nth 0 g.lsa k))
      else loopTest a k { g with lc := g.lc.set k 0, sr := setBit g.sr (4 + k) false }
    else loopTest a k g

/-- An instruction has issued: the next address by its loop tests or a branch whose delay slots are over, one cycle later. -/
def advanceCore (g : Gralon) : Gralon :=
  let a := g.npc
  let (g, back) := loopTest a 3 g
  let next := match back with | some t => t | none => a + 1
  let g := { g with pc := a, cyc := g.cyc + 1, npc := next }
  match g.branch with
  | some (t, n) => if n ≤ 1 then { g with npc := t, branch := none } else { g with branch := some (t, n - 1) }
  | none => g

/-- A branch is taken: it and its two delay slots issue before the target (R305). -/
def Gralon.jumpTo (g : Gralon) (t : Nat) : Gralon := { g with branch := some (t, 3) }

/-- COND for a data word (R312). -/
def condHolds (k w : Nat) : Bool :=
  let v := sext 32 w
  match k with
  | 0 => true
  | 1 => v == 0
  | 2 => v != 0
  | 3 => decide (v < 0)
  | 4 => decide (0 ≤ v)
  | 5 => decide (0 < v)
  | _ => decide (v ≤ 0)

/-! ### Arithmetic (R326 to R328) -/

/-- The audio or coefficient conversion of an accumulator, and whether it clamped (R328). -/
def convert (coef : Bool) (a : Int) : Int × Bool :=
  let v := if coef then (a + 2 ^ 26) / 2 ^ 27 else (a + 2 ^ 29) / 2 ^ 30
  (satS 32 v, v != satS 32 v)

/-- The value a store puts out of register REG of a move or far field (R308). -/
def storeValue (c reg : Nat) (b : Block) : Nat × Block :=
  let g := b.core c
  if reg < 16 then (nth 0 g.d reg, b)
  else
    let (v, sat) := convert false (nth 0 g.acc (reg - 16))
    (unsx 32 v, if sat then setSat c b else b)

/-- One MAC operation (R307, R327). -/
def macOp (c op n s1 s2 : Nat) (b : Block) : Block :=
  if op = 0 then b
  else
    let g := b.core c
    let prod := sext 32 (nth 0 g.d s1) * sext 32 (nth 0 g.d s2)
    let old := nth 0 g.mac n
    let exact := if op = 1 then old + prod else if op = 2 then old - prod else prod
    let v := sext 80 (unsx 80 exact)
    let b := b.modCore c (fun g => (g.later 1 5 (.mac n) v).later 2 5 (.acc n) v)
    if v != exact then setAov c b else b

/-- The ALU operation of a parallel word (R309). A CLRA comes after what a MAC issued before it writes in the same cycle. -/
def aluOp (c w : Nat) (b : Block) : Block :=
  let g := b.core c
  let dst := bitsOf w 7 4
  let src := bitsOf w 3 0
  let x := nth 0 g.d dst
  let y := nth 0 g.d src
  let put (v : Int) : Block := b.modCore c (fun g => g.later 1 1 (.sel dst) (unsx 32 v))
  match bitsOf w 11 8 with
  | 0x0 => b
  | 0x1 => put y
  | 0x2 => put ((x : Int) + y)
  | 0x3 => put ((x : Int) - y)
  | 0x4 => put (Nat.land x y)
  | 0x5 => put (Nat.lor x y)
  | 0x6 => put (Nat.xor x y)
  | 0x7 => put (sext 32 x / (2 ^ (y % 32) : Nat))
  | 0x8 => put ((x * 2 ^ (y % 32) : Nat) : Int)
  | 0x9 => put (-(sext 32 y))
  | 0xA => put ((sext 32 y).natAbs : Int)
  | 0xB => put (min (sext 32 x) (sext 32 y))
  | 0xC => put (max (sext 32 x) (sext 32 y))
  | 0xD =>
    let (v, sat) := convert (bit src 2) (nth 0 g.acc (src % 4))
    let b := put v
    if sat then setSat c b else b
  | 0xE => b.modCore c (fun g => g.later 1 6 (.both (dst % 4)) 0)
  | _ => b

/-- One move of a parallel word (R308): a load or a store, and the pointer's post-modify. -/
def moveOp (c space f : Nat) (b : Block) : Block :=
  let g := b.core c
  let op := bitsOf f 13 12
  if op = 0 then b
  else
    let reg := bitsOf f 11 7
    let n := bitsOf f 6 4
    let mode := bitsOf f 3 1
    let (a, next) := addressOf g n mode
    let b := if outside g n mode then circFault c n b else b
    let b := if mode = 0 ∨ mode = 6 then b
      else b.modCore c (fun g => g.later 1 0 (.sel (0x10 + n)) next)
    if op = 1 then
      let v := dataRead b c space a
      b.modCore c (fun g => g.later 2 (2 + space) (.sel reg) v)
    else
      let (v, b) := storeValue c reg b
      dataWrite c space a v b

/-! ### The operations (R307 to R310, R318, R325, R330, R331) -/

/-- A word clears by CLRA the accumulator that one of its own MAC operations writes. -/
def clearsOwn (w : Nat) : Bool :=
  bitsOf w 11 8 == 0xE &&
  ((bitsOf w 61 60 != 0 && bitsOf w 5 4 == bitsOf w 59 59) || (bitsOf w 50 49 != 0 && bitsOf w 5 4 == 2 + bitsOf w 48 48))

/-- The arithmetic of a parallel word. Which of a CLRA and a MAC operation of one word on one accumulator prevails is not stated, and
left free (notes/assumptions/2.md). -/
def arithOps (c w : Nat) (b : Block) : Block :=
  let macs (b : Block) : Block :=
    macOp c (bitsOf w 50 49) (2 + bitsOf w 48 48) (bitsOf w 47 44) (bitsOf w 43 40)
      (macOp c (bitsOf w 61 60) (bitsOf w 59 59) (bitsOf w 58 55) (bitsOf w 54 51) b)
  if clearsOwn w then
    let (k, b) := b.fresh 309
    let old := (b.core c).flight
    let b := macs b
    if k % 2 = 0 then b
    else
      let n := bitsOf w 5 4
      let mine (g : Gralon) (x : GWrite) : Bool := !old.contains x && decide (g.cyc < x.due) && (x.dest == .mac n || x.dest == .acc n)
      aluOp c w (b.modCore c (fun g => { g with flight := g.flight.filter (fun x => !mine g x) }))
  else aluOp c w (macs b)

/-- A parallel word: all parts read their registers before any writes. -/
def doParallel (c w : Nat) (b : Block) : Block :=
  moveOp c 1 (bitsOf w 25 12) (moveOp c 0 (bitsOf w 39 26) (arithOps c w b))

def branchCond (b : Block) (c w : Nat) : Bool := condHolds (bitsOf w 51 49) (nth 0 (b.core c).d (bitsOf w 55 52))

def doJump (c w : Nat) (b : Block) : Block :=
  if branchCond b c w then b.modCore c (fun g => g.jumpTo (bitsOf w 13 0)) else b

/-- CALL: P7 takes the address after the second delay slot; the delay of that write is not stated and taken as none. -/
def doCall (c w : Nat) (b : Block) : Block :=
  if branchCond b c w then
    b.modCore c (fun g => (g.later 1 1 (.sel 0x17) (g.npc + 3 : Nat)).jumpTo (bitsOf w 13 0))
  else b

def doRet (c w : Nat) (b : Block) : Block :=
  if branchCond b c w then b.modCore c (fun g => g.jumpTo (nth 0 g.p 7 % 2 ^ 14)) else b

/-- LOOP (R318). With a count of 0 the address after END follows, and no loop test is made there. -/
def doLoop (c w : Nat) (b : Block) : Block :=
  let k := bitsOf w 55 54
  let e := bitsOf w 13 0
  b.modCore c (fun g =>
    let n := if bit w 53 then (clamp 0 65535 (sext 32 (nth 0 g.d (bitsOf w 52 49)))).toNat else bitsOf w 47 32
    if n = 0 then { g with branch := some (e + 1, 1), cyc := g.cyc + 2 }
    else
      { g with lsa := g.lsa.set k ((g.npc + 1) % 2 ^ 14), lea := g.lea.set k e, lc := g.lc.set k n, sr := setBit g.sr (4 + k) true })

def doEndloop (c w : Nat) (b : Block) : Block := b.modCore c (fun g => g.later 3 1 (.la (bitsOf w 55 54)) 0)

def doLdi (c w : Nat) (b : Block) : Block :=
  let s := bitsOf w 55 49
  b.modCore c (fun g => g.later (selDelay s) 1 (.sel s) (bitsOf w 31 0))

def doMovr (c w : Nat) (b : Block) : Block :=
  let s := bitsOf w 55 49
  b.modCore c (fun g => g.later (selDelay s) 1 (.sel s) (readSel g (bitsOf w 48 42)))

/-- A core may use a far bank: it owns it, or it is in COMMONS with the core a member, and the program declares it (R330). -/
def farMay (b : Block) (c off : Nat) : Bool :=
  slateMay b (rqBDSP c) (bankOf off) && bit (b.word64 (rBDSP_BANKS + 0x1000 * c)) (bankOf off)

/-- FAR (R330, R331): loads and stores take their place among the far accesses at issue, and complete in that order; an access that is
not performed (R345) takes no place but a load's. -/
def doFar (c w : Nat) (b : Block) : Block :=
  let g := b.core c
  let reg := bitsOf w 54 50
  let n := bitsOf w 49 47
  let mode := bitsOf w 46 44
  let (a, next) := addressOf g n mode
  let b := if outside g n mode then circFault c n b else b
  let b := if mode = 0 ∨ mode = 6 then b else b.modCore c (fun g => g.later 1 0 (.sel (0x10 + n)) next)
  let off := a % 2 ^ 23 * 4
  let may := farMay b c off
  let waits := may && borrowed b (bankOf off)
  let b := if may then (if waits then borrowStall b else b) else ownerFault (rqBDSP c) off b
  let queue (reg : Option Nat) (v : Nat) (b : Block) : Block := b.modCore c (fun g => { g with
    far := g.far ++ [{ reg := reg, due := g.cyc + 12, data := v, bank := bankOf off, borrowed := waits }] })
  if bit w 55 then
    let (v, b) := storeValue c reg b
    if may then queue none 0 (portAStore off (toLE 4 v) (checkMerge off b)) else b
  else queue (some reg) (if may then ofLE (b.slateBytes off 4) else 0) (if may then checkRead off b else b)

def doSwi (c w : Nat) (b : Block) : Block := (b.wr (fBDSP_SWI_CODE_CODE.at c) (bitsOf w 7 0)).raise (evBDSP_SWI c)

/-- RTI (R325). -/
def doRti (c : Nat) (b : Block) : Block :=
  b.modCore c (fun g =>
    { g.jumpTo (smGet (fun _ => 0) g.y 0x3FFF % 2 ^ 14) with imask := setBit g.imask 15 true, depth := g.depth - 1 })

/-- SHA (R310, R327). -/
def doSha (c w : Nat) (b : Block) : Block :=
  let n := bitsOf w 55 54
  let s := sext 6 (bitsOf w 53 48)
  let a := nth 0 (b.core c).acc n
  let exact : Int := if 0 ≤ s then a * (2 ^ s.toNat : Nat) else a / (2 ^ (-s).toNat : Nat)
  let v := sext 80 (unsx 80 exact)
  let b := b.modCore c (fun g => g.later 2 5 (.both n) v)
  if v != exact then setAov c b else b

/-! ### The end of a pass (R296, R299, R300, R333) -/

/-- The boundary number of a boundary (R299): its pair count over P. -/
def boundaryNo (b : Block) (k : Nat) : Nat := b.pairCount k / b.period

/-- The returns of a core become those that the close takes. -/
def setReturns (c : Nat) (ret : List Nat) (b : Block) : Block :=
  { b with mix := { b.mix with ret := b.mix.ret.mapIdx (fun i v => if i / 16 = c then sext 32 (nth 0 ret (i % 16)) else v) } }

/-- The staged line words become the next samples of the enabled lines (R333). -/
def commitLines (c : Nat) (b : Block) : Block :=
  if blockSize b c ≠ 1 then b
  else
    forN 8 (fun n b =>
      let len := b.rd (fBDSP_LINE_LEN_LEN.at2 c n)
      if bit (b.rd (fBDSP_CTRL_LINE_EN.at c)) n && decide (0 < len) then
        let g := b.core c
        let i := nth 0 g.linePos n
        let a := b.word (rBDSP_LINE_BASE + 0x1000 * c + 0x10 * n) % 2 ^ 27 * 64 + 4 * (i % len)
        (logJournal (pairLpddr a) (nth 0 g.lineW n) (b.setLpddr a (toLE 4 (nth 0 g.lineW n)))).modCore c
          (fun g => { g with linePos := g.linePos.modify n (· + 1) })
      else b) b

/-- WAIT commits: returns, control words and lines (R296, R299, R300). -/
def commitPass (c : Nat) (b : Block) : Block :=
  let g := b.core c
  let b := forN 2 (fun i b => b.setWord (rBDSP_CTL + 0x1000 * c + 4 * i) (nth 0 g.ctl i)) b
  let b := commitLines c b
  let b := (b.wr (fBDSP_CYCLES_LAST.at c) (min (g.cyc + 1) 0xFFFFF)).wr (fBDSP_PEAK_PEAK.at c)
    (max (b.rd (fBDSP_PEAK_PEAK.at c)) (min (g.cyc + 1) 0xFFFFF))
  if blockSize b c = 1 then
    if g.missNow then b.modCore c (fun g => { g with lateRet := some g.ret }) else setReturns c g.ret b
  else if g.missNow then b.modCore c (fun g => { g with blkLate := some g.blk })
  else b.modCore c (fun g => { g with blkDone := some g.blk })

/-- WAIT (R296): it ends the pass; where an interrupt taken during WAIT has returned to it, the core only waits again (R324). -/
def doWait (c : Nat) (b : Block) : Block :=
  let g := b.core c
  if g.waitRet = some g.npc then b.modCore c (fun g => { g with waiting := true, waitRet := none })
  else (commitPass c b).modCore c (fun g => { g with waiting := true, waitLate := g.missNow, noted := false, waitRet := none })

/-- What a legal word of a kind does. -/
def doKind (k : GKind) (c w : Nat) (b : Block) : Block :=
  match k with
  | .parallel => doParallel c w b
  | .jump => doJump c w b
  | .call => doCall c w b
  | .ret => doRet c w b
  | .loop => doLoop c w b
  | .endloop => doEndloop c w b
  | .ldi => doLdi c w b
  | .movr => doMovr c w b
  | .far => doFar c w b
  | .wait => doWait c b
  | .swi => doSwi c w b
  | .rti => doRti c b
  | .sha => doSha c w b

/-! ### Issue -/

/-- The core issues instructions: RUN is 1 and it is not in WAIT. -/
def issuing (b : Block) (c : Nat) : Bool := coreRuns b c && b.on dBDSP && !(b.core c).waiting

/-- Issue stands still (R331): a far load is due and its data has not come, or four accesses are outstanding and the next instruction
is another. -/
def farStall (g : Gralon) (w : Nat) : Bool :=
  g.far.any (fun f => f.reg.isSome && decide (f.due ≤ g.cyc)) ||
  (decide (4 ≤ g.far.length) && kindOf w == some .far)

/-- The word at the core's program address; none at or beyond the program length (R335). -/
def fetchWord (b : Block) (c : Nat) : Option Nat :=
  let g := b.core c
  if g.npc < b.rd (fBDSP_ENTRY_LENGTH.at c) then some (smGet (fun _ => 0) g.prog g.npc) else none

/-- One instruction of a kind issues (R303, R335). -/
def issue (k : GKind) (c : Nat) (b : Block) : Block :=
  if !issuing b c then b
  else
    let seen := landed c b
    match fetchWord seen c with
    | none => illegalStop c seen
    | some w =>
      if farStall (seen.core c) w then b.modCore c (fun g => { g with stalled := true })
      else if !wordLegal (seen.core c) w then illegalStop c seen
      else if kindOf w ≠ some k then b
      else (doKind k c w seen).modCore c advanceCore

def execParallelWord (core : Nat) (s : State) := doneIf (Instr.wf (.parallelWord core)) (issue .parallel core) s
def execJump (core : Nat) (s : State) := doneIf (Instr.wf (.jump core)) (issue .jump core) s
def execCall (core : Nat) (s : State) := doneIf (Instr.wf (.call core)) (issue .call core) s
def execRet (core : Nat) (s : State) := doneIf (Instr.wf (.ret core)) (issue .ret core) s
def execLoop (core : Nat) (s : State) := doneIf (Instr.wf (.loop core)) (issue .loop core) s
def execEndloop (core : Nat) (s : State) := doneIf (Instr.wf (.endloop core)) (issue .endloop core) s
def execLdi (core : Nat) (s : State) := doneIf (Instr.wf (.ldi core)) (issue .ldi core) s
def execMovr (core : Nat) (s : State) := doneIf (Instr.wf (.movr core)) (issue .movr core) s
def execFar (core : Nat) (s : State) := doneIf (Instr.wf (.far core)) (issue .far core) s
def execWait (core : Nat) (s : State) := doneIf (Instr.wf (.wait core)) (issue .wait core) s
def execSwi (core : Nat) (s : State) := doneIf (Instr.wf (.swi core)) (issue .swi core) s
def execRti (core : Nat) (s : State) := doneIf (Instr.wf (.rti core)) (issue .rti core) s
def execSha (core : Nat) (s : State) := doneIf (Instr.wf (.sha core)) (issue .sha core) s

end Sys2Proof.Machine
end

