-- ==== Sys2Proof/Machine/Bdsp.lean ====
section
/-! DEFINITION. Passes, interrupts, roll call, registers and commands of the Gralon cores (08 R294 to R302, R322 to R324, R331,
R333 to R340). -/

namespace Sys2Proof.Machine

/-! ### Passes -/

/-- A pass is under way: the core runs and neither waits nor handles an interrupt taken while it waited. -/
def inPass (b : Block) (c : Nat) : Bool := coreRuns b c && !(b.core c).waiting && (b.core c).waitRet.isNone

/-- Before a pass starts every write in flight takes effect, and every far load outstanding up to an access that waits for a borrowed
bank; from there on the accesses stay outstanding, and their data is late (R303, R331, R332). -/
def settleCore (c : Nat) (b : Block) : Block :=
  let g := b.core c
  let b := landUpTo c (g.flight.foldl (fun m w => max m w.due) g.cyc) b
  let wait (f : FarLoad) : Bool := f.borrowed && borrowed b f.bank
  b.modCore c (fun g =>
    { (g.far.takeWhile (fun f => !wait f)).foldl (fun g f => match f.reg with | some r => writeSel g r f.data | none => g) g with
      far := (g.far.dropWhile (fun f => !wait f)).map (fun f => { f with due := 0 }), stalled := false })

/-- Tap t of line n at a pass start (R333, R334): the sample TAP passes back where it has arrived; else the value of the pass
before, BDSP_LINE_LATE and IPEND bit 3. -/
def latchTap (c n t : Nat) (b : Block) : Block :=
  let g := b.core c
  let len := b.rd (fBDSP_LINE_LEN_LEN.at2 c n)
  if !bit (b.rd (fBDSP_CTRL_LINE_EN.at c)) n || len = 0 then b
  else if nth false g.tapReady (2 * n + t) then
    let d := if t = 0 then b.rd (fBDSP_LINE_TAP0_DELAY.at2 c n) else b.rd (fBDSP_LINE_TAP1_DELAY.at2 c n)
    let i := (nth 0 g.linePos n + len * (d / len + 1) - d) % len
    let a := b.rd (fBDSP_LINE_BASE_BASE.at2 c n) * 64 + 4 * i
    b.modCore c (fun g => { g with tap := g.tap.set (2 * n + t) (ofLE (b.lpddrBytes a 4)) })
  else pend c 3 (b.countUp (fBDSP_LINE_LATE_COUNT.at c) 1)

/-- Both taps of the eight lines; in block mode no line works (R333). -/
def latchTaps (c : Nat) (b : Block) : Block :=
  if blockSize b c = 1 then forN 8 (fun n b => latchTap c n 1 (latchTap c n 0 b)) b else b

/-- PASS_START (R294 to R297, R299, R337): 15 BDSP cycles after the boundary, a core that waited in time begins its next
pass. -/
def passStart (c : Nat) (b : Block) : Block :=
  if !coreRuns b c || !b.on dBDSP || !(b.core c).waiting || !(b.core c).startOk then b
  else
    let at_ := (b.lastBound + 1) % tideMod
    let b := if b.tideRuns && !b.hasCome at_ then b.advanceTo at_ else b
    let b := latchTaps c (settleCore c b)
    let k := boundaryNo b b.lastBound / blockSize b c
    b.modCore c (fun g => { g with
      inp := b.mix.closed.map (unsx 32), half := k % 2, blk := k, stamp := b.lastBound
      param := (List.range 64).map (fun n => b.word (rBDSP_PARAM + 0x1000 * c + 4 * n))
      tapReady := List.replicate 16 false, cyc := 0, waiting := false, startOk := false, noted := false })

/-- The boundary whose approach is a pass's commit deadline, by number (R296, R299). -/
def deadlineOf (b : Block) (c : Nat) : Nat :=
  let n := blockSize b c
  if n = 1 then boundaryNo b b.lastBound + 1 else ((b.core c).blk + 2) * n - 1

/-- A pass has missed its commit deadline (R300). -/
def noteOverrun (c : Nat) (b : Block) : Block :=
  if (b.core c).noted then b
  else ((b.countUp (fBDSP_OVERRUN_COUNT_COUNT.at c) 1).raise (evBDSP_PASS_OVERRUN c)).modCore c
    (fun g => { g with noted := true })

/-- BDSP_PASS_OVERRUN (R296, R300): 3 BDSP cycles before the next boundary a pass is still under way. Its WAIT now commits too
late for that boundary's close. -/
def passOverrun (c : Nat) (b : Block) : Block :=
  if !inPass b c || !b.on dBDSP then b
  else
    let b := b.modCore c (fun g => { g with missNow := true })
    if deadlineOf b c ≤ boundaryNo b b.lastBound + 1 then noteOverrun c b else b

/-- A core that halts at this boundary (R302, R335): zero returns, control words 0, RUN 0. -/
def haltCore (c : Nat) (b : Block) : Block :=
  if (b.core c).halting then
    let b := zeroReturns c (b.wr (fBDSP_CTRL_RUN.at c) 0)
    (forN 2 (fun i b => b.setWord (rBDSP_CTL + 0x1000 * c + 4 * i) 0) b).modCore c
      (fun g => { g with halting := false, waiting := false, startOk := false, lateRet := none, waitRet := none, depth := 0 })
  else b

/-- The halts due at a boundary. -/
def haltCores (b : Block) : Block := forN 4 haltCore b

/-- The returns of a block core for the close of boundary number j (R299, R300): sample i of the block that leaves, the one whose WAIT
was committed before the first of these closes; zero where none was. -/
def blockReturns (c j : Nat) (b : Block) : Block :=
  let n := blockSize b c
  let i := (j + 1) % n
  let b := if i = 0 then b.modCore c (fun g => { g with blkOut := g.blkDone, blkDone := none }) else b
  let g := b.core c
  match g.blkOut with
  | some k =>
    let o := b.rd (fBDSP_BLK_OUT_BASE.at c) + 16 * n * (k % 2) + 16 * i
    setReturns c ((List.range 16).map (fun v => smGet (fun _ => 0) g.y (o + v))) b
  | none => zeroReturns c b

/-- A core before the close of a boundary: a pass still under way at its deadline is late, and the close's returns stand
ready. -/
def bdspPre (b : Block) : Block :=
  let j := boundaryNo b b.lastBound
  forN 4 (fun c b =>
    if !coreRuns b c then b
    else
      let b := if inPass b c && decide ((if blockSize b c = 1 then j else deadlineOf b c) ≤ j) then noteOverrun c b else b
      let b := if blockSize b c = 1 then b else blockReturns c j b
      b.modCore c (fun g => { g with missNow := false })) b

/-- The closed values enter the input buffer of a block core (R299). -/
def blockInput (c j : Nat) (b : Block) : Block :=
  let n := blockSize b c
  let o := b.rd (fBDSP_BLK_IN_BASE.at c) + 32 * n * (j / n % 2) + 32 * (j % n)
  b.modCore c (fun g => { g with
    x := smWriteAll (fun _ => 0) g.x o ((b.mix.closed.map (unsx 32)).take (0x4000 - o)) })

/-- A core after the close: returns that came too late for it stand ready for the next, the block's input is written, and the
pass start of this boundary takes place where the core waits in time (R297, R299, R300). -/
def bdspPost (b : Block) : Block :=
  let j := boundaryNo b b.lastBound
  forN 4 (fun c b =>
    if !coreRuns b c then b
    else
      let g := b.core c
      let n := blockSize b c
      let b := match g.lateRet with
        | some r => setReturns c r (b.modCore c (fun g => { g with lateRet := none }))
        | none => b
      let b := if n = 1 then b else blockInput c j b
      b.modCore c (fun g => { g with
        blkDone := if g.blkLate.isSome then g.blkLate else g.blkDone, blkLate := none
        startOk := (g.waiting || g.waitRet.isSome) && !g.waitLate && (n == 1 || (j + 1) % n == 0), waitLate := false })) b

/-! ### Far loads, taps, interrupts -/

/-- The stall cycles of a core whose issue stood still for a far access: not stated and left free, for a borrowed bank at most 195
(R332). -/
def farCycles (f : FarLoad) (b : Block) : Nat × Block :=
  let (k, b) := b.fresh 331
  (if f.borrowed then k % 196 else k, b)

/-- FAR_LOAD_COMPLETE (R331, R332): the oldest far load is complete, and with it the stores before it; with none outstanding but
stores, the oldest store. An access to a bank still borrowed, and one behind it, waits for the release. -/
def farLoadComplete (c : Nat) (b : Block) : Block :=
  let g := b.core c
  let n := match g.far.findIdx? (fun f => f.reg.isSome) with | some i => i + 1 | none => 1
  match (g.far.take n).getLast? with
  | none => b
  | some f =>
    if (g.far.take n).any (fun f => f.borrowed && borrowed b f.bank) then b
    else
      let (k, b) := if g.stalled then farCycles f b else (0, b)
      let b := b.modCore c (fun g => { g with far := g.far.drop n, stalled := false, cyc := g.cyc + k })
      match f.reg with
      | none => b
      | some r =>
        let due := max f.due (b.core c).cyc
        let b := b.modCore c (fun g => { g with
          flight := insertWrite { due := due, rank := 4, dest := .sel r, value := f.data } g.flight })
        if g.waiting then landUpTo c due b else b

/-- LINE_TAP_ARRIVE (R333, R334): a tap's sample for the next pass has arrived from LPDDR5. -/
def lineTapArrive (c n t : Nat) (b : Block) : Block :=
  if coreRuns b c && trained b && bit (b.rd (fBDSP_CTRL_LINE_EN.at c)) n && blockSize b c == 1 then
    b.modCore c (fun g => { g with tapReady := g.tapReady.set (2 * n + t) true })
  else b

/-- An interrupt may not be taken here (R323): a delay slot is next, or LEAk - 1 or LEAk of an active level. -/
def shielded (g : Gralon) : Bool :=
  g.branch.isSome || (List.range 3).any (fun k =>
    g.active k && (nth 0 g.lea k == g.npc || nth 0 g.lea k == g.npc + 1))

/-- INTERRUPT_TAKE (R322 to R324). In WAIT the writes issued before it are complete by the time the handler issues, far loads apart. -/
def interruptTake (c : Nat) (b : Block) : Block :=
  if !coreRuns b c || !b.on dBDSP then b
  else
    let b' := landUpTo c ((b.core c).cyc + if (b.core c).waiting then 2 else 0) b
    let g := b'.core c
    match (List.range 4).find? (fun s => bit g.ipend s && bit g.imask s) with
    | none => b
    | some s =>
      if !bit g.imask 15 || (!g.waiting && shielded g) then b
      else
        let back := if g.waiting then g.pc else g.npc
        b'.modCore c (fun g => { g with
          y := smSet (fun _ => 0) g.y 0x3FFF back
          ipend := setBit g.ipend s false, imask := setBit g.imask 15 false
          npc := 0x10 + 4 * s, cyc := g.cyc + 2, depth := g.depth + 1
          waitRet := if g.waiting then some g.pc else g.waitRet, waiting := false })

/-! ### Registers (R301, R302, R336, R337) -/

/-- The commit budget of a core (R298). -/
def bdspBudget (b : Block) (c : Nat) : Nat := blockSize b c * 600000000 / b.fs - 18

/-- An enabled line is unfit (R301). -/
def lineBad (b : Block) (c n : Nat) : Bool :=
  let base := b.rd (fBDSP_LINE_BASE_BASE.at2 c n) * 64
  let len := b.rd (fBDSP_LINE_LEN_LEN.at2 c n)
  let taps := [b.rd (fBDSP_LINE_TAP0_DELAY.at2 c n), b.rd (fBDSP_LINE_TAP1_DELAY.at2 c n)]
  decide (len < 512) || taps.any (fun t => decide (t < 256) || decide (len < t + 256)) ||
  decide (fittedBytes b < base + 4 * len) ||
  (decide (base < libBase b + libSize b) && decide (libBase b < base + 4 * len))

/-- Roll call of RUN (R301). -/
def checkBdsp (c : Nat) (b : Block) : Option Reason :=
  let n := blockSize b c
  let lines := b.rd (fBDSP_CTRL_LINE_EN.at c)
  if !(b.core c).loaded || b.rd (fBDSP_ENTRY_LENGTH.at c) ≤ b.rd (fBDSP_ENTRY_ENTRY.at c) then some .entryInvalid
  else if bdspBudget b c < b.rd (fBDSP_COST_COST.at c) then some .programTooLong
  else if 1 < n ∧ (16384 < b.rd (fBDSP_BLK_IN_BASE.at c) + 64 * n ∨ 16384 < b.rd (fBDSP_BLK_OUT_BASE.at c) + 32 * n ∨ lines ≠ 0)
    then some .blockSizeInvalid
  else if (banksIn (b.word64 (rBDSP_BANKS + 0x1000 * c))).any (fun k => b.owner k != rqBDSP c) ||
      (List.range 8).any (fun n => bit lines n && lineBad b c n) then some .bufferNotOwned
  else if lines ≠ 0 ∧ !trained b then some .lpddrNotTrained
  else none

/-- RUN rises (R295): every register and staged word 0, the first pass due at ENTRY. X and Y keep their contents. -/
def runRises (c : Nat) (b : Block) : Block :=
  b.modCore c (fun g => { Gralon.reset with
    prog := g.prog, x := g.x, y := g.y, loaded := g.loaded, waiting := true, npc := b.rd (fBDSP_ENTRY_ENTRY.at c), pc := g.pc })

/-- RUN is written 0 (R302): the core halts at the next boundary; until then RUN reads 1. -/
def runFalls (c : Nat) (b : Block) : Block :=
  if coreRuns b c then b.modCore c (fun g => { g with halting := true }) else b

/-- The core whose register an address names. -/
def coreOf (a : Nat) : Nat := (a - rBDSP_CTRL) / 0x1000 % 4

/-- A write of BDSP_IRQ (R322); while BDSP is off it waits for the clock (R400). -/
def writeBdspIrq (c v : Nat) (b : Block) : Block :=
  if v % 2 = 0 then b else if b.on dBDSP then pend c 0 b else b.modCore c (fun g => { g with irqOwed := true })

/-- Requests that waited for the BDSP clock arrive (R400). -/
def arriveIrqs (b : Block) : Block :=
  forN 4 (fun c b => if (b.core c).irqOwed then (pend c 0 b).modCore c (fun g => { g with irqOwed := false }) else b) b

/-- The line whose BASE or LEN an offset names. -/
def lineFixed (o : Nat) : Option Nat :=
  if 0x200 ≤ o ∧ o < 0x280 ∧ o % 0x10 < 8 then some ((o - 0x200) / 0x10) else none

/-- A word written to a register of a core, RUN apart (R301, R337). -/
def writeBdsp (a v : Nat) (b : Block) : Block :=
  let c := coreOf a
  let o := a % 0x1000
  let run := coreRuns b c
  if o = 0 then
    let keep := b.word a
    let v := putBits v 31 31 (b2n run)
    if run then b.put a (putBits (putBits v 30 28 (bitsOf keep 30 28)) 7 0 (bitsOf keep 7 0)) else b.put a v
  else if o = 0x20 then writeBdspIrq c v b
  else if run && (o == 0x04 || o == 0x28) then b
  else match lineFixed o with
    | some n => if run && bit (b.rd (fBDSP_CTRL_LINE_EN.at c)) n then b else b.put a v
    | none => b.put a v

/-- BDSP_IRQ as it reads (R336): IPEND bit 0, as far as the writes in flight have come; 0 while BDSP is off (R528). -/
def bdspIrq (b : Block) (c : Nat) : Nat := if b.on dBDSP then b2n (bit (b.core c).ipend 0) else 0

/-- BDSP_STAT as it reads. -/
def bdspStat (b : Block) (c : Nat) : Nat :=
  let g := b.core c
  let st := if !coreRuns b c then 0 else if g.depth != 0 then 3 else if g.waiting then 1 else 2
  st * 2 ^ 30 + b2n g.loaded * 2 ^ 29 + bitsOf g.sr 6 4 * 2 ^ 26 + bitsOf g.sr 2 0 * 2 ^ 23 + g.pc % 2 ^ 14

/-! ### Commands (R338 to R340) -/

def mBdspLoadBegin : Meaning where
  chk p b :=
    let c := leAt p 0 1
    if 3 < c then some .badField
    else if coreRuns b c then some .notOwner
    else if 16384 < leAt p 2 2 then some .programTooLong
    else if leAt p 2 2 = 0 || 0x3FFF < leAt p 4 2 || 2 ^ 20 ≤ leAt p 8 4 then some .badField
    else none
  eff _ _ p b :=
    let c := leAt p 0 1
    let b := b.modCore c (fun _ => Gralon.reset)
    let b := (b.wr (fBDSP_ENTRY_LENGTH.at c) (leAt p 2 2)).wr (fBDSP_ENTRY_ENTRY.at c) (leAt p 4 2)
    (ok [], (b.wr (fBDSP_COST_COST.at c) (leAt p 8 4)).setWord64 (rBDSP_BANKS + 0x1000 * c) (leAt p 12 8))

def mBdspLoadProg : Meaning where
  chk p b :=
    let c := leAt p 0 1
    if 3 < c || b.rd (fBDSP_ENTRY_LENGTH.at c) < leAt p 2 2 + (p.length - 4) / 8 then some .badField else none
  eff _ _ p b :=
    (ok [], b.modCore (leAt p 0 1) (fun g => { g with
      prog := smWriteAll (fun _ => 0) g.prog (leAt p 2 2) ((List.range ((p.length - 4) / 8)).map (fun i => leAt p (4 + 8 * i) 8)) }))

/-- The bytes of a core's program. -/
def programBytes (b : Block) (c : Nat) : List Byte :=
  (smRange (fun _ => 0) (b.core c).prog 0 (b.rd (fBDSP_ENTRY_LENGTH.at c))).flatMap (toLE 8)

def mBdspLoadEnd : Meaning where
  chk p b :=
    let c := leAt p 0 1
    if 3 < c || crc32c (programBytes b c) != leAt p 4 4 then some .badField else none
  eff _ _ p b := (ok [], b.modCore (leAt p 0 1) (fun g => { g with loaded := true }))

def mBdspWriteData : Meaning where
  chk p _ :=
    if 3 < leAt p 0 1 || 1 < leAt p 1 1 || 0x4000 < leAt p 2 2 + (p.length - 4) / 4 then some .badField else none
  eff _ _ p b :=
    let ws := (List.range ((p.length - 4) / 4)).map (fun i => leAt p (4 + 4 * i) 4)
    (ok [], b.modCore (leAt p 0 1) (fun g =>
      if leAt p 1 1 = 0 then { g with x := smWriteAll (fun _ => 0) g.x (leAt p 2 2) ws }
      else { g with y := smWriteAll (fun _ => 0) g.y (leAt p 2 2) ws }))

def mBdspReadData : Meaning where
  chk p _ :=
    let n := leAt p 4 2
    if 3 < leAt p 0 1 || 1 < leAt p 1 1 || n = 0 || 60 < n || 0x4000 < leAt p 2 2 + n then some .badField else none
  eff _ _ p b :=
    let g := b.core (leAt p 0 1)
    (ok ((smRange (fun _ => 0) (if leAt p 1 1 = 0 then g.x else g.y) (leAt p 2 2) (leAt p 4 2)).flatMap (toLE 4)), b)

def mBdspRun : Meaning where
  chk p _ :=
    if 3 < leAt p 0 1 || 1 < leAt p 1 1 || 4 < leAt p 2 1 || 3 < leAt p 3 1 then some .badField else none
  eff tok stamp p b :=
    let c := leAt p 0 1
    let a := rBDSP_CTRL + 0x1000 * c
    let old := b
    let v := putBits (leAt p 2 1 * 2 ^ 28 + leAt p 3 1 * 2 ^ 8) 7 0 (b.rd (fBDSP_CTRL_LINE_EN.at c))
    let b := writeBdsp a v b
    if leAt p 1 1 = 1 then enableByCommand a tok stamp old [a] b
    else (ok [], runFalls c (cancelChecks (fun k => k.addr == a) b))

def mBdspSetParam : Meaning where
  chk p _ := if 3 < leAt p 0 1 || 64 < leAt p 1 1 + leAt p 2 1 then some .badField else none
  eff _ _ p b :=
    (ok [], forN (leAt p 2 1) (fun i b =>
      b.setWord (rBDSP_PARAM + 0x1000 * leAt p 0 1 + 4 * (leAt p 1 1 + i)) (leAt p (4 + 4 * i) 4)) b)

def mBdspSetLine : Meaning where
  chk p b :=
    let c := leAt p 0 1
    let n := leAt p 1 1
    if 3 < leAt p 0 1 || 7 < leAt p 1 1 || 1 < leAt p 2 1 || 2 ^ 27 ≤ leAt p 4 4 || 2 ^ 24 ≤ leAt p 8 4 || 2 ^ 24 ≤ leAt p 12 4 ||
        2 ^ 24 ≤ leAt p 16 4 then some .badField
    else if coreRuns b c && (leAt p 4 4 != b.rd (fBDSP_LINE_BASE_BASE.at2 c n) || leAt p 8 4 != b.rd (fBDSP_LINE_LEN_LEN.at2 c n) ||
        leAt p 2 1 != b2n (bit (b.rd (fBDSP_CTRL_LINE_EN.at c)) n)) then some .notOwner
    else none
  eff _ _ p b :=
    let c := leAt p 0 1
    let n := leAt p 1 1
    let a := rBDSP_LINE_BASE + 0x1000 * c + 0x10 * n
    let b := writeBdsp (a + 4) (leAt p 8 4) (writeBdsp a (leAt p 4 4) b)
    let b := (b.setWord (a + 8) (leAt p 12 4)).setWord (a + 12) (leAt p 16 4)
    (ok [], if coreRuns b c then b
      else b.wr (fBDSP_CTRL_LINE_EN.at c) (putBits (b.rd (fBDSP_CTRL_LINE_EN.at c)) n n (leAt p 2 1)))

def mBdspStatus : Meaning where
  chk p _ := if 3 < leAt p 0 1 then some .badField else none
  eff _ _ p b :=
    let o := 0x1000 * leAt p 0 1
    (ok (toLE 4 (bdspStat b (leAt p 0 1)) ++
      words4 b [rBDSP_CYCLES + o, rBDSP_PEAK + o, rBDSP_OVERRUN_COUNT + o, rBDSP_FAULT + o]), b)

def execPassStart (core : Nat) (s : State) := doneIf (Instr.wf (.passStart core)) (passStart core) s
def execBdspPassOverrun (core : Nat) (s : State) := doneIf (Instr.wf (.bdspPassOverrun core)) (passOverrun core) s
def execFarLoadComplete (core : Nat) (s : State) := doneIf (Instr.wf (.farLoadComplete core)) (farLoadComplete core) s
def execInterruptTake (core : Nat) (s : State) := doneIf (Instr.wf (.interruptTake core)) (interruptTake core) s
def execLineTapArrive (core line tap : Nat) (s : State) :=
  doneIf (decide (core < 4) && decide (line < 8) && decide (tap < 2)) (lineTapArrive core line tap) s
def execBdspLoadBegin (c : Cmd) (s : State) := done (command 0x0500 mBdspLoadBegin c) s
def execBdspLoadProg (c : Cmd) (s : State) := done (command 0x0501 mBdspLoadProg c) s
def execBdspLoadEnd (c : Cmd) (s : State) := done (command 0x0502 mBdspLoadEnd c) s
def execBdspWriteData (c : Cmd) (s : State) := done (command 0x0503 mBdspWriteData c) s
def execBdspReadData (c : Cmd) (s : State) := done (command 0x0504 mBdspReadData c) s
def execBdspRun (c : Cmd) (s : State) := done (command 0x0505 mBdspRun c) s
def execBdspSetParam (c : Cmd) (s : State) := done (command 0x0506 mBdspSetParam c) s
def execBdspSetLine (c : Cmd) (s : State) := done (command 0x0507 mBdspSetLine c) s
def execBdspStatus (c : Cmd) (s : State) := done (command 0x0508 mBdspStatus c) s

end Sys2Proof.Machine
end

