-- ==== Sys2Proof/Machine/Network.lean ====
section
/-! DEFINITION. The 10BASE-T1S event network: frames, PLCA, the broadcast bucket, PTP and network time (13 R443 to R468). -/

namespace Sys2Proof.Machine

/-! ### Receiving (R448 to R453, R461) -/

/-- The broadcast address, and the PTP multicast address 01-1B-19-00-00-00, octet 0 in bits 7:0. -/
def netBroadcast : Nat := 2 ^ 48 - 1
def ptpMulticast : Nat := 0x191B01

/-- The port's own address (NET_MAC). -/
def netMac (b : Block) (n : Nat) : Nat := b.rd (fNET_MAC_LO_ADDR_LO.at n) + 2 ^ 32 * b.rd (fNET_MAC_HI_ADDR_HI.at n)

/-- Entry e of a port's exact table: valid, KIND and address. -/
def filtEntry (b : Block) (n e : Nat) : Bool × Nat × Nat :=
  (b.flag (fNET_FILT_HI_VALID.at2 n e), b.rd (fNET_FILT_HI_KIND.at2 n e),
   b.rd (fNET_FILT_LO_ADDR_LO.at2 n e) + 2 ^ 32 * b.rd (fNET_FILT_HI_ADDR_HI.at2 n e))

/-- The entry that holds a valid address of a kind (0 DA, 1 SA). -/
def filtFind (b : Block) (n kind addr : Nat) : Option Nat := (List.range 32).find? (fun e => filtEntry b n e == (true, kind, addr))

/-- The hash bin of a destination (R450). -/
def hashBin (addr : Nat) : Nat := crc32 (toLE 6 addr) / 2 ^ 26

/-- The PTP port, PTP enabled. -/
def ptpOn (b : Block) (n : Nat) : Bool := b.flag fNET_PTP_CFG_EN && b.rd fNET_PTP_CFG_PORT == n

/-- The address filter (R449). -/
def passesFilter (b : Block) (n : Nat) (f : NetFrame) : Bool :=
  let d := f.dst.toNat
  (d == netMac b n || d == netBroadcast || (filtFind b n 0 d).isSome ||
    (d % 2 == 1 && bit (b.word64 (rNET_HASH + 0x200 * n)) (hashBin d)) || (ptpOn b n && d == ptpMulticast)) &&
  (f.etype.toNat != b.rd (fNET_CTRL_ETYPE.at n) || !b.flag (fNET_CTRL_SA_CHECK.at n) || (filtFind b n 1 f.src.toNat).isSome)

/-- The broadcast bucket after one take: none where the frame is dropped (R451). -/
def takeToken (b : Block) (n : Nat) : Option Block :=
  let t := min (b.netPort n).tokens (b.rd (fNET_BCAST_DEPTH.at n))
  if b.rd (fNET_BCAST_RATE.at n) = 0 ∨ t = 0 then none else some (b.modNet n (fun p => { p with tokens := t - 1 }))

/-- The records of an event frame's payload (R452), PORT written over (R453); none where the frame is malformed. -/
def framePayload (n : Nat) (p : List Byte) : Option (List EventRecord × Bool) :=
  let count := leAt p 1 1
  if leAt p 0 1 ≠ 1 ∨ count = 0 ∨ 62 < count ∨ p.length < 4 + 24 * count ∨ 1 < leAt p 2 1 then none
  else some ((List.range count).map (fun i =>
    { recordOf ((p.drop (4 + 24 * i)).take 24) with port := BitVec.ofNat 8 (0x20 + n) }), leAt p 2 1 == 1)

/-- A PTP message of none of the four kinds that R458 accepts, by the messageType of IEEE 1588-2019, or of another domain. -/
def ptpOther (b : Block) (p : List Byte) : Bool :=
  let t := leAt p 0 1 % 16
  (t != 0x0 && t != 0x8 && t != 0x9 && t != 0xB) || leAt p 4 1 != b.rd fNET_PTP_CFG_DOMAIN

/-- A record's PRIORITY from NET_CTRLn.PRIO, the roll of records bound for a roll (R464). DEDUCED: written over the
sender's, as PORT is (notes/assumptions/41.md). -/
def portRoll (b : Block) (n : Nat) (r : EventRecord) : EventRecord :=
  { r with flags := BitVec.ofNat 8 (putBits r.flags.toNat 6 4 (b.rd (fNET_CTRL_PRIO.at n))) }

/-- An event frame that has passed R448 enters the receive buffer (R452, R453, R461). -/
def bufferFrame (n : Nat) (f : NetFrame) (b : Block) : Block :=
  if 4 ≤ (b.netPort n).rx.length then (b.countUp (fNET_BP_COUNT_COUNT.at n) 1).raise (evNET_DROP_BP n)
  else match framePayload n f.payload with
    | none => b.countUp (fNET_BAD_FRAME_COUNT.at n) 1
    | some (rs, t) =>
      let stamp := (b.now + 2 * tideMod - f.age % tideMod - b.rd fNET_PTP_LAT_RX_LAT) % tideMod
      b.modNet n (fun p => { p with rx := p.rx ++ [{ records := rs.map (portRoll b n), netTime := t, stamp := stamp }] })

/-- Steps 5 and 6 of R448, and what the frame then is. -/
def acceptFrame (n : Nat) (f : NetFrame) (b : Block) : Block :=
  match (if f.dst.toNat = netBroadcast then takeToken b n else some b) with
  | none => b.countUp (fNET_BCAST_DROP_COUNT.at n) 1
  | some b =>
    if f.etype.toNat = b.rd (fNET_CTRL_ETYPE.at n) then bufferFrame n f b
    else if f.etype = 0x88F7 ∧ b.rd fNET_PTP_CFG_PORT = n then
      (if ptpOn b n && ptpOther b f.payload then b.countUp fNET_PTP_FOREIGN_COUNT 1 else b)
    else b.countUp (fNET_OTHER_COUNT_COUNT.at n) 1

/-- NET_FRAME_RECEIVE (R448): the checks in their order. -/
def netFrameReceive (n : Nat) (f : NetFrame) (b : Block) : Block :=
  if !netHears b n then b
  else if f.symbolError then b.countUp (fNET_SYM_COUNT_COUNT.at n) 1
  else if f.length < 64 ∨ 1518 < f.length then b.countUp (fNET_BAD_FRAME_COUNT.at n) 1
  else if !f.fcsGood then (b.countUp (fNET_FCS_COUNT_COUNT.at n) 1).raise (evNET_FCS_ERR n)
  else
    let b := b.countUp (fNET_RX_FRAMES_COUNT.at n) 1
    if !passesFilter b n f then (b.countUp (fNET_STRANGER_COUNT_COUNT.at n) 1).raise (evNET_STRANGER_DROP n)
    else acceptFrame n f b

/-! ### Releasing (R454 to R456, R461) -/

/-- T0 and N0 of the anchor in force. -/
def anchorTide (b : Block) : Nat := b.rd fNET_ANCHOR_TIDE_LO_T0 + 2 ^ 32 * b.rd fNET_ANCHOR_TIDE_HI_T0
def anchorNet (b : Block) : Nat := b.rd fNET_ANCHOR_NET_LO_N0 + 2 ^ 32 * b.rd fNET_ANCHOR_NET_HI_N0

/-- A network due time as a Tide due time (R455). -/
def tideOfNet (t0 n0 : Nat) (rate : Int) (due : Nat) : Nat :=
  let d := sext 48 ((due + tideMod - n0 % tideMod) % tideMod)
  unsx 48 ((t0 : Int) + d + (d * rate + 2 ^ 31) / 2 ^ 32)

/-- A record of a NET_TIME frame: its due time converted (R455), or due now while no anchor stands (R456). Answers whether it
counts as unsynchronised. -/
def convertDue (b : Block) (netTime : Bool) (r : EventRecord) : EventRecord × Bool :=
  if !netTime || !rDue r then (r, false)
  else if b.flag fNET_PTP_STAT_ANCHORED then
    let d := tideOfNet (anchorTide b) (anchorNet b) (b.rdS fNET_RATE_RATE) r.dueTime.toNat
    ({ r with dueTime := BitVec.ofNat 48 d }, false)
  else (setFlag r 0 false, true)

/-- The place a record will need (R461): none, its timetable 0 to 3, or 4 for a descriptor. -/
def placeOf (b : Block) (stamp : Nat) (r : EventRecord) : Option Nat :=
  let r := if b.isPrimary then (ferryDue r stamp b).1 else r
  if badRecord r || b.isShadow || rType r == evtCancel then none
  else if rDue r && !b.hasCome r.dueTime.toNat then some (ttOf (rType r))
  else if isDirect (rType r) then none
  else some 4

/-- The free places of a kind. -/
def placesFree (b : Block) (k : Nat) : Nat := if k = 4 then poolFree b else 2048 - (nth [] b.sched.tts k).length

/-- Every place that a frame's records will need is free, credits of a peer in step included (R461, R506). -/
def placesFor (b : Block) (stamp : Nat) (rs : List EventRecord) : Bool :=
  let need := rs.filterMap (placeOf b stamp)
  (List.range 5).all (fun k => decide (need.count k ≤ placesFree b k)) &&
  (!b.isPrimary || b.rd fFERRY_STAT_STATE != 6 || decide (rs.length ≤ b.fry.credits))

/-- The oldest frame of a receive buffer reserves its places and releases its records in frame order. Answers whether it
did. -/
def releaseFrame (n : Nat) (b : Block) : Bool × Block :=
  match (b.netPort n).rx with
  | [] => (false, b)
  | f :: rest =>
    if !b.on dEVT then (false, b)
    else
      let conv := f.records.map (convertDue b f.netTime)
      let rs := conv.map (fun c => setFlag c.1 2 false)
      if placesFor b f.stamp rs then
        let b := b.modNet n (fun p => { p with rx := rest })
        let b := b.countUp fNET_UNSYNC_COUNT_COUNT (conv.filter (·.2)).length
        (true, forL rs (fun r b => (offer r f.stamp b).2) b)
      else (false, b)

/-- NET_FRAME_RELEASE (R454, R461). -/
def netFrameRelease (n : Nat) (b : Block) : Block := if netHears b n then (releaseFrame n b).2 else b

/-! ### Sending, PLCA and the bucket (R444 to R447, R451) -/

/-- NET_FRAME_TRANSMIT (R446, R463): the head of the queue is sent, or collides; at 16 attempts it is abandoned. A port that
listens transmits nothing (R468). -/
def netFrameTransmit (n : Nat) (collision : Bool) (b : Block) : Block :=
  if !netOn b n then b
  else match (b.netPort n).tx with
    | [] => b
    | f :: rest =>
      if collision then
        let b := b.countUp (fNET_COLL_COUNT_COUNT.at n) 1
        if 15 ≤ (b.netPort n).tries then
          ((b.countUp (fNET_TX_ABORT_COUNT.at n) 1).raise (evNET_COLLISION_LIMIT n)).modNet n
            (fun p => { p with tx := rest, tries := 0 })
        else b.modNet n (fun p => { p with tries := p.tries + 1 })
      else b.modNet n (fun p => { p with tx := rest, tries := 0, sent := some f })

/-- BEACON (R444, R445, R447): the coordinator sends it; another node of a PLCA segment uses PLCA from it on, and its status
is OK. -/
def beacon (n : Nat) (b : Block) : Block :=
  if !netOn b n || !usesPlca b n then b
  else setLink n true ((b.wr (fNET_STAT_MAC_MODE.at n) 0).wrB (fNET_STAT_COORD.at n) (isCoord b n))

/-- PLCA_BEACON_TIMEOUT (R445, R447). -/
def plcaTimeout (n : Nat) (b : Block) : Block :=
  if !netOn b n || !usesPlca b n || isCoord b n then b else setLink n true (b.wr (fNET_STAT_MAC_MODE.at n) 1)

/-- BUCKET_TOKEN (R451): a token is gained; one past DEPTH is lost. -/
def bucketToken (n : Nat) (b : Block) : Block :=
  if !netHears b n || b.rd (fNET_BCAST_RATE.at n) = 0 then b
  else b.modNet n (fun p => { p with tokens := min (p.tokens + 1) (b.rd (fNET_BCAST_DEPTH.at n)) })

/-! ### PTP (R456 to R460) -/

/-- The PTP port serves PTP. -/
def ptpServes (b : Block) : Bool := b.flag fNET_PTP_CFG_EN && netOn b (b.rd fNET_PTP_CFG_PORT)

/-- A write of NET_RATE commits the staged anchor and the rate together (R456, R457). -/
def commitAnchor (rate : Nat) (b : Block) : Block :=
  let (t, n) := b.ptp.staged
  let b := (b.wr fNET_ANCHOR_TIDE_LO_T0 t).wr fNET_ANCHOR_TIDE_HI_T0 (t / 2 ^ 32)
  let b := (b.wr fNET_ANCHOR_NET_LO_N0 n).wr fNET_ANCHOR_NET_HI_N0 (n / 2 ^ 32)
  (b.wr fNET_RATE_RATE rate).wr fNET_PTP_STAT_ANCHORED 1

/-- A message from a clockIdentity (R458): handled where it is the grandmaster's, else dropped and counted. -/
def fromMaster (ident : DWord) (f : Block → Block) (b : Block) : Block :=
  if !ptpServes b then b
  else if ident.toNat = b.word64 rNET_PTP_GM then f { b with ptp := { b.ptp with heard := true } }
  else b.countUp fNET_PTP_FOREIGN_COUNT 1

/-- LOCKED falls, with PTP_LOST (R460). -/
def loseLock (b : Block) : Block :=
  if b.flag fNET_PTP_STAT_LOCKED then (b.wr fNET_PTP_STAT_LOCKED 0).raise evPTP_LOST else b

/-- PTP_SYNC (R453, R459, R460): the Sync is stamped; firmware commits its anchor and judges its estimate. -/
def ptpSync (ident : DWord) (e : PtpEstimate) (b : Block) : Block :=
  fromMaster ident (fun b =>
    let b := { b with ptp := { b.ptp with syncAt := (b.now + tideMod - b.rd fNET_PTP_LAT_RX_LAT) % tideMod } }
    if !b.serving then b
    else
      let lim := b.rd fNET_PTP_LOCK_LOCK_NS
      let near := decide (e.offsetNs.natAbs ≤ lim)
      let b := commitAnchor e.rate.toNat { b with ptp := { b.ptp with
        staged := (e.tide.toNat, e.net.toNat), good := if near then min 8 (b.ptp.good + 1) else 0 } }
      let b := b.wr fNET_PTP_STAT_OFFSET_NS (unsx 16 (satS 16 e.offsetNs))
      if 8 * lim < e.offsetNs.natAbs then loseLock b
      else if b.ptp.good = 8 ∧ !b.flag fNET_PTP_STAT_LOCKED then (b.wr fNET_PTP_STAT_LOCKED 1).raise evPTP_LOCK
      else b) b

/-- DELAY_REQ (R459): sent and stamped while a grandmaster is heard. -/
def delayReq (b : Block) : Block :=
  if ptpServes b && b.ptp.heard then { b with ptp := { b.ptp with dreqAt := (b.now + b.rd fNET_PTP_LAT_TX_LAT) % tideMod } }
  else b

/-- PTP_LOST (R460): no Sync within 4 of the announced intervals. The last anchor stays in force. -/
def ptpLost (b : Block) : Block := loseLock { b with ptp := { b.ptp with heard := false, good := 0 } }

/-- NET_RATE (R457): a Proctor write, while the Proctor runs. -/
def netRate (v : Word) (b : Block) : Block := if b.serving && b.on dCOMM then commitAnchor v.toNat b else b

/-! ### Registers and roll call (R464, R465) -/

/-- NET_STAT as it reads. -/
def netStat (b : Block) (n : Nat) : Nat :=
  putBits (putBits (b.word (rNET_STAT + 0x200 * n)) 6 4 (b.netPort n).rx.length) 3 0 (b.netPort n).tx.length

/-- Roll call of a port's EN (R409, R465). -/
def checkNet (b : Block) (n : Nat) : Option Reason :=
  if b.flag fCPR_CLK_STAT_FALLBACK then some .onFallback
  else if usesPlca b n && decide (b.rd (fNET_PLCA_NODE_COUNT.at n) ≤ b.rd (fNET_PLCA_NODE_ID.at n)) then some .plcaParamsInvalid
  else none

/-- Roll call of PTP's EN (R465). -/
def checkPtp (b : Block) : Option Reason := if b.flag fCPR_CLK_STAT_FALLBACK then some .onFallback else none

/-- A word written to a network register, the enables apart: what EN freezes keeps its value (R465), and a port that is enabled
follows PLCA_EN (R444). -/
def writeNet (a v : Nat) (b : Block) : Block :=
  let n := a / 0x200 % 2
  let o := a % 0x200
  let en := b.flag (fNET_CTRL_EN.at n)
  if rNET_CTRL + 0x400 ≤ a then b.put a (if a = rNET_PTP_CFG then putBits v 31 31 (b2n (b.flag fNET_PTP_CFG_EN)) else v)
  else if o = 0 then
    let v := putBits v 31 31 (b2n en)
    let b' := b.put a (if en then putBits v 15 0 (b.rd (fNET_CTRL_ETYPE.at n)) else v)
    if en ∧ usesPlca b' n ≠ usesPlca b n then takeMac n b' else b'
  else if en && (o == 0x04 || o == 0x08 || o == 0x0C || o == 0x10) then b
  else b.put a v

/-! ### Commands (R467, R468) -/

def mNetConfig : Meaning where
  chk p _ :=
    let n := leAt p 0 1
    let r := 0x200 * n
    if 1 < n || 1 < leAt p 1 1 || !regWordOk (rNET_CTRL + r) (leAt p 4 4) || !regWordOk (rNET_PLCA + r) (leAt p 8 4) ||
        !regWordOk (rNET_PLCA2 + r) (leAt p 12 4) || !regWordOk (rNET_BCAST + r) (leAt p 16 4) then some .badField
    else none
  eff tok stamp p b :=
    let n := leAt p 0 1
    let as := [rNET_CTRL + 0x200 * n, rNET_PLCA + 0x200 * n, rNET_PLCA2 + 0x200 * n, rNET_BCAST + 0x200 * n]
    let en := bit (leAt p 4 4) 31
    let b := netFalls n (cancelChecks (fun c => c.addr == rNET_CTRL + 0x200 * n) b)
    let old := b
    let b := forN 4 (fun i b => writeNet (nth 0 as i) (leAt p (4 + 4 * i) 4) b) b
    if !en then (ok [], b)
    else if leAt p 1 1 = 1 then
      (.later, (fillBucket n b).modNet n (fun q => { q with listen := some (tok, stamp, as.map (fun a => (a, old.word a))) }))
    else enableByCommand (rNET_CTRL + 0x200 * n) tok stamp old as b

/-- NET_LISTEN_DONE (R468): the port has listened; EN is applied, or the command is refused and what the port heard is dropped. -/
def netListenDone (n : Nat) (conflict : Bool) (b : Block) : Block :=
  match (b.netPort n).listen with
  | none => b
  | some (tok, stamp, undo) =>
    let b := b.modNet n (fun p => { p with listen := none })
    if conflict then
      (forL undo (fun w b => b.setWord w.1 w.2) (b.modNet n (fun p => { p with rx := [] }))).finish tok stamp false (refusedWith .nodeIdConflict)
    else startCheck (rNET_CTRL + 0x200 * n) (some tok) stamp undo b

/-- Port, KIND and address of a filter command. -/
def filtArgs (p : List Byte) : Nat × Nat × Nat := (leAt p 0 1, leAt p 1 1, leAt p 2 6)

def mNetFilterAdd : Meaning where
  chk p b :=
    let (n, k, a) := filtArgs p
    if 1 < n || 1 < k then some .badField
    else if (filtFind b n k a).isNone && (List.range 32).all (fun e => (filtEntry b n e).1) then some .filterFull
    else none
  eff _ _ p b :=
    let (n, k, a) := filtArgs p
    match filtFind b n k a with
    | some e => (ok (toLE 4 e), b)
    | none =>
      let open_ := (List.range 32).filter (fun e => !(filtEntry b n e).1)
      let (i, b) := b.fresh 468
      let e := nth 0 open_ (i % max 1 open_.length)
      let b := b.wr (fNET_FILT_LO_ADDR_LO.at2 n e) a
      let b := (b.wr (fNET_FILT_HI_ADDR_HI.at2 n e) (a / 2 ^ 32)).wr (fNET_FILT_HI_KIND.at2 n e) k
      (ok (toLE 4 e), b.wr (fNET_FILT_HI_VALID.at2 n e) 1)

def mNetFilterRemove : Meaning where
  chk p _ := if 1 < leAt p 0 1 || 1 < leAt p 1 1 then some .badField else none
  eff _ _ p b :=
    let (n, k, a) := filtArgs p
    match filtFind b n k a with
    | some e => (ok [], b.wr (fNET_FILT_HI_VALID.at2 n e) 0)
    | none => (ok [], b)

def mNetSetHash : Meaning where
  chk p _ := if 1 < leAt p 0 1 then some .badField else none
  eff _ _ p b := (ok [], b.setWord64 (rNET_HASH + 0x200 * leAt p 0 1) (leAt p 4 8))

def mNetPtpConfig : Meaning where
  chk p _ :=
    if regWordOk rNET_PTP_CFG (leAt p 0 4) && regWordOk rNET_PTP_LOCK (leAt p 16 2) then none else some .badField
  eff tok stamp p b :=
    let old := b
    let as := [rNET_PTP_CFG, rNET_PTP_GM, rNET_PTP_GM + 4, rNET_PTP_LAT, rNET_PTP_LOCK]
    let b := writeNet rNET_PTP_CFG (leAt p 0 4) b
    let b := ((b.setWord64 rNET_PTP_GM (leAt p 4 8)).put rNET_PTP_LAT (leAt p 12 4)).put rNET_PTP_LOCK (leAt p 16 2)
    if bit (leAt p 0 4) 31 then enableByCommand rNET_PTP_CFG tok stamp old as b
    else (ok [], clearEnable rNET_PTP_CFG b)

def mNetSendEvents : Meaning where
  chk p b :=
    let n := leAt p 0 1
    if 1 < n || 1 < leAt p 1 1 then some .badField
    else if 8 ≤ (b.netPort n).tx.length then some .busyBackpressure
    else if !b.flag (fNET_CTRL_EN.at n) then some .notInMode
    else none
  eff _ _ p b :=
    let n := leAt p 0 1
    let f : NetTx :=
      { dst := leAt p 4 6, src := netMac b n, etype := b.rd (fNET_CTRL_ETYPE.at n)
        payload := toLE 1 1 ++ toLE 1 (leAt p 2 1) ++ toLE 1 (leAt p 1 1) ++ toLE 1 (b.netPort n).seq ++ p.drop 12 }
    (ok [], b.modNet n (fun q => { q with tx := q.tx ++ [f], seq := (q.seq + 1) % 256 }))

def mNetStatus : Meaning where
  chk p _ := if 1 < leAt p 0 1 then some .badField else none
  eff _ _ p b :=
    let n := leAt p 0 1
    (ok (toLE 4 (netStat b n) ++ words4 b (rNET_PTP_STAT ::
      (List.range 10).map (fun i => rNET_RX_FRAMES + 0x200 * n + 4 * i))), b)

def execNetFrameReceive (port : Nat) (f : NetFrame) (s : State) :=
  doneIf (Instr.wf (.netFrameReceive port f)) (netFrameReceive port f) s
def execNetFrameRelease (port : Nat) (s : State) := doneIf (Instr.wf (.netFrameRelease port)) (netFrameRelease port) s
def execNetFrameTransmit (port : Nat) (collision : Bool) (s : State) :=
  doneIf (Instr.wf (.netFrameTransmit port collision)) (netFrameTransmit port collision) s
def execBeacon (port : Nat) (s : State) := doneIf (Instr.wf (.beacon port)) (beacon port) s
def execPlcaBeaconTimeout (port : Nat) (s : State) := doneIf (Instr.wf (.plcaBeaconTimeout port)) (plcaTimeout port) s
def execBucketToken (port : Nat) (s : State) := doneIf (Instr.wf (.bucketToken port)) (bucketToken port) s
def execPtpSync (ident : DWord) (e : PtpEstimate) (s : State) := done (ptpSync ident e) s
def execFollowUp (ident : DWord) (s : State) := done (fromMaster ident id) s
def execAnnounce (ident : DWord) (s : State) := done (fromMaster ident id) s
def execDelayResp (ident : DWord) (s : State) := done (fromMaster ident id) s
def execDelayReq (s : State) := done delayReq s
def execPtpLost (s : State) := done ptpLost s
def execNetRate (v : Word) (s : State) := done (netRate v) s
def execNetListenDone (port : Nat) (conflict : Bool) (s : State) :=
  doneIf (Instr.wf (.netListenDone port conflict)) (netListenDone port conflict) s
def execNetConfig (c : Cmd) (s : State) := done (command 0x0800 mNetConfig c) s
def execNetFilterAdd (c : Cmd) (s : State) := done (command 0x0801 mNetFilterAdd c) s
def execNetFilterRemove (c : Cmd) (s : State) := done (command 0x0802 mNetFilterRemove c) s
def execNetSetHash (c : Cmd) (s : State) := done (command 0x0803 mNetSetHash c) s
def execNetPtpConfig (c : Cmd) (s : State) := done (command 0x0804 mNetPtpConfig c) s
def execNetSendEvents (c : Cmd) (s : State) := done (command 0x0805 mNetSendEvents c) s
def execNetStatus (c : Cmd) (s : State) := done (command 0x0806 mNetStatus c) s

end Sys2Proof.Machine
end

