-- ==== Sys2Proof/Machine/Mix.lean ====
section
/-! DEFINITION. The mix bus (07 R265 to R290): live inputs, gains and glides, the close, followers, checksum and the output
matrix. -/

namespace Sys2Proof.Machine

/-! ### Gains (R285) -/

/-- A write to a gain register: the glide starts at the next boundary. -/
def Glide.aim (g : Glide) (target : Int) : Glide := { g with target := target, start := true }

/-- One boundary of a glide of n boundaries. -/
def Glide.tick (n : Nat) (g : Glide) : Glide :=
  let g := if g.start then { g with start := false, left := n, step := (g.target - g.cur).tdiv n } else g
  if g.cur = g.target ∨ g.left ≤ 1 then { g with cur := g.target, left := 0 }
  else { g with cur := g.cur + g.step, left := g.left - 1 }

/-- Where a gain register stands: live, return or output, and its number. -/
def gainAt (a : Nat) : Option (Nat × Nat) :=
  if rMIX_LIVE_GAIN ≤ a ∧ a < rMIX_LIVE_GAIN + 128 then some (0, (a - rMIX_LIVE_GAIN) / 4)
  else if rMIX_RET_GAIN ≤ a ∧ a < rMIX_RET_GAIN + 128 then some (1, (a - rMIX_RET_GAIN) / 4)
  else if rMIX_OUT_GAIN ≤ a ∧ a < rMIX_OUT_GAIN + 328 then some (2, (a - rMIX_OUT_GAIN) / 4)
  else none

/-- A word written to a mix register; a gain's glide is aimed at it (R285, R286). In SAFE, MUTE stays 1 (R535). -/
def writeMix (a v : Nat) (b : Block) : Block :=
  let b := b.put a (if a = rMIX_CTRL ∧ b.mode = mSAFE then putBits v 12 12 1 else v)
  let t := sext 32 v
  match gainAt a with
  | some (0, n) => { b with mix := { b.mix with liveGain := b.mix.liveGain.modify n (·.aim t) } }
  | some (1, n) => { b with mix := { b.mix with retGain := b.mix.retGain.modify n (·.aim t) } }
  | some (_, n) => { b with mix := { b.mix with outGain := b.mix.outGain.modify n (·.aim t) } }
  | none => b

/-- Every glide advances by one boundary. -/
def glideGains (b : Block) : Block :=
  let n := b.rd fMIX_CTRL_GLIDE
  { b with mix := { b.mix with
    liveGain := b.mix.liveGain.map (Glide.tick n), retGain := b.mix.retGain.map (Glide.tick n),
    outGain := b.mix.outGain.map (Glide.tick n) } }

/-! ### Live inputs (R276 to R278) -/

/-- The port word that live channel n holds (R276): 0 where its port does not run or its CHAN names nothing. -/
def liveWord (b : Block) (n : Nat) : Int :=
  let port := b.rd (fMIX_LIVE_SRC_PORT.at n)
  let chan := b.rd (fMIX_LIVE_SRC_CHAN.at n)
  match b.rd (fMIX_LIVE_SRC_KIND.at n) with
  | 1 =>
    if b.flag (fTDM_IN_CFG_EN.at port) && decide (chan < b.rd (fTDM_IN_CFG_SLOTS.at port)) && b.on dAIO then
      nth 0 (nth [] b.aout.tdmIn port) chan
    else 0
  | 2 =>
    if b.flag fSPDIF_IN_CFG_EN && b.flag fSPDIF_IN_STAT_LOCK && !b.flag fSPDIF_IN_STAT_NON_PCM && b.on dAIO then
      nth 0 b.aout.spdif chan
    else 0
  | 3 =>
    if b.flag fASRC_CFG_EN && bit (b.rd fASRC_STAT_LOCK) (chan / 2) && decide (chan < 4) && b.on dAIO then
      nth 0 b.aout.asrc chan
    else 0
  | 4 => if b.rd fUSB_STAT_ALT_OUT != 0 && decide (chan < 8) then nth 0 b.usb.frame chan else 0
  | _ => 0

/-- The live channels as latched at a boundary (R277). -/
def latchLive (b : Block) : Block :=
  { b with glob := { b.glob with live := (List.range 32).map (fun n => (liveWord b n + 8) / 16) } }

/-- Adds a product to the accumulator of one side of a bus, modulo 2^80 (R266, R269). -/
def addTerm (bus : Nat) (left : Bool) (x : Int) (b : Block) : Block :=
  let add (l : List Int) := l.modify bus (fun a => sext 80 (unsx 80 (a + x)))
  if left then { b with mix := { b.mix with accL := add b.mix.accL } }
  else { b with mix := { b.mix with accR := add b.mix.accR } }

/-- The live routes of the window that opens (R278). -/
def routeLive (b : Block) : Block :=
  forN 32 (fun n b =>
    let x := nth 0 b.glob.live n * (nth Glide.reset b.mix.liveGain n).cur
    let bus := b.rd (fMIX_LIVE_SRC_BUS.at n)
    match b.rd (fMIX_LIVE_SRC_SIDE.at n) with
    | 0 => addTerm bus true x b
    | 1 => addTerm bus false x b
    | 2 => addTerm bus false x (addTerm bus true x b)
    | _ => b) b

/-- The returns of the window that closes, by the routes and gains in effect in it (R279, R280). -/
def addReturns (b : Block) : Block :=
  forN 32 (fun n b =>
    let w := nth 0 b.mix.route n
    if bit w 31 then
      let g := (nth Glide.reset b.mix.retGain n).cur
      addTerm (w % 16) false (nth 0 b.mix.ret (2 * n + 1) * g) (addTerm (w % 16) true (nth 0 b.mix.ret (2 * n) * g) b)
    else b) b

/-! ### The close (R271) -/

/-- The value of one accumulator before saturation (R271). -/
def closeSum (a : Int) : Int := (a + 2 ^ 29) / 2 ^ 30

/-- The close of the 32 accumulators: the values, MIX_SAT and MIX_CLIP_COUNT. Answers whether a side saturated. -/
def closeBuses (b : Block) : Block × Bool :=
  let sums := (List.range 16).flatMap (fun k => [closeSum (nth 0 b.mix.accL k), closeSum (nth 0 b.mix.accR k)])
  let sat := (List.range 32).filter (fun i => nth 0 sums i != satAudio (nth 0 sums i))
  let b := forL sat (fun i b =>
    let w := b.word rMIX_SAT
    b.setWord rMIX_SAT (Nat.lor w (2 ^ (i / 2 + if i % 2 = 1 then 16 else 0)))) b
  let b := b.countUp fMIX_CLIP_COUNT_COUNT sat.length
  ({ b with mix := { b.mix with
    closed := sums.map satAudio, accL := List.replicate 16 0, accR := List.replicate 16 0 } }, !sat.isEmpty)

/-- MIX_CKSUM (R274): the CRC-32C of the 32 closed values, masked buses as zero. -/
def mixCksum (b : Block) : Nat :=
  crc32c ((List.range 32).flatMap (fun i =>
    if bit (b.rd fMIX_CKSUM_MASK_MASK) (i / 2) then toLE 4 (unsx 32 (nth 0 b.mix.closed i)) else toLE 4 0))

/-- The checksum and its stamp change together (R275). -/
def storeCksum (b : Block) : Block :=
  let k := b.lastBound
  ((b.wr fMIX_CKSUM_CRC (mixCksum b)).wr fMIX_CKSUM_STAMP_LO_STAMP_LO k).wr fMIX_CKSUM_STAMP_HI_STAMP_HI (k / 2 ^ 32)

/-- One follower's update (R281). -/
def followStep (attack release : Nat) (e y : Int) : Int :=
  if y < e then y + (e - y) / 2 ^ attack else y - (y - e) / 2 ^ release

/-- The followers update from the values just closed (R281); the voices read the values before (R126). -/
def updateFollowers (b : Block) : Block :=
  let old := (List.range 16).map (fun k => b.rdS (fMIX_FOLLOW_Y.at k))
  let b := { b with glob := { b.glob with follow := old } }
  forN 16 (fun k b =>
    let mag (i : Nat) : Int := min (nth 0 b.mix.closed i).natAbs (2 ^ 31 - 1)
    let e := max (mag (2 * k)) (mag (2 * k + 1))
    b.wr (fMIX_FOLLOW_Y.at k)
      (unsx 32 (followStep (b.rd fMIX_FOLLOW_CFG_ATTACK_SH) (b.rd fMIX_FOLLOW_CFG_RELEASE_SH) e (nth 0 old k)))) b

/-! ### The output matrix (R282 to R284) -/

/-- The port word of an output channel before its clamp (R283). -/
def outSum (b : Block) (n : Nat) : Int :=
  let i := b.rd (fMIX_OUT_MAP_INDEX.at n)
  let g := (nth Glide.reset b.mix.outGain n).cur
  let side (k : Nat) : Int := if i < 16 then nth 0 b.mix.closed (2 * i + k) else 0
  match b.rd (fMIX_OUT_MAP_KIND.at n) with
  | 1 => (side 0 * g + 2 ^ 25) / 2 ^ 26
  | 2 => (side 1 * g + 2 ^ 25) / 2 ^ 26
  | 3 => ((side 0 + side 1) * g + 2 ^ 26) / 2 ^ 27
  | 4 => (nth 0 b.glob.live i * g + 2 ^ 25) / 2 ^ 26
  | _ => 0

/-- Delivers the 82 port words. Answers whether a word was clamped. -/
def outputMatrix (b : Block) : Block × Bool :=
  if b.flag fMIX_CTRL_MUTE then ({ b with mix := { b.mix with words := List.replicate 82 0 } }, false)
  else
    let sums := (List.range 82).map (outSum b)
    let clip := (List.range 82).filter (fun n => nth 0 sums n != satS 32 (nth 0 sums n))
    let b := b.countUp fMIX_CLIP_COUNT_COUNT clip.length
    let b := match clip with
      | n :: _ =>
        if b.flag fMIX_OUT_CLIP_VALID then b else (b.wr fMIX_OUT_CLIP_VALID 1).wr fMIX_OUT_CLIP_CHANNEL n
      | [] => b
    ({ b with mix := { b.mix with words := sums.map (satS 32) } }, !clip.isEmpty)

/-- The mix bus at a boundary (R266 to R286), after the lanes have closed: returns, close, checksum, followers, the gains'
step, live inputs, the output matrix and the new window's live routes; OUT_CLIP at most once. -/
def mixBoundary (b : Block) : Block :=
  let (b, sat) := closeBuses (addReturns b)
  let b := updateFollowers (storeCksum b)
  let b := latchLive (glideGains b)
  let (b, clip) := outputMatrix { b with mix := { b.mix with
    before := b.mix.words, handed := false, muted := b.flag fMIX_CTRL_MUTE } }
  let b := b.raiseIf (sat || clip) evOUT_CLIP
  let b := { b with mix := { b.mix with route := (List.range 32).map (fun n => b.word (rMIX_RET_ROUTE + 4 * n)) } }
  routeLive b

/-! ### Reads and commands -/

/-- The stamp of the checksum as it stands. -/
def mixStamp (b : Block) : Nat := b.rd fMIX_CKSUM_STAMP_LO_STAMP_LO + 2 ^ 32 * b.rd fMIX_CKSUM_STAMP_HI_STAMP_HI

/-- A read of MIX_CKSUM latches the stamp (R275). -/
def readCksum (b : Block) : Nat × Block :=
  (b.word rMIX_CKSUM, { b with mix := { b.mix with stamp := some (mixStamp b) } })

/-- What the stamp registers read (R275): the stamp of the boundary that the latest read of MIX_CKSUM saw; before one, the stamp as
it stands. -/
def readStamp (b : Block) : Nat := b.mix.stamp.getD (mixStamp b)

def mixCksumRead (b : Block) : Block := let (v, b) := readCksum b; b.driveWord 0 v

/-- A command of pairs of words: first index, limit, and the two registers (R290). -/
def mixPairs (limit r0 r1 : Nat) : Meaning where
  chk p _ :=
    let first := leAt p 0 1
    let n := leAt p 1 1
    if limit < first + n || (List.range n).any (fun i =>
        !regWordOk (r0 + 4 * (first + i)) (leAt p (4 + 8 * i) 4)) then some .badField
    else none
  eff _ _ p b :=
    let first := leAt p 0 1
    (ok [], forN (leAt p 1 1) (fun i b =>
      writeMix (r1 + 4 * (first + i)) (leAt p (8 + 8 * i) 4) (writeMix (r0 + 4 * (first + i)) (leAt p (4 + 8 * i) 4) b)) b)

def mMixSetOut : Meaning := mixPairs 82 rMIX_OUT_MAP rMIX_OUT_GAIN
def mMixSetLive : Meaning := mixPairs 32 rMIX_LIVE_SRC rMIX_LIVE_GAIN
def mMixSetReturn : Meaning := mixPairs 32 rMIX_RET_ROUTE rMIX_RET_GAIN

def mMixSetCtrl : Meaning where
  chk p _ :=
    if regWordOk rMIX_CTRL (leAt p 0 4) && regWordOk rMIX_FOLLOW_CFG (leAt p 4 4) && regWordOk rMIX_CKSUM_MASK (leAt p 8 4)
    then none else some .badField
  eff _ _ p b :=
    (ok [], ((writeMix rMIX_CTRL (leAt p 0 4) b).put rMIX_FOLLOW_CFG (leAt p 4 4)).put rMIX_CKSUM_MASK (leAt p 8 4))

def mMixGetStat : Meaning := plain (fun _ b =>
  (ok (words4 b [rMIX_SAT, rMIX_CLIP_COUNT, rMIX_CKSUM] ++
    toLE 6 (mixStamp b) ++ toLE 2 0 ++
    words4 b ((List.range 16).map (fun k => rMIX_FOLLOW + 4 * k))), b))

def execMixSetOut (c : Cmd) (s : State) := done (command 0x0B80 mMixSetOut c) s
def execMixSetLive (c : Cmd) (s : State) := done (command 0x0B81 mMixSetLive c) s
def execMixSetReturn (c : Cmd) (s : State) := done (command 0x0B82 mMixSetReturn c) s
def execMixSetCtrl (c : Cmd) (s : State) := done (command 0x0B83 mMixSetCtrl c) s
def execMixGetStat (c : Cmd) (s : State) := done (command 0x0B84 mMixGetStat c) s
def execMixCksumRead (s : State) := done mixCksumRead s

end Sys2Proof.Machine
end

