-- ==== Sys2Proof/Machine/Aout.lean ====
section
/-! DEFINITION. Audio outputs and inputs: DAC channels, strobes, TDM, S/PDIF and the rate converter (14 R469 to R491). -/

namespace Sys2Proof.Machine

/-! ### DAC channels -/

def Block.dac (b : Block) (n : Nat) : Dac := nth Dac.reset b.aout.dacs n

def Block.modDac (b : Block) (n : Nat) (f : Dac → Dac) : Block :=
  { b with aout := { b.aout with dacs := b.aout.dacs.modify n f } }

/-- The output pins are released: the device is SHADOW, or has let its pins go (R480, R497, R517). -/
def pinsReleased (b : Block) : Bool := b.isShadow || b.fry.released

/-- The currents of IOUTnP and IOUTnN, in 1/65,536 uA (R469): none while the switches are open. -/
def pinCurrents (b : Block) (n : Nat) : Option (Nat × Nat) :=
  let ifs := 2500 * 2 ^ (b.dac n).range
  let c := b.rd (fDAC_STAT_ACTIVE.at n)
  if b.flag (fDAC_STAT_CONNECTED.at n) then some (ifs * c, ifs * (65536 - c)) else none

/-- MUTE is set and has taken effect (R472). -/
def muted (b : Block) : Bool := b.flag fMIX_CTRL_MUTE && b.mix.muted

/-- 24 us have passed since EN was set (R476). -/
def dacSettled (b : Block) (n : Nat) : Bool := decide (24 * tideHz b ≤ stampAge b (b.dac n).enAt * 1000000)

/-- The port word a MATRIX channel takes: the latest whose handover has completed (R471). -/
def handedWord (b : Block) (n : Nat) : Int := nth 0 (if b.mix.handed then b.mix.words else b.mix.before) n

/-- A write of DAC_CODEn, with what was staged before it (R474). -/
def writeDacCode (n v : Nat) (b : Block) : Block :=
  let b := b.modDac n (fun d => { d with written := some (b.now, b.rd (fDAC_CODE_CODE.at n)) })
  b.put (rDAC_CODE + 0x10 * n) v

/-- The code staged before the latest write of DAC_CODEn, where that write falls in the present tick (R474). -/
def codeBefore (b : Block) (n : Nat) : Option Nat :=
  match (b.dac n).written with
  | some (t, old) => if t = b.now then some old else none
  | none => none

/-- The code of a DIRECT channel (R471, R474). Whether a write and a strobe of one tick share a DAC cycle is left open, and then the
strobe applies the value held before the write (notes/assumptions/19.md). -/
def stagedCode (n : Nat) (b : Block) : Nat × Block :=
  if b.flag (fDAC_CFG_DSRC.at n) then ((clamp 0 65535 ((handedWord b n + 2 ^ 15) / 2 ^ 16 + 32768)).toNat, b)
  else
    match codeBefore b n with
    | some old =>
      let (k, b) := b.fresh 474
      (if k % 2 = 0 then old else b.rd (fDAC_CODE_CODE.at n), b)
    | none => (b.rd (fDAC_CODE_CODE.at n), b)

/-- A channel takes a load: it is enabled, and neither closing nor changing its range (R477, R478). -/
def dacLoads (b : Block) (n : Nat) : Bool :=
  b.flag (fDAC_CFG_EN.at n) && !(b.dac n).closing && !b.flag (fDAC_STAT_RANGE_BUSY.at n) && b.on dDACA

/-- The channel's switches are closed, or would be but for released pins (R476, R480). -/
def dacClosed (b : Block) (n : Nat) : Bool := b.flag (fDAC_STAT_CONNECTED.at n) || (b.dac n).ready

/-- A load brings a channel its code (R471, R476, R480): one still open closes with it once settled, in the RANGE it then has. -/
def applyCode (n code : Nat) (b : Block) : Block :=
  if dacClosed b n then (if b.flag (fDAC_CFG_MODE.at n) then b.wr (fDAC_STAT_ACTIVE.at n) code else b)
  else if dacSettled b n then
    let b := (b.wr (fDAC_STAT_ACTIVE.at n) code).modDac n (fun d => { d with range := b.rd (fDAC_CFG_RANGE.at n) })
    if pinsReleased b then b.modDac n (fun d => { d with ready := true }) else b.wr (fDAC_STAT_CONNECTED.at n) 1
  else b

/-- A load strobe reaches a channel (R471, R472, R476, R478, R480); a PRIMARY forwards the code of a DIRECT one, which a shadow takes
in place of its own (R505). -/
def strobeChannel (n : Nat) (b : Block) : Block :=
  let direct := b.flag (fDAC_CFG_MODE.at n)
  if !dacLoads b n || (direct && codesForwarded b) then b
  else
    let (code, b) := if muted b || !direct then (0x8000, b) else stagedCode n b
    let b := if direct && (dacClosed b n || dacSettled b n) then mirrorDac n code b else b
    applyCode n code b

/-- A forwarded code reaches a DIRECT channel (R505). -/
def forwardedCode (n code : Nat) (b : Block) : Block :=
  if n < 8 ∧ b.flag (fDAC_CFG_MODE.at n) ∧ dacLoads b n then applyCode n code b else b

/-- A strobe of a group loads its DIRECT channels (R473); one of group 0 pulses LDACN low where that is an output (R475). -/
def strobeGroup (g : Nat) (b : Block) : Block :=
  let b := if g = 0 ∧ b.flag fAOUT_CTRL_LDACN_OUT then { b with aout := { b.aout with ldacn := some b.now } } else b
  forN 8 (fun n b =>
    if b.flag (fDAC_CFG_MODE.at n) && b.rd (fDAC_CFG_GROUP.at n) == g then strobeChannel n b else b) b

/-- Every group whose source is a given one. -/
def strobeSource (src : Nat) (b : Block) : Block :=
  forN 4 (fun g b => if b.rd (fDAC_GRP_SRC.at g) = src then strobeGroup g b else b) b

/-- A write of DAC_STROBE (R473). -/
def writeStrobe (v : Nat) (b : Block) : Block := forN 4 (fun g b => if bit v g then strobeGroup g b else b) b

/-- LDACN_FALL (R473, R475): LDACN is an input while LDACN_OUT is 0. -/
def ldacnFall (b : Block) : Block := if b.flag fAOUT_CTRL_LDACN_OUT then b else strobeSource 2 b

/-- A new RANGE (R478): a connected channel starts its sequence, a DIRECT one stepping to mid-scale. -/
def writeRange (n r : Nat) (b : Block) : Block :=
  if b.flag (fDAC_STAT_RANGE_BUSY.at n) then b
  else
    let old := b.rd (fDAC_CFG_RANGE.at n)
    let b := b.wr (fDAC_CFG_RANGE.at n) r
    if b.flag (fDAC_STAT_CONNECTED.at n) && old != r then
      let b := (b.wr (fDAC_STAT_RANGE_BUSY.at n) 1).modDac n (fun d => { d with next := some r })
      if b.flag (fDAC_CFG_MODE.at n) then b.wr (fDAC_STAT_ACTIVE.at n) 0x8000 else b
    else b

/-- DAC_RANGE_DONE (R478): the reference has settled at mid-scale, and the new range applies. -/
def dacRangeDone (n : Nat) (b : Block) : Block :=
  match (b.dac n).next with
  | some r =>
    let b := (b.modDac n (fun d => { d with next := none, range := r })).wr (fDAC_STAT_ACTIVE.at n) 0x8000
    (b.wr (fDAC_STAT_RANGE_BUSY.at n) 0).raise (evDAC_RANGE_DONE n)
  | none => b

/-- A write of 0 to EN (R477): the register changes at once; a closed switch is on its way to open. -/
def dropDac (n : Nat) (b : Block) : Block :=
  let b := b.wr (fDAC_CFG_EN.at n) 0
  if b.flag (fDAC_STAT_CONNECTED.at n) || (b.dac n).ready then
    let b := b.modDac n (fun d => { d with closing := true })
    if b.flag (fDAC_CFG_MODE.at n) then b.wr (fDAC_STAT_ACTIVE.at n) 0x8000 else b
  else b

/-- DAC_DISCONNECT (R477): the ramp or the step to mid-scale is over, and the switches open. -/
def dacDisconnect (n : Nat) (b : Block) : Block :=
  if (b.dac n).closing then
    let b := b.modDac n (fun d => { d with closing := false, ready := false, next := none })
    ((b.wr (fDAC_STAT_CONNECTED.at n) 0).wr (fDAC_STAT_ACTIVE.at n) 0x8000).wr (fDAC_STAT_RANGE_BUSY.at n) 0
  else b

/-- DAC_FAULT (R479): a held source (R577). -/
def dacFault (n : Nat) (b : Block) : Block :=
  if b.flag (fDAC_STAT_CONNECTED.at n) then (b.wr (fDAC_STAT_FAULT.at n) 1).raise evDAC_FAULT else b

/-- The fields of a configuration word besides the enable: stored while the enable is 0 (R487). -/
def putIdle (a v : Nat) (b : Block) : Block := if enabled b a then b else b.put a (putBits v 31 31 0)

/-- A write of DAC_CFGn, its EN apart (R478, R487). -/
def writeDacCfg (n v : Nat) (b : Block) : Block :=
  let a := rDAC_CFG + 0x10 * n
  let r := b.rd (fDAC_CFG_RANGE.at n)
  let b := putIdle a (putBits v 9 8 r) b
  writeRange n (bitsOf v 9 8) b

/-- The channel's enable passes roll call (R476, R477). -/
def dacEnabled (n : Nat) (b : Block) : Block := b.modDac n (fun d => { d with enAt := b.now })

/-! ### Frames -/

/-- What the DAC channels do at a boundary (R470, R472): a connected channel under MUTE goes to mid-scale; the core's code in
AUDIO mode, between interpolator and noise shaper and while a ramp is under way (R477, R478), is not stated and left free. -/
def dacBoundary (b : Block) : Block :=
  forN 8 (fun n b =>
    if b.flag (fDAC_STAT_CONNECTED.at n) || (b.dac n).ready then
      if muted b then b.wr (fDAC_STAT_ACTIVE.at n) 0x8000
      else if b.flag (fDAC_CFG_MODE.at n) then b
      else
        let (k, b) := b.fresh 470
        b.wr (fDAC_STAT_ACTIVE.at n) k
    else b) b

/-- A TDM frame error (R483). -/
def tdmError (b : Block) : Block := (b.countUp fTDM_ERR_COUNT_COUNT 1).raise evTDM_FRAME_ERR

/-- A running slave output port (R483). -/
def slaveOut (b : Block) (p : Nat) : Bool :=
  b.flag (fTDM_OUT_CFG_EN.at p) && !b.flag (fTDM_OUT_CFG_MASTER.at p) && b.on dAIO

/-- A sample is delivered to the output ports (R483): one that a slave port has not sent is lost. -/
def deliverTdm (b : Block) : Block :=
  forN 4 (fun p b =>
    let b := if slaveOut b p && nth false b.aout.fresh p then tdmError b else b
    { b with aout := { b.aout with fresh := b.aout.fresh.set p true } }) b

/-- A port word shortened to W bits (R482, R484). -/
def shorten (W : Nat) (w : Int) : Int := if 32 ≤ W then w else satS W ((w + 2 ^ (31 - W)) / 2 ^ (32 - W))

/-- The bits of a TDM sample (R482). -/
def tdmBits (width : Nat) : Nat := if width = 0 then 16 else if width = 1 then 24 else 32

/-- The slots of a frame (R482): output channel 8 + 16p + s in slot s, MSB-first, the bits below the sample 0. -/
def frameSlots (b : Block) (p : Nat) : List Word :=
  let W := tdmBits (b.rd (fTDM_OUT_CFG_WIDTH.at p))
  (List.range (b.rd (fTDM_OUT_CFG_SLOTS.at p))).map (fun s =>
    BitVec.ofInt 32 (shorten W (nth 0 b.mix.words (8 + 16 * p + s)) * 2 ^ (32 - W)))

/-- FS and SD of a frame, BCLK by BCLK from the frame start (R481): 0 I2S, 1 LEFT_JUSTIFIED, 2 TDM with its FS_DLY; `last` is the
bit that the frame before leaves for the first BCLK. Slot 0 begins FS_DLY BCLK after the start of the FS pulse (DEDUCED,
notes/assumptions/47.md). -/
def wireFrame (fmt dly : Nat) (last : Bool) (slots : List Word) : List (Bool × Bool) :=
  let data : List Bool := slots.flatMap (fun w => (List.range 32).map (fun i => w.getMsbD i))
  let late := (last :: data).take data.length
  let j := List.range data.length
  match fmt with
  | 0 => (j.map (fun i => decide (32 ≤ i))).zip late
  | 1 => (j.map (fun i => decide (i < 32))).zip data
  | _ => (j.map (fun i => i == 0)).zip (if dly = 0 then data else late)

/-- An output port forms its frame (R481, R482). -/
def formFrame (p : Nat) (b : Block) : Block :=
  let slots := frameSlots b p
  let last := match (nth [] b.aout.tdmOut p).getLast? with | some w => w.getLsbD 0 | none => false
  let wire := wireFrame (b.rd (fTDM_OUT_CFG_FMT.at p)) (b.rd (fTDM_OUT_CFG_FS_DLY.at p)) last slots
  { b with aout := { b.aout with tdmOut := b.aout.tdmOut.set p slots, tdmWire := b.aout.tdmWire.set p wire } }

/-- What an output port drives in a frame: whether its pins change on the rising edge of BCLK (BCLK_INV), and FS and SD; none while
they are released (R480, R481). -/
def tdmPins (b : Block) (p : Nat) : Option (Bool × List (Bool × Bool)) :=
  if b.flag (fTDM_OUT_CFG_EN.at p) && b.on dAIO && !pinsReleased b then
    some (b.flag (fTDM_OUT_CFG_BCLK_INV.at p), nth [] b.aout.tdmWire p)
  else none

/-- The channel status bytes (R484): the sampling-frequency and word-length codes, which the spec does not list, are free. -/
def statusBytes (b : Block) : List Byte :=
  let code (k v : Nat) : Nat := (within k [v] 0 15).toNat
  let cs := b.word rSPDIF_OUT_CS
  toLE 4 (putBits (putBits cs 0 0 0) 27 24 (code 484 b.fs)) ++
    BitVec.ofNat 8 (code 485 (b.rd fSPDIF_OUT_CFG_WIDTH)) :: List.replicate 19 0

/-- The frames of a subframe block. PRESUMED, from IEC 60958 (notes/assumptions/47.md). -/
def subframeBlock : Nat := 192

/-- The S/PDIF output forms its subframes of output channels 72 and 73 (R484); the channel status is that at the start of their block
(R487). -/
def formSubframes (b : Block) : Block :=
  let w := b.rd fSPDIF_OUT_CFG_WIDTH
  let W := if w = 0 then 16 else if w = 1 then 20 else 24
  { b with aout := { b.aout with
    spdifOut := [shorten W (nth 0 b.mix.words 72), shorten W (nth 0 b.mix.words 73)]
    spdifCs := if b.aout.spdifPos = 0 then statusBytes b else b.aout.spdifCs
    spdifPos := (b.aout.spdifPos + 1) % subframeBlock } }

/-- The master ports and the S/PDIF output at the frame start (R29, R483, R484). -/
def formFrames (b : Block) : Block :=
  let b := forN 4 (fun p b =>
    if b.flag (fTDM_OUT_CFG_EN.at p) && b.flag (fTDM_OUT_CFG_MASTER.at p) && b.on dAIO then formFrame p b else b) b
  if b.flag fSPDIF_OUT_CFG_EN && b.on dAIO then formSubframes b else b

/-- TDM_SLAVE_FS (R483): the port sends the sample delivered last; one sent twice is an error. -/
def tdmSlaveFs (p : Nat) (b : Block) : Block :=
  if slaveOut b p then
    let b := if nth false b.aout.fresh p then b else tdmError b
    let b := formFrame p b
    { b with aout := { b.aout with fresh := b.aout.fresh.set p false } }
  else b

/-- TDM_FRAME_ERR (R483): a slave port, outputs 0 to 3 and inputs 4 and 5, sees bad framing or no FS. -/
def tdmFrameErr (p : Nat) (b : Block) : Block :=
  if p < 4 then (if slaveOut b p then tdmError b else b)
  else if b.flag (fTDM_IN_CFG_EN.at (p - 4)) && !b.flag (fTDM_IN_CFG_MASTER.at (p - 4)) && b.on dAIO then tdmError b
  else b

/-- The data bits of a slot at the top of a port word (R482). -/
def topBits (width w : Nat) : Int :=
  let k := 32 - tdmBits width
  sext 32 (w / 2 ^ k * 2 ^ k)

/-- TDM_INPUT_SAMPLE (R277, R482): a slot's sample is completely received. -/
def tdmInputSample (port slot w : Nat) (b : Block) : Block :=
  if b.flag (fTDM_IN_CFG_EN.at port) && decide (slot < b.rd (fTDM_IN_CFG_SLOTS.at port)) && b.on dAIO then
    { b with aout := { b.aout with
      tdmIn := b.aout.tdmIn.modify port (fun l => l.set slot (topBits (b.rd (fTDM_IN_CFG_WIDTH.at port)) w)) } }
  else b

/-- Latency samples of the frame that starts (R562, R563): it launches in the third tick of the window (R29). -/
def frameSamples (b : Block) : Block :=
  let due := b.tst.latWait.filter (fun w => w.bound == b.lastBound)
  let b := { b with tst := { b.tst with latWait := b.tst.latWait.filter (fun w => w.bound != b.lastBound) } }
  forL due (fun w b => latSample w.mon ((b.lastBound + 2 + tideMod - w.from_) % tideMod) b) b

/-- TDM_FRAME_START (R29, R272, R473): the handover is complete and the frame launches in the third tick of the window;
BOUNDARY groups and AUDIO channels take their strobe, and the ports form their frames. -/
def tdmFrameStart (b : Block) : Block :=
  if b.tide.bound.isNone || b.mix.handed || !b.tideRuns then b
  else
    let t := (b.lastBound + 2) % tideMod
    let b := if b.hasCome t then b else b.advanceTo t
    let b := { b with mix := { b.mix with handed := true } }
    let b := strobeSource 3 b
    let b := forN 8 (fun n b => if b.flag (fDAC_CFG_MODE.at n) then b else strobeChannel n b) b
    frameSamples (formFrames b)

/-! ### S/PDIF and the rate converter -/

/-- SPDIF_LOCK (R485, R394). -/
def spdifLock (rate : Nat) (nonPcm : Bool) (b : Block) : Block :=
  if b.flag fSPDIF_IN_CFG_EN && b.on dAIO then
    let b := ((b.wr fSPDIF_IN_STAT_LOCK 1).wr fSPDIF_IN_STAT_RATE rate).wrB fSPDIF_IN_STAT_NON_PCM nonPcm
    takeRefs ({ b with clk := { b.clk with spdifClock := true } }.raise evSPDIF_LOCK)
  else b

/-- SPDIF_UNLOCK (R485, R406): the recovered clock is lost with the lock. -/
def spdifUnlock (b : Block) : Block :=
  if b.flag fSPDIF_IN_STAT_LOCK then
    let b := (b.wr fSPDIF_IN_STAT_LOCK 0).raise evSPDIF_UNLOCK
    if b.clk.spdifClock then sourceFail 4 b else b
  else b

/-- The APLL runs from the recovered clock, so that SPDIF_IN is exact (R485). -/
def spdifExact (b : Block) : Bool := sourceOf 0 (actRef b 0) == 4

/-- Some live channel takes S/PDIF without the rate converter. -/
def spdifLive (b : Block) : Bool := (List.range 32).any (fun n => b.rd (fMIX_LIVE_SRC_KIND.at n) == 2)

/-- SPDIF_SUBFRAME (R485): a parity error repeats the previous sample; a second frame within a period drops one where the
clocks differ. -/
def spdifSubframe (chan w : Nat) (bad : Bool) (b : Block) : Block :=
  if !b.flag fSPDIF_IN_STAT_LOCK then b
  else if bad then b.countUp fSPDIF_ERR_COUNT_COUNT 1
  else
    let drop := chan == 0 && b.aout.spdifNew && spdifLive b && !spdifExact b
    let b := if drop then b.countUp fSPDIF_ERR_COUNT_COUNT 1 else b
    { b with aout := { b.aout with
      spdif := b.aout.spdif.set chan (sext 32 w), spdifNew := b.aout.spdifNew || chan == 0 } }

/-- A period without a frame repeats a sample where the clocks differ (R485). -/
def spdifBoundary (b : Block) : Block :=
  let b := if b.flag fSPDIF_IN_STAT_LOCK && !b.aout.spdifNew && spdifLive b && !spdifExact b then
      b.countUp fSPDIF_ERR_COUNT_COUNT 1 else b
  { b with aout := { b.aout with spdifNew := false } }

/-- A pair of the rate converter locks or loses lock (R486). -/
def setAsrcLock (pair : Nat) (v : Bool) (b : Block) : Block :=
  b.wr fASRC_STAT_LOCK (putBits (b.rd fASRC_STAT_LOCK) pair pair (b2n v))

def asrcSource (b : Block) (pair : Nat) : Nat := if pair = 0 then b.rd fASRC_CFG_SRC0 else b.rd fASRC_CFG_SRC1

def asrcLock (pair : Nat) (b : Block) : Block :=
  if b.flag fASRC_CFG_EN && asrcSource b pair != 0 && b.on dAIO then setAsrcLock pair true b else b

def asrcUnlock (pair : Nat) (b : Block) : Block :=
  if bit (b.rd fASRC_STAT_LOCK) pair then
    let b := (setAsrcLock pair false b).raise evASRC_UNLOCK
    { b with aout := { b.aout with asrc := (b.aout.asrc.set (2 * pair) 0).set (2 * pair + 1) 0 } }
  else b

/-- The rate converter's outputs of the period (R486): the filter is not stated, so a locked pair delivers free values; an
unlocked pair reads 0. -/
def asrcBoundary (b : Block) : Block :=
  forN 4 (fun c b =>
    if b.flag fASRC_CFG_EN && bit (b.rd fASRC_STAT_LOCK) (c / 2) then
      let (k, b) := b.freshWord
      { b with aout := { b.aout with asrc := b.aout.asrc.set c (sext 32 k) } }
    else { b with aout := { b.aout with asrc := b.aout.asrc.set c 0 } }) b

/-- What an audio port does when its enable falls. -/
def portDisabled (a : Nat) (b : Block) : Block :=
  if a = rSPDIF_IN_CFG then
    let b := ((b.wr fSPDIF_IN_STAT_LOCK 0).wr fSPDIF_IN_STAT_NON_PCM 0)
    if b.clk.spdifClock then sourceFail 4 b else b
  else if a = rSPDIF_OUT_CFG then { b with aout := { b.aout with spdifPos := 0 } }
  else if a = rASRC_CFG then
    { b.wr fASRC_STAT_LOCK 0 with aout := { b.aout with asrc := [0, 0, 0, 0] } }
  else b

/-! ### What roll call asks (R487) -/

/-- SLOTS x fs within the frame the AIO clock carries, and two slots outside TDM (R487). -/
def slotsOk (b : Block) (w : Nat) : Bool :=
  let slots := bitsOf w 20 16
  decide (0 < slots) && decide (slots ≤ 16) && (bitsOf w 29 28 == 2 || slots == 2) &&
  decide (slots * b.fs ≤ (if b.rd fTIDE_STAT_FAMILY = 0 then 768000 else 705600))

/-- The checks of an AOUT enable (R487). -/
def checkAout (a : Nat) (b : Block) : Option Reason :=
  let dac := decide (rDAC_CFG ≤ a) && decide (a < rDAC_CFG + 0x80)
  let tdm := decide (rTDM_OUT_CFG ≤ a) && decide (a < rTDM_IN_CFG + 0x20)
  if (dac && !b.on dDACA) || !b.on dAIO then some .domainOff
  else if !locked b 0 then some .noAudioClock
  else if tdm && !slotsOk b (b.word a) then some .slotMapInvalid
  else if dac && bit (b.word a) 30 && b.rd (fDAC_GRP_SRC.at (bitsOf (b.word a) 5 4)) == 2 && b.flag fAOUT_CTRL_LDACN_OUT then
    some .pinModeConflict
  else none

/-! ### Commands (R490, R491) -/

def rangeBusy (b : Block) (mask : Nat) : Bool :=
  (List.range 8).any (fun n => bit mask n && b.flag (fDAC_STAT_RANGE_BUSY.at n))

def mDacConfig : Meaning where
  chk p b :=
    let n := leAt p 0 1
    if 8 ≤ n || !regWordOk rDAC_CFG (leAt p 4 4) || !regWordOk rDAC_CODE (leAt p 8 4) then some .badField
    else if rangeBusy b (2 ^ n) then some .rangeChangePending
    else none
  eff tok stamp p b :=
    let n := leAt p 0 1
    let a := rDAC_CFG + 0x10 * n
    let w := leAt p 4 4
    let b' := writeDacCode n (leAt p 8 4) (writeDacCfg n w b)
    if bit w 31 then enableByCommand a tok stamp b [a, rDAC_CODE + 0x10 * n] b' else (ok [], dropDac n (clearEnable a b'))

def mDacSetRange : Meaning where
  chk p b :=
    if 3 < leAt p 1 1 then some .badField
    else if rangeBusy b (leAt p 0 1) then some .rangeChangePending
    else none
  eff _ _ p b := (ok [], forN 8 (fun n b => if bit (leAt p 0 1) n then writeRange n (leAt p 1 1) b else b) b)

/-- A code that DAC_LOAD stages for its own strobe (R491): nothing was staged before it. -/
def loadCode (n v : Nat) (b : Block) : Block := (b.modDac n (fun d => { d with written := none })).wr (fDAC_CODE_CODE.at n) v

def mDacLoad : Meaning where
  chk p b := if rangeBusy b (leAt p 0 1) then some .rangeChangePending else none
  eff _ _ p b :=
    let m := leAt p 0 1
    let b := forN 8 (fun n b => if bit m n then loadCode n (leAt p (4 + 2 * n) 2) b else b) b
    (ok [], forN 4 (fun g b =>
      if (List.range 8).any (fun n => bit m n && b.rd (fDAC_CFG_GROUP.at n) == g) then strobeGroup g b else b) b)

def mDacSetGroup : Meaning where
  chk p _ := if 3 < leAt p 0 1 || 3 < leAt p 1 1 || 15 < leAt p 2 1 || 1 < leAt p 3 1 then some .badField else none
  eff _ _ p b :=
    let g := leAt p 0 1
    (ok [], ((b.wr (fDAC_GRP_SRC.at g) (leAt p 1 1)).wr (fDAC_GRP_TIDE_CH.at g) (leAt p 2 1)).wr fAOUT_CTRL_LDACN_OUT
      (leAt p 3 1))

/-- The register of a port by kind and index (R490). -/
def portReg (kind i : Nat) : Option Nat :=
  match kind with
  | 0 => if i < 4 then some (rTDM_OUT_CFG + 0x10 * i) else none
  | 1 => if i < 2 then some (rTDM_IN_CFG + 0x10 * i) else none
  | 2 => if i = 0 then some rSPDIF_OUT_CFG else none
  | 3 => if i = 0 then some rSPDIF_IN_CFG else none
  | 4 => if i = 0 then some rASRC_CFG else none
  | _ => none

/-- PORT_CONFIG. An enable of a TDM port whose SLOTS is 0 or above 16 is refused by roll call, not by the check of codes (R487, R491). -/
def mPortConfig : Meaning where
  chk p _ :=
    match portReg (leAt p 0 1) (leAt p 1 1) with
    | none => some .badField
    | some a =>
      let w := leAt p 4 4
      if !regWordOk a (if leAt p 0 1 ≤ 1 ∧ bit w 31 then putBits w 20 16 2 else w) || (leAt p 0 1 != 2 && leAt p 8 4 != 0) then some .badField else none
  eff tok stamp p b :=
    match portReg (leAt p 0 1) (leAt p 1 1) with
    | none => (refusedWith .badField, b)
    | some a =>
      let w := leAt p 4 4
      let b' := putIdle a w b
      let b' := if leAt p 0 1 ≤ 1 ∧ bit w 31 ∧ !enabled b a then b'.setWord a (putBits (b'.word a) 20 16 (bitsOf w 20 16)) else b'
      let b' := if leAt p 0 1 = 2 then b'.setWord rSPDIF_OUT_CS (leAt p 8 4) else b'
      if bit w 31 then enableByCommand a tok stamp b [a, rSPDIF_OUT_CS] b'
      else (ok [], portDisabled a (clearEnable a b'))

/-- AOUT_STAT (R488): pins held, ranges busy, switches closed. -/
def aoutStat (b : Block) : Nat :=
  b2n b.isShadow * 2 ^ 31 +
  (List.range 8).foldl (fun w n =>
    w + b2n (b.flag (fDAC_STAT_RANGE_BUSY.at n)) * 2 ^ (16 + n) + b2n (b.flag (fDAC_STAT_CONNECTED.at n)) * 2 ^ (8 + n)) 0

def mAoutStatus : Meaning := plain (fun _ b =>
  (ok (toLE 4 (aoutStat b) ++ words4 b ([rSPDIF_IN_STAT, rASRC_STAT, rTDM_ERR_COUNT, rSPDIF_ERR_COUNT] ++
    (List.range 8).map (fun n => rDAC_STAT + 0x10 * n))), b))

/-- What the audio ports do at a boundary, after the mix bus. -/
def aoutBoundary (b : Block) : Block := deliverTdm (dacBoundary b)

/-- What the audio inputs do at a boundary, before the live channels are latched. -/
def inputBoundary (b : Block) : Block := asrcBoundary (spdifBoundary b)

def execTdmFrameStart (s : State) := done tdmFrameStart s
def execLdacnFall (s : State) := done ldacnFall s
def execDacDisconnect (n : Nat) (s : State) := doneIf (Instr.wf (.dacDisconnect n)) (dacDisconnect n) s
def execDacRangeDone (n : Nat) (s : State) := doneIf (Instr.wf (.dacRangeDone n)) (dacRangeDone n) s
def execDacFault (n : Nat) (s : State) := doneIf (Instr.wf (.dacFault n)) (dacFault n) s
def execTdmFrameErr (port : Nat) (s : State) := doneIf (Instr.wf (.tdmFrameErr port)) (tdmFrameErr port) s
def execTdmSlaveFs (port : Nat) (s : State) := doneIf (decide (port < 4)) (tdmSlaveFs port) s
def execTdmInputSample (port slot : Nat) (w : Word) (s : State) :=
  doneIf (decide (port < 2) && decide (slot < 16)) (tdmInputSample port slot w.toNat) s
def execSpdifLock (rate : Nat) (nonPcm : Bool) (s : State) := doneIf (Instr.wf (.spdifLock rate nonPcm)) (spdifLock rate nonPcm) s
def execSpdifUnlock (s : State) := done spdifUnlock s
def execSpdifSubframe (chan : Nat) (w : Word) (bad : Bool) (s : State) :=
  doneIf (decide (chan < 2)) (spdifSubframe chan w.toNat bad) s
def execAsrcLock (pair : Nat) (s : State) := doneIf (Instr.wf (.asrcLock pair)) (asrcLock pair) s
def execAsrcUnlock (pair : Nat) (s : State) := doneIf (Instr.wf (.asrcUnlock pair)) (asrcUnlock pair) s
def execDacConfig (c : Cmd) (s : State) := done (command 0x0B00 mDacConfig c) s
def execDacSetRange (c : Cmd) (s : State) := done (command 0x0B01 mDacSetRange c) s
def execDacLoad (c : Cmd) (s : State) := done (command 0x0B02 mDacLoad c) s
def execDacSetGroup (c : Cmd) (s : State) := done (command 0x0B03 mDacSetGroup c) s
def execPortConfig (c : Cmd) (s : State) := done (command 0x0B04 mPortConfig c) s
def execAoutStatus (c : Cmd) (s : State) := done (command 0x0B05 mAoutStatus c) s

end Sys2Proof.Machine
end

