-- ==== Sys2Proof/Machine/Ports.lean ====
section
/-! DEFINITION. Serial event ports and USB (12 R416 to R442). DFU downloads stand in Machine/Boot.lean. -/

namespace Sys2Proof.Machine

def Block.serial (b : Block) (n : Nat) : Ser := nth Ser.reset b.ser n

def Block.modSer (b : Block) (n : Nat) (f : Ser → Ser) : Block := { b with ser := b.ser.modify n f }

/-- The port receives and transmits (SER_CFGn.EN, R527). -/
def serOn (b : Block) (n : Nat) : Bool := b.flag (fSER_CFG_EN.at n) && b.on dCOMM

/-- GENERAL mode; port 4 is fixed in it (R417). -/
def serGeneral (b : Block) (n : Nat) : Bool := n == 4 || b.flag (fSER_CFG_MODE.at n)

/-- PARSE RAW; port 4 is fixed in it (R438). -/
def serRaw (b : Block) (n : Nat) : Bool := n == 4 || b.flag (fSER_CFG_PARSE.at n)

/-- XON_EN takes effect (R426). -/
def xonOn (b : Block) (n : Nat) : Bool := b.flag (fSER_CFG_XON_EN.at n) && serGeneral b n && serRaw b n

/-- SER_STATn with its fills (R438). -/
def serStat (b : Block) (n : Nat) : Nat :=
  let s := b.serial n
  if b.on dCOMM then b.word (rSER_STAT + 0x40 * n) + s.rx.length * 2 ^ 18 + s.tx.length * 2 ^ 11
  else b.word (rSER_STAT + 0x40 * n) % 2 ^ 4

/-! ### Receiving (R418 to R426) -/

/-- The receive fill has changed: 0x13 is owed at XOFF_AT, 0x11 at XON_AT or below once 0x13 was sent (R425). -/
def flowCheck (n : Nat) (b : Block) : Block :=
  if !xonOn b n then b
  else
    let s := b.serial n
    if !b.flag (fSER_STAT_XOFF_SENT.at n) && s.flow.isNone && decide (b.rd (fSER_FLOW_XOFF_AT.at n) ≤ s.rx.length) then
      b.modSer n (fun s => { s with flow := some true })
    else if b.flag (fSER_STAT_XOFF_SENT.at n) && s.flow.isNone && decide (s.rx.length ≤ b.rd (fSER_FLOW_XON_AT.at n)) then
      b.modSer n (fun s => { s with flow := some false })
    else b

/-- An erroneous character is counted, and a parse under way is abandoned (R420). -/
def serError (n : Nat) (b : Block) : Block :=
  (b.modSer n (fun s => { s with run := none, msg := none })).countUp (fSER_ERRCNT_COUNT.at n) 1 |>.raise (evSER_RX_ERR n)

/-- The autobaud measurement of a character whose edges fall at these SER cycles after the fall of its start bit (R423): T runs to the
eighth, and each of the edges of 0x55, up to that of its stop bit, must lie within 1/8 bit of its place. -/
def autobaud (n : Nat) (edges : List Nat) (b : Block) : Block :=
  let t := nth 0 edges 7
  let near (k : Nat) : Bool := decide (((64 * nth 0 edges k : Nat) - (8 * (k + 1) * t : Nat) : Int).natAbs ≤ t)
  let code := 2 * t
  if decide (9 ≤ edges.length) && (List.range 9).all near && decide (256 ≤ code) && decide (code ≤ 41666 * 256 + 171) then
    (((b.wr (fSER_DIV_INT.at n) (code / 256)).wr (fSER_DIV_FRAC.at n) (code % 256)).wr (fSER_CFG_AUTOBAUD.at n) 0).raise
      (evSER_AUTOBAUD_DONE n)
  else b

/-- The format in force on a port (R417). -/
def serFormat (b : Block) (n : Nat) : SerFormat :=
  if serGeneral b n then
    { bits := if b.flag (fSER_CFG_DATA7.at n) then 7 else 8, parity := b.rd (fSER_CFG_PARITY.at n)
      stops := if b.flag (fSER_CFG_STOP2.at n) then 2 else 1 }
  else { bits := 8, parity := 0, stops := 1 }

/-- The bits of a character, the start bit with them. -/
def SerFormat.length (f : SerFormat) : Nat := 1 + f.bits + b2n (f.parity != 0) + f.stops

/-- A character that is whole at its centre sample now began less than its own length ago, so before a write of that age or less
(R418, R419, R422): its samples, at a divisor in 1/256 of a SER cycle at 200 MHz, against the Tide. -/
def beganBefore (b : Block) (p : SerFormat × Nat × Nat) : Bool :=
  decide (stampAge b p.2.2 * (256 * 200000000) < (16 * (p.1.length - 1) + 8) * p.2.1 * tideHz b)

/-- The format of the character that is whole now: that in force when its start was detected (R422). -/
def rxFormat (b : Block) (n : Nat) : SerFormat :=
  match (b.serial n).prior.find? (beganBefore b) with
  | some p => p.1
  | none => serFormat b n

/-- A write that changes the format or the divisor of a port leaves the old ones to a character that has begun (R422). -/
def changeSer (n : Nat) (f : Block → Block) (b : Block) : Block :=
  let b' := f b
  let code (b : Block) : Nat := b.word (rSER_DIV + 0x40 * n) % 2 ^ 24
  if serFormat b' n = serFormat b n ∧ code b' = code b then b'
  else b'.modSer n (fun s => { s with prior := s.prior.filter (beganBefore b) ++ [(serFormat b n, code b, b.now)] })

/-- The parity bit of a data word. -/
def SerFormat.parityBit (f : SerFormat) (data : Nat) : Bool :=
  ((List.range f.bits).foldl (fun p i => xor p (bit data i)) (f.parity == 2))

/-- The bits sent for a byte, in order (R417). -/
def SerFormat.frame (f : SerFormat) (c : Nat) : List Bool :=
  [false] ++ (List.range f.bits).map (bit c) ++ (if f.parity = 0 then [] else [f.parityBit c]) ++ List.replicate f.stops true

/-- Bit k of a character, decided by the majority of its samples 7, 8 and 9 (R418). -/
def bitAt (s : List Bool) (k : Nat) : Bool :=
  let x (i : Nat) : Bool := nth false s (16 * k + i)
  (x 7 && x 8) || (x 7 && x 9) || (x 8 && x 9)

/-- The samples from the first low one that follows a high one (R418). -/
def huntFall : Bool → List Bool → List Bool
  | _, [] => []
  | prev, x :: xs => if prev && !x then x :: xs else huntFall x xs

/-- The samples of a character from its sample 0: false starts are passed over (R418). -/
def huntStart : Nat → Bool → List Bool → List Bool
  | 0, _, _ => []
  | n + 1, prev, s =>
    let c := huntFall prev s
    if bitAt c 0 then huntStart n (nth false c 9) (c.drop 10) else c

/-- A character as its samples decide it (R418 to R420). -/
structure Decided where
  data : Nat
  framing : Bool
  parity : Bool
  level : Bool
  deriving DecidableEq, Repr

/-- The character in what the receiver has sampled since the centre of the one before; none where no whole character is there. The stop
bit that is decided is the last (notes/assumptions/47.md, DEDUCED). -/
def decideChar (f : SerFormat) (level : Bool) (samples : List Bool) : Option Decided :=
  let s := huntStart samples.length level samples
  let last := f.length - 1
  if s.length < 16 * last + 10 then none
  else
    let data := (List.range f.bits).foldl (fun d i => d + b2n (bitAt s (1 + i)) * 2 ^ i) 0
    some { data := data, framing := !bitAt s last, parity := f.parity != 0 && bitAt s (1 + f.bits) != f.parityBit data
           level := nth false s (16 * last + 8) }

/-- A character that the receiver has decided (R420, R424, R425). -/
def receive (n : Nat) (ch : Decided) (b : Block) : Block :=
    let data := ch.data
    if ch.framing || ch.parity then
      let b := if ch.framing then b.wr (fSER_STAT_FE.at n) 1 else b
      let b := if ch.parity then b.wr (fSER_STAT_PE.at n) 1 else b
      let b := if ch.framing && data == 0 then b.wr (fSER_STAT_BRK.at n) 1 else b
      serError n b
    else if xonOn b n && data == 0x13 then b.wr (fSER_STAT_TX_PAUSED.at n) 1
    else if xonOn b n && data == 0x11 then b.wr (fSER_STAT_TX_PAUSED.at n) 0
    else if 64 ≤ (b.serial n).rx.length then
      ((b.wr (fSER_STAT_OVR.at n) 1).countUp (fSER_ERRCNT_COUNT.at n) 1).raise (evSER_RX_ERR n)
    else
      flowCheck n (b.modSer n (fun s =>
        { s with rx := s.rx ++ [(BitVec.ofNat 8 data, b.now)]
                 sense := s.sense || (b.flag (fSER_CFG_SENSE.at n) && !serRaw b n && data == 0xFE) }))

/-- SER_CHARACTER (R418 to R425): the samples of a port up to the decision of a character, which then stands at its centre sample. -/
def serCharacter (n : Nat) (ch : SerChar) (b : Block) : Block :=
  if !serOn b n then b
  else if serGeneral b n && b.flag (fSER_CFG_AUTOBAUD.at n) && !b.flag (fSER_CFG_DATA7.at n) then
    autobaud n ch.edges (b.modSer n (fun s => { s with level := ch.samples.getLastD s.level }))
  else
    match decideChar (rxFormat b n) (b.serial n).level ch.samples with
    | some d => receive n d (b.modSer n (fun s => { s with level := d.level }))
    | none => b

/-- SER_TX_CHARACTER (R417, R425): at a character boundary a flow byte owed goes first, then the oldest byte queued unless 0x13 has
paused the transmitter. -/
def serTx (n : Nat) (b : Block) : Block :=
  if !serOn b n then b
  else
    let s := b.serial n
    match s.flow with
    | some x =>
      flowCheck n ((b.modSer n (fun s => { s with flow := none, shift := (serFormat b n).frame (if x then 0x13 else 0x11) })).wrB
        (fSER_STAT_XOFF_SENT.at n) x)
    | none =>
      if b.flag (fSER_STAT_TX_PAUSED.at n) then b.modSer n (fun s => { s with shift := [] })
      else match s.tx with
        | c :: rest => b.modSer n (fun s => { s with tx := rest, shift := (serFormat b n).frame c.toNat })
        | [] => b.modSer n (fun s => { s with shift := [] })

/-- A byte is queued for transmission, or discarded where 64 are (R438). -/
def queueTx (n : Nat) (c : Byte) (b : Block) : Block :=
  b.modSer n (fun s => if 64 ≤ s.tx.length then s else { s with tx := s.tx ++ [c] })

/-- A write of SER_TXDATAn (R438); while COMM is off the byte waits for its clock (R400, R528). -/
def writeTx (n v : Nat) (b : Block) : Block :=
  let c := BitVec.ofNat 8 v
  if b.on dCOMM then queueTx n c b else b.modSer n (fun s => { s with owed := s.owed ++ [c] })

/-- Bytes that waited for the COMM clock are queued (R400). -/
def arriveTx (b : Block) : Block :=
  forN 5 (fun n b => forL (b.serial n).owed (queueTx n) (b.modSer n (fun s => { s with owed := [] }))) b

/-- A read of SER_RXDATAn: the oldest byte, PARSE RAW only, is removed (R438). -/
def readRx (n : Nat) (b : Block) : Nat × Block :=
  match (b.serial n).rx with
  | (c, _) :: rest =>
    if serRaw b n && b.on dCOMM then (2 ^ 31 + c.toNat, flowCheck n (b.modSer n (fun s => { s with rx := rest }))) else (0, b)
  | [] => (0, b)

/-- A write of SER_CFGn (R426, R438): MIDI mode forces DIV to 400.000 (R417). -/
def writeSerCfg (n v : Nat) : Block → Block := changeSer n fun b =>
  let b := b.put (rSER_CFG + 0x40 * n) v
  let b := if n = 4 then (b.wr (fSER_CFG_MODE.at 4) 1).wr (fSER_CFG_PARSE.at 4) 1 else b
  let b := if serGeneral b n then b else b.setWord (rSER_DIV + 0x40 * n) (400 * 256)
  if serGeneral b n && serRaw b n then b else b.wr (fSER_CFG_XON_EN.at n) 0

/-- A divisor within R417. -/
def divOk (w : Nat) : Bool :=
  let i := bitsOf w 23 8
  decide (1 ≤ i) && (decide (i < 41666) || (i == 41666 && decide (w % 256 ≤ 171)))

/-- A write of SER_DIVn: an unlisted value leaves its field as it is (R12, R438), and in MIDI mode the divisor stays forced (R417). -/
def writeSerDiv (n v : Nat) : Block → Block := changeSer n fun b =>
  let a := rSER_DIV + 0x40 * n
  let i := bitsOf v 23 8
  let old := b.word a
  let i := if 1 ≤ i ∧ i ≤ 41666 then i else bitsOf old 23 8
  let f := if i = 41666 ∧ 171 < v % 256 then old % 256 else v % 256
  if serGeneral b n then b.setWord a (i * 256 + f) else b

/-! ### MIDI 1.0 (R427 to R430) -/

/-- Data bytes of a channel message. -/
def midiData (st : Nat) : Nat := if st / 16 = 12 ∨ st / 16 = 13 then 1 else 2

/-- round(2^27 * num / den) (R429). -/
def midiValue (num : Int) (den : Nat) : Word := BitVec.ofInt 32 (roundDiv (num * 2 ^ 27) den)

/-- A record with the fields of R428. -/
def midiRecord (port prio type note chan : Nat) (value : Word) (value2 : Nat) : EventRecord :=
  { type := BitVec.ofNat 8 type, flags := BitVec.ofNat 8 (prio * 16), port := BitVec.ofNat 8 port, note := BitVec.ofNat 8 note,
    target := BitVec.ofNat 16 chan, noteId := 0, value := value, dueTime := 0, seq := 0, value2 := BitVec.ofNat 32 value2 }

/-- The record of a complete channel message (R428). -/
def midiOf (port prio st d1 d2 : Nat) : EventRecord :=
  let ch := st % 16
  match st / 16 with
  | 8 => midiRecord port prio evtNoteOff d1 ch (midiValue d2 127) 0
  | 9 =>
    if d2 = 0 then midiRecord port prio evtNoteOff d1 ch (midiValue 64 127) 0
    else midiRecord port prio evtNoteOn d1 ch (midiValue d2 127) 0
  | 10 => midiRecord port prio 3 d1 ch (midiValue d2 127) 0
  | 11 =>
    if d1 = 120 then midiRecord port prio evtAllSoundOff 0 ch 0 0
    else if 123 ≤ d1 then midiRecord port prio evtAllNotesOff 0 ch 0 0
    else midiRecord port prio evtController 0 ch (midiValue d2 127) d1
  | 12 => midiRecord port prio evtWork 0 ch (BitVec.ofNat 32 d1) ch
  | 13 => midiRecord port prio evtChannelPressure 0 ch (midiValue d1 127) 0
  | _ => midiRecord port prio evtPitchBend 0 ch (BitVec.ofInt 32 (((d1 + 128 * d2 : Nat) - 8192 : Int) * 2 ^ 14)) 0

/-- What one byte does to a parse: the parse after it, whether it counts an error, and the message it completes. -/
def parseByte (s : Ser) (c : Byte) : Ser × Bool × Option (Nat × Nat × Nat) :=
  let n := c.toNat
  if 0xF8 ≤ n then (s, false, none)
  else if 0xF0 ≤ n then ({ s with run := none, msg := none }, s.msg.isSome, none)
  else if 0x80 ≤ n then ({ s with run := some c, msg := some (c, []) }, s.msg.isSome, none)
  else
    let cur := match s.msg with
      | some m => some m
      | none => s.run.map (fun r => (r, []))
    match cur with
    | none => (s, true, none)
    | some (st, ds) =>
      let ds := ds ++ [c]
      if midiData st.toNat ≤ ds.length then
        ({ s with msg := none }, false, some (st.toNat, (nth 0 ds 0).toNat, (nth 0 ds 1).toNat))
      else ({ s with msg := some (st, ds) }, false, none)

/-- Reads the FIFO up to the message that completes (R427). A message whose record finds no place stays, its last byte in the
FIFO (R424). -/
def parseSerial (n : Nat) : Nat → Block → Block
  | 0, b => b
  | k + 1, b =>
    match (b.serial n).rx with
    | [] => b
    | (c, stamp) :: rest =>
      let (s, err, m) := parseByte (b.serial n) c
      let b' := flowCheck n (b.modSer n (fun _ => { s with rx := rest }))
      let b' := if err then b'.countUp (fSER_ERRCNT_COUNT.at n) 1 else b'
      match m with
      | none => parseSerial n k b'
      | some (st, d1, d2) =>
        let r := midiOf n (b.rd (fSER_CFG_PRIO.at n)) st d1 d2
        match offer r stamp b' with
        | (true, b'') => b''
        | (false, b'') => { b'' with ser := b.ser }

/-- MIDI_MESSAGE (R427): the parser reads on to the end of the next message. -/
def midiMessage (n : Nat) (b : Block) : Block :=
  if serOn b n && !serRaw b n && b.on dEVT then parseSerial n 65 b else b

/-- SENSE_TIMEOUT (R430): ALL_NOTES_OFF for every channel in order; one that must wait is kept (R605). -/
def senseTimeout (n : Nat) (b : Block) : Block :=
  if (b.serial n).sense && b.flag (fSER_CFG_SENSE.at n) && serOn b n then
    forN 16 (fun ch b =>
      let r := midiRecord n (b.rd (fSER_CFG_PRIO.at n)) evtAllNotesOff 0 ch 0 0
      if b.sched.waitSer.any (fun w => w.1 == n) then
        { b with sched := { b.sched with waitSer := b.sched.waitSer ++ [(n, r, b.now)] } }
      else match offer r b.now b with
        | (true, b) => b
        | (false, b) => { b with sched := { b.sched with waitSer := b.sched.waitSer ++ [(n, r, b.now)] } })
      (b.modSer n (fun s => { s with sense := false }))
  else b

/-- A serial port offers what waits, one record in a cycle: the oldest kept, else the message whose last byte stands in the FIFO
(R605). -/
def admitSerial (n : Nat) (b : Block) : Block :=
  match b.sched.waitSer.find? (fun w => w.1 == n) with
  | some w =>
    match offer w.2.1 w.2.2 b with
    | (true, b) => { b with sched := { b.sched with waitSer := b.sched.waitSer.erase w } }
    | (false, b) => b
  | none => midiMessage n b

/-! ### USB (R431 to R436) -/

/-- The function is attached. -/
def usbOn (b : Block) : Bool := b.flag fUSB_CTRL_EN && b.on dCOMM

/-- USB_STAT with the OUT fill (R439). -/
def usbStat (b : Block) : Nat :=
  if b.on dCOMM then b.word rUSB_STAT + b.usb.outBuf.length else b.word rUSB_STAT / 2 ^ 28 % 2 * 2 ^ 28

/-- The alternate settings return to 0. -/
def usbIdle (b : Block) : Block :=
  (((b.wr fUSB_STAT_CONFIGURED 0).wr fUSB_STAT_ALT_OUT 0).wr fUSB_STAT_ALT_IN 0).wr fUSB_STAT_ALT_MIDI 0

/-- USB_RESET (R431): the function is unconfigured at the speed the reset found. What its buffers hold stays (DESIGN CHOICE,
notes/assumptions/47.md). -/
def usbReset (hs : Bool) (b : Block) : Block :=
  if usbOn b then (((usbIdle b).wrB fUSB_STAT_HIGH_SPEED hs).wr fUSB_STAT_SUSPENDED 0).raise evUSB_RESET else b

/-- USB_SUSPEND (R431). -/
def usbSuspend (b : Block) : Block := if usbOn b then (b.wr fUSB_STAT_SUSPENDED 1).raise evUSB_SUSPEND else b

def usbResume (b : Block) : Block := if usbOn b then b.wr fUSB_STAT_SUSPENDED 0 else b

def usbSetConfiguration (b : Block) : Block := if usbOn b then b.wr fUSB_STAT_CONFIGURED 1 else b

/-- USB_SET_INTERFACE (R431): interfaces in the table's order, 1 audio OUT, 2 audio IN, 3 MIDI; the audio interfaces are
absent at Full-Speed, and an alternate setting that is not offered changes nothing. -/
def usbSetInterface (i alt : Nat) (b : Block) : Block :=
  if !usbOn b || !b.flag fUSB_STAT_CONFIGURED then b
  else if i = 1 ∧ alt ≤ 2 ∧ b.flag fUSB_STAT_HIGH_SPEED then b.wr fUSB_STAT_ALT_OUT alt
  else if i = 2 ∧ alt ≤ 2 ∧ b.flag fUSB_STAT_HIGH_SPEED then b.wr fUSB_STAT_ALT_IN alt
  else if i = 3 ∧ alt ≤ 1 then b.wr fUSB_STAT_ALT_MIDI alt
  else b

/-- USB_AUD_ERR counts a case of R434, and the onset of a condition raises USB_AUDIO_SYNC_LOST. -/
def usbErr (onset : Bool) (b : Block) : Block := (b.countUp fUSB_AUD_ERR_COUNT 1).raiseIf onset evUSB_AUDIO_SYNC_LOST

/-- USB_OUT_FRAME (R433, R434). -/
def usbOutFrame (samples : List Int) (b : Block) : Block :=
  if !usbOn b || b.rd fUSB_STAT_ALT_OUT = 0 then b
  else if 64 ≤ b.usb.outBuf.length then { usbErr (!b.usb.full) b with usb := { b.usb with full := true } }
  else
    let wide := b.rd fUSB_STAT_ALT_OUT == 1
    let f := (List.range 8).map (fun c =>
      if wide then sext 24 (unsx 24 (nth 0 samples c)) * 2 ^ 8 else sext 16 (unsx 16 (nth 0 samples c)) * 2 ^ 16)
    { b with usb := { b.usb with outBuf := b.usb.outBuf ++ [f], full := false } }

/-- One frame leaves the OUT buffer at each boundary, and one enters the IN buffer (R433, R434). -/
def usbOutBoundary (b : Block) : Block :=
  if !usbOn b || b.rd fUSB_STAT_ALT_OUT = 0 then { b with usb := { b.usb with frame := List.replicate 8 0 } }
  else
    match b.usb.outBuf with
    | f :: rest => { b with usb := { b.usb with frame := f, outBuf := rest, empty := false } }
    | [] => { usbErr (!b.usb.empty) b with usb := { b.usb with frame := List.replicate 8 0, empty := true } }

def usbInBoundary (b : Block) : Block :=
  if !usbOn b || b.rd fUSB_STAT_ALT_IN = 0 then b
  else
    let wide := b.rd fUSB_STAT_ALT_IN == 1
    let f := (List.range 8).map (fun c =>
      let w := nth 0 b.mix.words (74 + c)
      if wide then satS 24 ((w + 2 ^ 7) / 2 ^ 8) else satS 16 ((w + 2 ^ 15) / 2 ^ 16))
    let all := b.usb.inBuf ++ [f]
    { b with usb := { b.usb with inBuf := all.drop (all.length - 64) } }

/-- USB_IN_PACKET (R434): the host takes an IN frame. -/
def usbInPacket (b : Block) : Block :=
  match b.usb.inBuf with
  | f :: rest => if usbOn b && b.rd fUSB_STAT_ALT_IN != 0 then { b with usb := { b.usb with sent := f, inBuf := rest } } else b
  | [] => b

/-- USB_FEEDBACK (R434): the measured frames per microframe, 16.16, plus (32 - fill) * 2^8. -/
def usbFeedback (measured : Nat) (b : Block) : Block :=
  if usbOn b && b.rd fUSB_STAT_ALT_OUT != 0 then
    b.wr fUSB_FB_VALUE (unsx 32 ((measured : Int) + (32 - (b.usb.outBuf.length : Int)) * 2 ^ 8))
  else b

/-- USB_SOF_TIMEOUT (R434). -/
def usbSofTimeout (b : Block) : Block :=
  if usbOn b && (b.rd fUSB_STAT_ALT_OUT != 0 || b.rd fUSB_STAT_ALT_IN != 0) then usbErr true b else b

/-- USB_RATE_REQUEST (R433): the clock source is read-only. -/
def usbRateRequest (hz : Nat) (b : Block) : Block :=
  if usbOn b then { b with usb := { b.usb with stalled := hz != b.fs } } else b

/-- ENDPOINT_DISCOVERY (R435): 16 groups, the MIDI 2.0 protocol, no jitter-reduction timestamps. -/
def endpointDiscovery (b : Block) : Block :=
  if usbOn b && b.flag fUSB_STAT_ALT_MIDI && b.serving then { b with usb := { b.usb with answer := some (16, 2, false) } } else b

/-- The roll of records from USB, which no rule states (R428 names SER_CFGn.PRIO of a serial port): free. -/
def usbPrio : Nat := Config.freeNat 435 0 % 8

/-- The record of a MIDI 1.0 event packet (R435): byte 0 the cable, bytes 1 to 3 the message. -/
def usbMidi1 (w : Nat) : List EventRecord :=
  let st := bitsOf w 15 8
  if 0x80 ≤ st ∧ st < 0xF0 then [midiOf (0x10 + bitsOf w 7 4) usbPrio st (bitsOf w 22 16) (bitsOf w 30 24)] else []

/-- The record of a MIDI 2.0 voice message (R435). -/
def umpVoice (b : Block) (w d : Nat) : List EventRecord :=
  let port := 0x10 + bitsOf w 27 24
  let ch := bitsOf w 19 16
  let i := bitsOf w 14 8
  let v16 := midiValue (bitsOf d 31 16) 65535
  let v32 := midiValue d (2 ^ 32 - 1)
  let bend := midiValue ((d : Int) - 2 ^ 31) (2 ^ 31)
  let rec_ (type note : Nat) (v : Word) (v2 : Nat) := [midiRecord port usbPrio type note ch v v2]
  match bitsOf w 23 20 with
  | 1 =>
    if bitsOf w 7 0 = b.rd fUSB_UMP_CFG_NPC_A then rec_ 5 i v32 0
    else if bitsOf w 7 0 = b.rd fUSB_UMP_CFG_NPC_B then rec_ 5 i v32 1 else []
  | 6 => rec_ 4 i bend 0
  | 8 => rec_ evtNoteOff i v16 0
  | 9 => rec_ evtNoteOn i v16 0
  | 10 => rec_ 3 i v32 0
  | 11 =>
    if i = 120 then rec_ evtAllSoundOff 0 0 0
    else if 123 ≤ i then rec_ evtAllNotesOff 0 0 0 else rec_ evtController 0 v32 i
  | 12 => rec_ evtWork 0 (BitVec.ofNat 32 (bitsOf d 30 24)) ch
  | 13 => rec_ evtChannelPressure 0 v32 0
  | 14 => rec_ evtPitchBend 0 bend 0
  | _ => []

/-- Words of a Universal MIDI Packet by its message type. -/
def umpWords (t : Nat) : Nat :=
  if t ≤ 2 ∨ t = 6 ∨ t = 7 then 1 else if t = 3 ∨ t = 4 ∨ (8 ≤ t ∧ t ≤ 10) then 2 else if t = 11 ∨ t = 12 then 3 else 4

/-- The records of a packet of Universal MIDI Packets (R435). -/
def umpRecords (b : Block) : Nat → List Nat → List EventRecord
  | 0, _ => []
  | _ + 1, [] => []
  | k + 1, w :: ws =>
    let t := bitsOf w 31 28
    let here := match t with
      | 2 =>
        let st := bitsOf w 23 16
        if 0x80 ≤ st ∧ st < 0xF0 then [midiOf (0x10 + bitsOf w 27 24) usbPrio st (bitsOf w 14 8) (bitsOf w 6 0)] else []
      | 4 => umpVoice b w (nth 0 ws 0)
      | _ => []
    here ++ umpRecords b k (ws.drop (umpWords t - 1))

/-- USB_MIDI_PACKET (R435, R436): the packet's messages become records in order; where one finds no place, or the event
island has no clock (R400), the endpoint NAKs and the packet enters when the host sends it again. -/
def usbMidiPacket (ws : List Word) (b : Block) : Block :=
  if !usbOn b || !b.flag fUSB_STAT_CONFIGURED then b
  else if !b.on dEVT then { b with usb := { b.usb with nak := true } }
  else
    let ws := ws.map (·.toNat)
    let rs := if b.flag fUSB_STAT_ALT_MIDI then umpRecords b (ws.length + 1) ws else ws.flatMap usbMidi1
    let (ok, b') := rs.foldl (fun (a : Bool × Block) r => if a.1 then offer r b.now a.2 else a) (true, b)
    if ok then { b' with usb := { b'.usb with nak := false } }
    else { b with usb := { b.usb with nak := true } }

/-- USB_CTRL.EN falls by a write of 0: the function detaches. -/
def usbDisabled (b : Block) : Block := ((usbIdle b).wr fUSB_STAT_HIGH_SPEED 0).wr fUSB_STAT_SUSPENDED 0

/-- The checks of USB_CTRL.EN (R432). -/
def checkUsb (b : Block) : Option Reason :=
  if b.flag fCPR_CLK_STAT_FALLBACK then some .onFallback
  else if !proven b (if b.flag fUSB_CTRL_REF then 2 else 1) then some .noAudioClock
  else none

/-! ### Commands (R441, R442) -/

def mSerConfig : Meaning where
  chk p _ :=
    let n := leAt p 0 1
    let c := leAt p 4 4
    let general := n == 4 || (bit c 30 && bit c 29)
    if 5 ≤ n || !regWordOk rSER_CFG c || decide (2 ^ 24 ≤ leAt p 8 4) || !regWordOk rSER_FLOW (leAt p 12 4) then
      some .badField
    else if !divOk (leAt p 8 4) then some .rateOutOfRange
    else if bit c 28 && !general then some .flowModeConflict
    else none
  eff _ _ p b :=
    let n := leAt p 0 1
    (ok [], (writeSerDiv n (leAt p 8 4) (writeSerCfg n (leAt p 4 4) b)).put (rSER_FLOW + 0x40 * n) (leAt p 12 4))

def mSerSend : Meaning where
  chk p b :=
    let n := leAt p 0 1
    if 5 ≤ n then some .badField
    else if !b.flag (fSER_CFG_EN.at n) then some .notInMode
    else if 64 < (b.serial n).tx.length + leAt p 2 2 then some .busyBackpressure
    else none
  eff _ _ p b := (ok [], b.modSer (leAt p 0 1) (fun s => { s with tx := s.tx ++ (p.drop 4).take (leAt p 2 2) }))

def mUsbEnable : Meaning where
  chk p _ := if 1 < leAt p 0 1 || 1 < leAt p 1 1 then some .badField else none
  eff tok stamp p b :=
    let b' := if b.flag fUSB_CTRL_EN then b else b.wr fUSB_CTRL_REF (leAt p 1 1)
    let b' := (b'.wr fUSB_UMP_CFG_NPC_A (leAt p 2 1)).wr fUSB_UMP_CFG_NPC_B (leAt p 3 1)
    if leAt p 0 1 = 1 then enableByCommand rUSB_CTRL tok stamp b [rUSB_CTRL, rUSB_UMP_CFG] b'
    else (ok [], usbDisabled (clearEnable rUSB_CTRL b'))

def mUsbSendMidi : Meaning where
  chk _ b := if b.flag fUSB_STAT_CONFIGURED && b.flag fUSB_STAT_ALT_MIDI then none else some .usbNotConfigured
  eff _ _ p b :=
    (ok [], { b with usb := { b.usb with midiIn := (List.range (p.length / 4)).map (fun i => leAt p (4 * i) 4) } })

def mSerUsbStatus : Meaning := plain (fun _ b =>
  (ok ((List.range 5).flatMap (fun n => toLE 4 (serStat b n)) ++ toLE 4 (usbStat b) ++ toLE 4 (b.word rUSB_FB)), b))

def execSerCharacter (port : Nat) (ch : SerChar) (s : State) := doneIf (Instr.wf (.serCharacter port ch)) (serCharacter port ch) s
def execSerTxCharacter (port : Nat) (s : State) := doneIf (Instr.wf (.serTxCharacter port)) (serTx port) s
def execMidiMessage (port : Nat) (s : State) := doneIf (Instr.wf (.midiMessage port)) (midiMessage port) s
def execSenseTimeout (port : Nat) (s : State) := doneIf (Instr.wf (.senseTimeout port)) (senseTimeout port) s
def execUsbReset (hs : Bool) (s : State) := done (usbReset hs) s
def execUsbSuspend (s : State) := done usbSuspend s
def execUsbOutFrame (samples : List Int) (s : State) := done (usbOutFrame samples) s
def execUsbFeedback (m : Nat) (s : State) := done (usbFeedback m) s
def execUsbMidiPacket (ws : List Word) (s : State) := done (usbMidiPacket ws) s
def execUsbRateRequest (hz : Nat) (s : State) := done (usbRateRequest hz) s
def execEndpointDiscovery (s : State) := done endpointDiscovery s
def execUsbSetConfiguration (s : State) := done usbSetConfiguration s
def execUsbSetInterface (i alt : Nat) (s : State) := doneIf (decide (i < 256) && decide (alt < 256)) (usbSetInterface i alt) s
def execUsbResume (s : State) := done usbResume s
def execUsbSofTimeout (s : State) := done usbSofTimeout s
def execUsbInPacket (s : State) := done usbInPacket s
def execSerConfig (c : Cmd) (s : State) := done (command 0x0700 mSerConfig c) s
def execSerSend (c : Cmd) (s : State) := done (command 0x0701 mSerSend c) s
def execUsbEnable (c : Cmd) (s : State) := done (command 0x0702 mUsbEnable c) s
def execUsbSendMidi (c : Cmd) (s : State) := done (command 0x0703 mUsbSendMidi c) s
def execSerUsbStatus (c : Cmd) (s : State) := done (command 0x0704 mSerUsbStatus c) s

end Sys2Proof.Machine
end

