-- ==== Sys2Proof/Machine/Compare.lean ====
section
/-! DEFINITION. Matches of the Tide compares: strobes, posts and pin actions (10 R374 to R382, R390). -/

namespace Sys2Proof.Machine

/-- A channel's strobe line pulses: the groups that it loads (R375, R473). -/
def strobeTide (n : Nat) (b : Block) : Block :=
  forN 4 (fun g b =>
    if b.rd (fDAC_GRP_SRC.at g) = 1 ∧ b.rd (fDAC_GRP_TIDE_CH.at g) = n then strobeGroup g b else b) b

/-- The record that a channel posts (R380): TIDE_POSTn with 0xF1 over its PORT byte. -/
def postRecord (b : Block) (n : Nat) : EventRecord :=
  { recordOf ((List.range 6).flatMap (fun i => toLE 4 (b.word (rTIDE_POST + 0x20 * n + 4 * i)))) with port := 0xF1 }

/-- A channel's post buffer holds a record. -/
def postHeld (b : Block) (n : Nat) : Bool := b.tide.postBuf.any (fun e => e.1 == n)

/-- A channel posts its record (R380, R381): it enters, waits in the buffer, or is dropped where the buffer is occupied. -/
def post (n : Nat) (b : Block) : Block :=
  if postHeld b n then b.countUp fTIDE_POST_DROP_COUNT 1
  else
    let r := postRecord b n
    match offer r b.now b with
    | (true, b) => b
    | (false, b) => { b with tide := { b.tide with postBuf := b.tide.postBuf ++ [(n, recordBytes r, b.now)] } }

/-- A channel offers the record in its buffer again (R605). -/
def admitPost (n : Nat) (b : Block) : Block :=
  match b.tide.postBuf.find? (fun e => e.1 == n) with
  | none => b
  | some e =>
    match offer (recordOf e.2.1) e.2.2 b with
    | (true, b) => { b with tide := { b.tide with postBuf := b.tide.postBuf.filter (fun k => k.1 != n) } }
    | (false, b) => b

/-- Channel n matches in this tick (R375). -/
def matchNow (n : Nat) (b : Block) : Block :=
  let v := cmpV b n
  let b := b.raise (evTIDE_CMP n)
  let per := b.rd (fTIDE_CMP_PER_PER.at n)
  let b := if per = 0 then b.wr (fTIDE_CMP_CTRL_EN.at n) 0 else b.setCmpV n ((v + per) % tideMod)
  let b := if b.flag (fTIDE_CMP_CTRL_STROBE.at n) then strobeTide n b else b
  let b := if b.flag (fTIDE_CMP_CTRL_POST.at n) then post n b else b
  pinAction n b

/-- A write has reached channel n in this tick: the comparator uses the new value from the following tick (R376). -/
def cmpFresh (b : Block) (n : Nat) : Bool := (cmpHeld b n).isSome

/-- A channel that a write has reached in this tick still matches by what it held before; the words written prevail over what the match
makes of them (R376). It matches once in a tick; true where it does. -/
def matchHeld (h : CmpHold) (b : Block) : Bool × Block :=
  let n := h.chan
  let own := cmpWords n b
  let old := setCmpWords n h.old b
  if !old.flag (fTIDE_CMP_CTRL_EN.at n) || cmpV old n != b.now then (false, b)
  else
    let b := matchNow n old
    let after := cmpWords n b
    let h' := { h with old := cmpWords n (old.wr (fTIDE_CMP_CTRL_EN.at n) 0) }
    let b := setCmpWords n ((List.range 4).map (fun i => if h.fresh.contains i then nth 0 own i else nth 0 after i)) b
    (true, { b with tide := { b.tide with cmpHold := b.tide.cmpHold.map (fun k => if k = h then h' else k) } })

/-- TIDE_CMP (R374 to R377): the count comes to V of an enabled channel, and the channel matches. -/
def tideCmp (n : Nat) (b : Block) : Block :=
  let v := cmpV b n
  if !b.tideRuns then b
  else
    match cmpHeld b n with
    | some h =>
      let (matched, b) := matchHeld h b
      if matched || !b.flag (fTIDE_CMP_CTRL_EN.at n) || v == b.now then b else matchNow n (b.advanceTo v)
    | none =>
      if !b.flag (fTIDE_CMP_CTRL_EN.at n) then b else matchNow n (if v = b.now then b else b.advanceTo v)

def execTideCmp (n : Nat) (s : State) := doneIf (Instr.wf (.tideCmp n)) (tideCmp n) s

end Sys2Proof.Machine
end

