-- ==== Sys2Proof/Machine/SlateTest.lean ====
section
/-! DEFINITION. Owner changes, background test slices and the fuse loader (09 R346, R357 to R362; 17 R560, R561). -/

namespace Sys2Proof.Machine

/-- OWNER_CHANGE (R346, R356): a bank that awaits a new owner at once takes it; a borrowed bank keeps its owner until the
release. -/
def ownerChange (bank : Nat) (b : Block) : Block :=
  if ownerPends b bank && !b.flag (fSLATE_OWNER_AT_BOUNDARY.at bank) && !borrowed b bank then
    checkBuild (checkEscort (applyOwner bank b))
  else b

/-- The owners that take effect at a boundary (R346). -/
def ownersAtBoundary (b : Block) : Block :=
  checkBuild (checkEscort (forN 64 (fun k b =>
    if ownerPends b k && b.flag (fSLATE_OWNER_AT_BOUNDARY.at k) then ownerDue k b else b) b))

/-- Background test may borrow a bank (R359): not pinned, not HOST's, and neither NONE nor DISABLED. -/
def mayBorrow (b : Block) (bank : Nat) : Bool :=
  !bit (b.word64 rSLATE_PINNED) bank && b.owner bank != rqHOST && b.owner bank != 0 && b.owner bank != rqDISABLED

/-- Memory BIST runs (R560). -/
def memoryBist (b : Block) : Bool :=
  match b.tst.bist with
  | some t => bit t.targets 16 || bit t.targets 17 || bit t.targets 18
  | none => false

/-- A 16-bit field of TEST_BG_STAT advances and sticks (R572, R580). -/
def bgCount (f : Fld) (b : Block) : Block :=
  let v := b.rd f
  if 65535 ≤ v then b else (b.wr f (v + 1)).raiseIf (decide (v + 1 = 65535)) evHISTO_SAT

/-- The first eligible place at or after bgNext, bank by bank in ascending order (R560): a bank that is not eligible is
skipped whole, and a pass over bank 63 ends a sweep. At most 65 banks are looked at. -/
def nextSlice : Nat → Block → Option (Nat × Nat) × Block
  | 0, b => (none, b)
  | n + 1, b =>
    let (k, s) := b.slate.bgNext
    if 64 ≤ k then nextSlice n (bgCount fTEST_BG_STAT_SWEEPS { b with slate := { b.slate with bgNext := (0, 0) } })
    else if mayBorrow b k then (some (k, s), b)
    else nextSlice n { b with slate := { b.slate with bgNext := (k + 1, 0) } }

/-- The words of a slice in which bits have flipped. -/
def hurtInSlice (k s : Nat) (b : Block) : List Nat :=
  (b.slate.hurt.map (·.1)).filter (fun w => decide (k * 2 ^ 16 + s * 32 ≤ w) && decide (w < k * 2 ^ 16 + s * 32 + 32))

/-- The save read of a slice meets its errors (R348, R561). -/
def saveSlice (k s : Nat) (b : Block) : Block := forL (hurtInSlice k s b) (fun w b => checkMerge (8 * w) b) b

/-- The words saved are restored (R561): corrected for a single-bit error, as stored otherwise. -/
def restoreSlice (k s : Nat) (b : Block) : Block :=
  forL (hurtInSlice k s b) (fun w b => if eccOf b w == .single then rewriteWord b w else b) b

/-- BG_SLICE_START (R357, R358, R560, R561): a slice of an eligible bank begins, and its bank is borrowed. -/
def bgSliceStart (b : Block) : Block :=
  if b.flag fTEST_BG_CFG_EN && b.flag fSLATE_STAT_FUSE_DONE && !b.flag fSLATE_STAT_BORROW_ACTIVE && !memoryBist b && b.on dCORE then
    match nextSlice 65 b with
    | (some (k, s), b) =>
      let b := saveSlice k s { b with slate := { b.slate with slice := some (k, s) } }
      (b.wr fSLATE_STAT_BORROW_ACTIVE 1).wr fSLATE_STAT_BORROW_BANK k
    | (none, _) => b
  else b

/-- A slice read back a wrong value (R561). -/
def bgFault (bank slice : Nat) (b : Block) : Block :=
  let b := if b.flag fTEST_BG_FAULT_VALID then b
    else ((b.wr fTEST_BG_FAULT_VALID 1).wr fTEST_BG_FAULT_BANK bank).wr fTEST_BG_FAULT_SLICE slice
  (bgCount fTEST_BG_STAT_BG_FAULTS b).raise evBIST_FAIL

/-- BG_SLICE_RELEASE (R346, R357, R358, R560, R561): the slice ends with its words restored, and the bank is free again; a
new owner that waited for the release takes effect. -/
def bgSliceRelease (failed : Bool) (b : Block) : Block :=
  match b.slate.slice with
  | none => b
  | some (k, s) =>
    let b := restoreSlice k s b
    let b := { b with slate := { b.slate with slice := none, bgNext := if s = 2047 then (k + 1, 0) else (k, s + 1) } }.wr
      fSLATE_STAT_BORROW_ACTIVE 0
    let b := if k = 63 ∧ s = 2047 then
        bgCount fTEST_BG_STAT_SWEEPS { b with slate := { b.slate with bgNext := (0, 0) } }
      else b
    let b := if failed then bgFault k s b else b
    if b.slate.ripe.contains k then
      checkBuild (checkEscort (applyOwner k { b with slate := { b.slate with ripe := b.slate.ripe.filter (· != k) } }))
    else ownerChange k b

/-- A reset during a slice leaves its 32 words undefined (R360): each storage word takes a free value. -/
def tearSlice (b : Block) : Block :=
  match b.slate.slice with
  | none => b
  | some (k, s) =>
    let b := forN 64 (fun i b =>
      let (w, b) := b.freshWord
      { b with slate := { b.slate with mem := smWriteAll (fun _ => 0) b.slate.mem (k * 2 ^ 19 + s * 256 + 4 * i) (toLE 4 w)
                                       hurt := smErase b.slate.hurt (k * 2 ^ 16 + s * 32 + i / 2) } }) b
    { b with slate := { b.slate with slice := none } }

/-- A number held in fuses, a free value fixed for the part (notes/assumptions/2.md): which fused field, low byte first. -/
def fused (field n : Nat) : Nat := ofLE ((List.range n).map (fun i => Config.freeByte (256 + field) i))

/-- The fused fields (HIF_REV.ROM_VER, CPR_IRC_TRIM, USB_ID, the network addresses) read their fuses once these are loaded.
No bank is disabled on a shipped part (R347). -/
def applyFuses (b : Block) : Block :=
  let b := ((b.wr fHIF_REV_ROM_VER (fused 0 1)).wr fUSB_ID_PID (fused 2 2)).wr fUSB_ID_VID (fused 3 2)
  forN 2 (fun n b => (b.wr (fNET_MAC_LO_ADDR_LO.at n) (fused (4 + 2 * n) 4)).wr (fNET_MAC_HI_ADDR_HI.at n) (fused (5 + 2 * n) 2)) b

/-- Entry i of the fuse map, 24 bits (R361). -/
def fuseEntry (i : Nat) : Nat := ofLE ((List.range 3).map (fun k => Config.freeByte (256 + 20) (3 * i + k)))

/-- The CRC-32C that the fuse map holds over its 256 entries (R361, R66). -/
def fuseMapCrc : Nat := fused 21 4

/-- The CRC of the map fails (R362). -/
def fuseMapBad : Bool := crc32c ((List.range 768).map (Config.freeByte (256 + 20))) != fuseMapCrc

/-- The columns that the valid entries name: bank, sub-array, spare, column (R361). -/
def fuseRepairs : List (Nat × Nat × Nat × Nat) :=
  (((List.range 256).map fuseEntry).filter (fun e => bit e 23)).map (fun e =>
    (bitsOf e 22 17, bitsOf e 16 14, bitsOf e 13 12, bitsOf e 6 0))

/-- FUSE_LOAD_DONE (R362): the valid entries' columns are steered to their spares, or none where the CRC fails. CORE may then
leave reset (R545). -/
def fuseLoadDone (b : Block) : Block :=
  if b.pwr.porn || b.pwr.fusesLoaded || !proven b 0 then b
  else
    let b := (applyFuses { b with pwr := { b.pwr with fusesLoaded := true } }).wr fCPR_IRC_TRIM_TRIM (fused 1 1)
    let b := b.wr fSLATE_STAT_FUSE_DONE 1
    coreStart (if fuseMapBad then (b.wr fSLATE_STAT_FUSE_BAD 1).raise evFUSE_MAP_BAD
      else { b with slate := { b.slate with steered := fuseRepairs } })

def execOwnerChange (bank : Nat) (s : State) := doneIf (Instr.wf (.ownerChange bank)) (ownerChange bank) s
def execBgSliceStart (s : State) := done bgSliceStart s
def execBgSliceRelease (failed : Bool) (s : State) := done (bgSliceRelease failed) s
def execFuseLoadDone (s : State) := done fuseLoadDone s

end Sys2Proof.Machine
end

