-- ==== Sys2Proof/Machine/Crypto.lean ====
section
/-! DEFINITION. SHA-256 and the ECDSA P-256 check that images and JTAG responses must pass (16 R548, R549; 17 R571). The spec
names both by their standards, and the constants are theirs (notes/assumptions/21.md, PRESUMED). Numbers of 32 bytes are read
as R7 lays down. -/

namespace Sys2Proof.Machine

/-- The greatest r below 2^n whose k-th power is at most x, found bit by bit from the top; r holds the bits already found. -/
def rootFrom (k x : Nat) : Nat → Nat → Nat
  | 0, r => r
  | n + 1, r => rootFrom k x n (if (r + 2 ^ n) ^ k ≤ x then r + 2 ^ n else r)

/-- The first 32 bits behind the binary point of the k-th root of a number below 2^12. -/
def rootBits (k p : Nat) : Nat := rootFrom k (p * 2 ^ (32 * k)) 38 0 % 2 ^ 32

/-- The primes up to 311, the 64th. -/
def shaPrimes : List Nat :=
  (List.range 312).filter (fun p => decide (2 ≤ p) && (List.range 18).all (fun d => d < 2 || p ≤ d || p % d != 0))

/-- The standard takes its round constants from the cube roots of the first 64 primes … -/
def shaK : List Nat := shaPrimes.map (rootBits 3)

/-- … and its initial hash value from the square roots of the first eight. -/
def shaInit : List Nat := (shaPrimes.take 8).map (rootBits 2)

def rotr (n x : Nat) : Nat := x / 2 ^ n + x % 2 ^ n * 2 ^ (32 - n)

def shaSmall0 (x : Nat) : Nat := Nat.xor (Nat.xor (rotr 7 x) (rotr 18 x)) (x / 2 ^ 3)
def shaSmall1 (x : Nat) : Nat := Nat.xor (Nat.xor (rotr 17 x) (rotr 19 x)) (x / 2 ^ 10)
def shaBig0 (x : Nat) : Nat := Nat.xor (Nat.xor (rotr 2 x) (rotr 13 x)) (rotr 22 x)
def shaBig1 (x : Nat) : Nat := Nat.xor (Nat.xor (rotr 6 x) (rotr 11 x)) (rotr 25 x)

/-- The message schedule of a block: n more words, each from the sixteen before it (held newest first). -/
def shaSchedule : Nat → List Nat → List Nat
  | 0, w => w
  | n + 1, w =>
    shaSchedule n ((shaSmall1 (nth 0 w 1) + nth 0 w 6 + shaSmall0 (nth 0 w 14) + nth 0 w 15) % 2 ^ 32 :: w)

/-- One round on the eight working values. -/
def shaRound (h : List Nat) (k w : Nat) : List Nat :=
  let e := nth 0 h 4
  let a := nth 0 h 0
  let ch := Nat.xor (Nat.land e (nth 0 h 5)) (Nat.land (2 ^ 32 - 1 - e) (nth 0 h 6))
  let t1 := nth 0 h 7 + shaBig1 e + ch + k + w
  let maj := Nat.xor (Nat.xor (Nat.land a (nth 0 h 1)) (Nat.land a (nth 0 h 2))) (Nat.land (nth 0 h 1) (nth 0 h 2))
  [(t1 + shaBig0 a + maj) % 2 ^ 32, a, nth 0 h 1, nth 0 h 2, (nth 0 h 3 + t1) % 2 ^ 32, e, nth 0 h 5, nth 0 h 6]

/-- The number that bytes spell, most significant first. -/
def ofBE (bs : List Byte) : Nat := bs.foldl (fun a x => a * 256 + x.toNat) 0

/-- One block of 64 bytes. -/
def shaBlock (h : List Nat) (bs : List Byte) : List Nat :=
  let w := (List.range 16).map (fun i => ofBE ((bs.drop (4 * i)).take 4))
  let ws := (shaSchedule 48 w.reverse).reverse
  (h.zip ((shaK.zip ws).foldl (fun a kw => shaRound a kw.1 kw.2) h)).map (fun p => (p.1 + p.2) % 2 ^ 32)

/-- The blocks of a padded message. -/
def shaBlocks : Nat → List Nat → List Byte → List Nat
  | 0, h, _ => h
  | n + 1, h, bs => shaBlocks n (shaBlock h (bs.take 64)) (bs.drop 64)

/-- SHA-256, 32 bytes. -/
def sha256 (bs : List Byte) : List Byte :=
  let zeros := (119 - bs.length % 64) % 64
  let m := bs ++ [0x80] ++ List.replicate zeros 0 ++ (toLE 8 (8 * bs.length)).reverse
  (shaBlocks (m.length / 64) shaInit m).flatMap (fun x => (toLE 4 x).reverse)

/-! ### ECDSA P-256 -/

def p256P : Nat := 0xFFFFFFFF00000001000000000000000000000000FFFFFFFFFFFFFFFFFFFFFFFF
def p256N : Nat := 0xFFFFFFFF00000000FFFFFFFFFFFFFFFFBCE6FAADA7179E84F3B9CAC2FC632551
def p256B : Nat := 0x5AC635D8AA3A93E7B3EBBD55769886BC651D06B0CC53B0F63BCE3C3E27D2604B
def p256G : Nat × Nat :=
  (0x6B17D1F2E12C4247F8BCE6E563A440F277037D812DEB33A0F4A13945D898C296,
   0x4FE342E2FE1A7F9B8EE7EB4A7C0F9E162BCE33576B315ECECBB6406837BF51F5)

/-- x to the power e modulo m, e below 2^n. -/
def powMod : Nat → Nat → Nat → Nat → Nat
  | 0, _, _, _ => 1
  | n + 1, x, e, m => let r := powMod n (x * x % m) (e / 2) m; if e % 2 = 1 then r * x % m else r

/-- The inverse modulo a prime. -/
def invMod (x m : Nat) : Nat := powMod 256 (x % m) (m - 2) m

/-- A point in Jacobian coordinates; z 0 is the point at infinity. -/
structure P256 where
  x : Nat
  y : Nat
  z : Nat
  deriving DecidableEq, Repr

def subP (a b : Nat) : Nat := (a + p256P - b % p256P) % p256P

def P256.double (a : P256) : P256 :=
  let p := p256P
  let s := 4 * a.x * (a.y * a.y % p) % p
  let z2 := a.z * a.z % p
  let m := 3 * (subP a.x z2) * (a.x + z2) % p
  let x := subP (m * m) (2 * s)
  { x := x, y := subP (m * subP s x) (8 * (a.y * a.y % p) * (a.y * a.y % p)), z := 2 * a.y * a.z % p }

def P256.add (a b : P256) : P256 :=
  if a.z = 0 then b
  else if b.z = 0 then a
  else
    let p := p256P
    let z1 := a.z * a.z % p
    let z2 := b.z * b.z % p
    let u1 := a.x * z2 % p
    let u2 := b.x * z1 % p
    let s1 := a.y * z2 * b.z % p
    let s2 := b.y * z1 * a.z % p
    if u1 = u2 then (if s1 = s2 then a.double else ⟨1, 1, 0⟩)
    else
      let h := subP u2 u1
      let r := subP s2 s1
      let h2 := h * h % p
      let h3 := h * h2 % p
      let x := subP (subP (r * r) h3) (2 * u1 * h2)
      { x := x, y := subP (r * subP (u1 * h2) x) (s1 * h3), z := h * a.z * b.z % p }

/-- k times a point, k below 2^n. -/
def P256.times : Nat → Nat → P256 → P256
  | 0, _, _ => ⟨1, 1, 0⟩
  | n + 1, k, a => let r := P256.times n (k / 2) a.double; if k % 2 = 1 then r.add a else r

/-- ECDSA P-256: (r, s) is a signature of a message under the public key (x, y). -/
def ecdsaOk (x y r s : Nat) (msg : List Byte) : Bool :=
  if r = 0 || s = 0 || p256N ≤ r || p256N ≤ s || p256P ≤ x || p256P ≤ y then false
  else if y * y % p256P != (x * x % p256P * x + (p256P - 3) * x + p256B) % p256P then false
  else
    let e := ofBE (sha256 msg)
    let w := invMod s p256N
    let q := (P256.times 256 (e * w % p256N) ⟨p256G.1, p256G.2, 1⟩).add (P256.times 256 (r * w % p256N) ⟨x, y, 1⟩)
    if q.z = 0 then false
    else
      let zi := invMod q.z p256P
      decide (q.x * (zi * zi % p256P) % p256P % p256N = r)

/-- A signature of 64 bytes, r then s, of a message under a key of 64 bytes, x then y. -/
def signedBy (key sig msg : List Byte) : Bool := ecdsaOk (leAt key 0 32) (leAt key 32 32) (leAt sig 0 32) (leAt sig 32 32) msg

/-- The fused hash of the signing key (R549) and of the unlock key (R571), 32 bytes each. -/
def fusedHash (field : Nat) : List Byte := (List.range 32).map (Config.freeByte (512 + field))

def bootKeyHash : List Byte := fusedHash 0
def unlockKeyHash : List Byte := fusedHash 1

end Sys2Proof.Machine
end

