-- ==== Sys2Proof/Machine/Domain.lean ====
section
/-! DEFINITION. What each power domain holds, and what it reads after its reset (16 R527 to R529). Registers of the host
address map lie in CORE and keep their values; what reports live state of a function that is off reads 0. -/

namespace Sys2Proof.Machine

/-- The voices of some lanes are cleared, every seat to FREE (R528). -/
def clearVoices (lanes : Nat → Bool) (b : Block) : Block :=
  let gone := (b.voices.filter (fun e => lanes (laneOf e.1))).map (·.1)
  let b := forL gone (fun v b => closeVoiceSlots b v) b
  let b := { b with
    voices := b.voices.filter (fun e => !lanes (laneOf e.1))
    lanes := b.lanes.mapIdx (fun l x => if lanes l then Lane.reset else x)
    sched := { b.sched with
      handoffs := b.sched.handoffs.filter (fun h => !lanes (laneOf h.victim) && !lanes (laneOf h.reserve)) } }
  finishSwaps b

/-- EVT: event cores, rolls, timetables, bell, channel banks, parsers (R179, R527). The registers of CORE stay: the rules in effect,
a trace that has stopped with EN still 1 (R208), and the swaps whose seats are not yet FREE (R215). -/
def clearEvt (b : Block) : Block :=
  { b with
    sched := { Sched.reset with
      rampOrder := b.sched.rampOrder, rules := b.sched.rules, arrivals := b.sched.arrivals, traceStopped := b.sched.traceStopped
      swaps := b.sched.swaps }
    glob := { b.glob with banks := [], banksL := [] }
    pwr := { b.pwr with wake := [] }
    ser := b.ser.map (fun s => { s with run := none, msg := none, sense := false })
    tide := { b.tide with bellFrom := b.now, releasing := false } }

/-- BDSP: core registers and memories; the returns are zero while it is off. RUN keeps its value. -/
def clearBdsp (b : Block) : Block :=
  let b := { b with bdsp := b.bdsp.map (fun g => { Gralon.reset with irqOwed := g.irqOwed }) }
  forN 4 (fun c b => forN 2 (fun i b => b.setWord (rBDSP_CTL + 0x1000 * c + 4 * i) 0) (zeroReturns c b)) b

/-- TBLD: builds under way and waiting end FAILED with DOMAIN_OFF (notes/assumptions/22.md, DESIGN CHOICE). -/
def clearTbld (b : Block) : Block :=
  let all := b.store.running.toList ++ b.store.builds
  let b := b.raiseIf b.store.running.isSome evTBL_BUILD_FAIL
  let b := noteBuilder { b with store := { b.store with running := none, builds := [] } }
  forL all (fun k b => b.finish k.tok k.stamp false (failedWith .domainOff [])) b

/-- MEM: LPDDR5 keeps its contents in self-refresh and must be trained again (R528); a build from it fails (R227). -/
def clearMem (b : Block) : Block :=
  checkBuild ({ b with pwr := { b.pwr with training := false } }.wr fSTRM_LIB_STAT_LPDDR_TRAINED 0)

/-- AIO: port shifters, S/PDIF receiver, rate converter. The recovered clock is lost with the receiver. -/
def clearAio (b : Block) : Block :=
  let b := ((b.wr fSPDIF_IN_STAT_LOCK 0).wr fSPDIF_IN_STAT_NON_PCM 0).wr fASRC_STAT_LOCK 0
  let b := { b with aout := { Aout.reset with dacs := b.aout.dacs } }
  if b.clk.spdifClock then sourceFail 4 b else b

/-- DACA: the switches are open (R476). -/
def clearDaca (b : Block) : Block :=
  let b := { b with aout := { b.aout with dacs := List.replicate 8 { Dac.reset with enAt := b.now } } }
  forN 8 (fun n b => (b.wr (fDAC_STAT_CONNECTED.at n) 0).wr (fDAC_STAT_RANGE_BUSY.at n) 0) b

/-- COMM: serial FIFOs, the network ports and USB. -/
def clearComm (b : Block) : Block :=
  let b := { b with ser := b.ser.map (fun s => { Ser.reset with run := s.run, msg := s.msg, sense := s.sense, owed := s.owed }) }
  let b := forN 5 (fun n b => (b.wr (fSER_STAT_TX_PAUSED.at n) 0).wr (fSER_STAT_XOFF_SENT.at n) 0) b
  let b := forN 2 (fun n b =>
    let b := match (b.netPort n).listen with
      | some (tok, stamp, _) => b.finish tok stamp false cancelled
      | none => b
    setLink n false (((b.modNet n (fun _ => NetPort.reset)).wr (fNET_STAT_MAC_MODE.at n) 0).wr (fNET_STAT_COORD.at n) 0)) b
  let b := (loseLock { b with ptp := Ptp.reset }).wr fNET_PTP_STAT_ANCHORED 0
  usbDisabled { b with usb := Usb.reset }

/-- FERRY: the link and its frames; FERRY_DELTA lies in CORE (R501). -/
def clearFerry (b : Block) : Block :=
  { b with fry := { b.fry with
    seq := 0, sent := [], queue := [], plan := [], copyBanks := [], replays := 0, credits := 256, peer := none, missed := 0
    journaling := false, journal := [] } }.wr
    fFERRY_STAT_PEER_STATE 0

/-- A domain's function state takes its reset value (R528). -/
def clearDomain (d : Nat) (b : Block) : Block :=
  match d with
  | 2 => clearEvt b
  | 3 | 4 | 5 | 6 => clearVoices (fun l => l / 4 == d - 3) b
  | 7 => clearBdsp b
  | 8 => clearTbld b
  | 9 => clearMem b
  | 10 => clearAio b
  | 11 => clearDaca b
  | 12 => clearComm b
  | 13 => clearFerry b
  | _ => b

/-- The domain that holds the function of a roll-called enable (R527); stream slots and class seating lie in CORE and EVT. -/
def enableDomain (a : Nat) : Option Nat :=
  match blockOf a with
  | 4 | 5 => some dCOMM
  | 6 => if a < 0x60200 then some dDACA else some dAIO
  | 7 => some dFERRY
  | 8 => some dEVT
  | 0xC => some dBDSP
  | 0xE => if a < 0xE0300 then some dEVT else some dAIO
  | _ => none

/-- A domain holds an enable of 1 (R552, R554). -/
def holdsEnable (b : Block) (d : Nat) : Bool := enableRegs.any (fun a => enabled b a && enableDomain a == some d)

/-- Domain d is switched on or off in CPR_PD_STAT. -/
def Block.setOn (b : Block) (d : Nat) (v : Bool) : Block := b.wr fCPR_PD_STAT_ON (putBits (b.rd fCPR_PD_STAT_ON) d d (b2n v))

end Sys2Proof.Machine
end

