-- ==== Sys2Proof/Machine/Health.lean ====
section
/-! DEFINITION. Self-test, monitors, snapshots, lane load and JTAG (17 R555 to R574; 10 R370). -/

namespace Sys2Proof.Machine

/-! ### BIST (R555 to R559) -/

/-- The targets of R555, in ascending bit order. -/
def bistTargets : List Nat := [0, 1, 2, 3, 4, 5, 6, 7, 8, 9, 16, 17, 18]

/-- The domain that a target tests, as a reset at switch-on reaches it (R555, R558). -/
def targetDomain (t : Nat) : Option Nat :=
  match t with
  | 0 => some 2 | 1 => some 3 | 2 => some 4 | 3 => some 5 | 4 => some 6 | 5 => some 7 | 6 => some 8 | 8 => some 12
  | 9 => some 10 | 18 => some 7 | _ => none

/-- A roll-called enable in a target's blocks reads 1 (R557); a lane or its state RAM serves the classes. -/
def targetBusy (b : Block) (t : Nat) : Bool :=
  match t with
  | 0 | 1 | 2 | 3 | 4 | 17 => anyClassEnabled b
  | 5 | 18 => holdsEnable b dBDSP
  | 7 => b.flag fSTRM_CTRL_ENABLE
  | 8 => holdsEnable b dCOMM
  | 9 => holdsEnable b dAIO || holdsEnable b dDACA
  | _ => false

/-- Memory of the mix bus, output matrix and stream engine returns to reset; registers and owners stay (R558). -/
def clearFabric (b : Block) : Block :=
  let b := forL b.store.slots (fun s b => closeSlot b s.id) b
  { b with mix := { b.mix with
    accL := List.replicate 16 0, accR := List.replicate 16 0, closed := List.replicate 32 0, ret := List.replicate 64 0
    words := List.replicate 82 0, before := List.replicate 82 0, handed := false } }

/-- What stays of a target that has been tested (R558): its domain reset, every tested memory word 0. -/
def afterTest (banks t : Nat) (b : Block) : Block :=
  match t with
  | 7 => clearFabric b
  | 16 => { b with slate := { b.slate with
      mem := b.slate.mem.filter (fun e => !bit banks (bankOf e.1))
      hurt := b.slate.hurt.filter (fun e => !bit banks (bankOf (8 * e.1)))
      writeBacks := b.slate.writeBacks.filter (fun w => !bit banks (bankOf w.1)) } }
  | 17 => clearVoices (fun _ => true) b
  | _ => match targetDomain t with
    | some d => clearDomain d b
    | none => b

def mBistStart : Meaning where
  chk p b :=
    let m := leAt p 0 4
    let ts := bistTargets.filter (bit m)
    if Nat.land m (2 ^ 32 - 1 - 0x703FF) ≠ 0 then some .badField
    else if b.mode ≠ mSELFTEST then some .notInMode
    else if ts.any (targetBusy b) || b.flag fFERRY_CTRL_EN || b.tst.bist.isSome then some .testRequiresQuiet
    else if bit m 16 && (banksIn (leAt p 4 8)).any (fun k =>
        b.owner k == rqPROCTOR || b.owner k == rqEVT || b.owner k == rqCOMMONS) then some .regionNotOwned
    else none
  eff tok stamp p b :=
    let b := { b with tst := { b.tst with
      bist := some { tok := tok, stamp := stamp, targets := leAt p 0 4, banks := leAt p 4 8 } } }
    (.later, (b.wr fTEST_BIST_STAT_VALID 0).wr fTEST_BIST_STAT_BUSY 1)

/-- TEST_MBIST_ADDR captures the first failing word (R556); which word it is, is left open. -/
def captureWord (fail : Nat) (b : Block) : Block :=
  match [16, 17, 18].find? (bit fail) with
  | some t =>
    if b.flag fTEST_MBIST_ADDR_VALID then b
    else
      let (k, b) := b.fresh 556
      ((b.wr fTEST_MBIST_ADDR_VALID 1).wr fTEST_MBIST_ADDR_MEM (t - 16)).wr fTEST_MBIST_ADDR_OFFSET k
  | none => b

/-- The signature that the boot ROM holds for a target and a revision (R556), a free value fixed for the part. -/
def romSignature (rev t : Nat) : Nat := ofLE ((List.range 4).map (fun i => Config.freeByte (1024 + 16 * rev + t) i))

/-- The signature of a logic target tested (R556): that of the boot ROM where it passes, any other where it fails. -/
def signature (passes : Bool) (t : Nat) (b : Block) : Block :=
  let good := romSignature (b.rd fHIF_REV_REV) t
  if passes then b.wr (fTEST_BIST_SIG_SIG.at t) good
  else
    let (k, b) := b.freshWord
    b.wr (fTEST_BIST_SIG_SIG.at t) (if k = good then Nat.xor k 1 else k)

/-- The masks of targets that have passed and failed (R555, R572). -/
def setVerdicts (pass fail : Nat) (b : Block) : Block :=
  (b.wr (fTEST_BIST_RES_TARGETS.at 0) pass).wr (fTEST_BIST_RES_TARGETS.at 1) fail

/-- BIST_DONE (R556 to R558): masks, signatures and the reply. -/
def bistDone (failing : Word) (b : Block) : Block :=
  match b.tst.bist with
  | none => b
  | some r =>
    let fail := Nat.land r.targets failing.toNat
    let pass := r.targets - fail
    let b := forL (bistTargets.filter (bit r.targets)) (fun t b =>
      let b := afterTest r.banks t b
      if t < 10 then signature (bit pass t) t b else b)
      { b with tst := { b.tst with bist := none } }
    let b := ((captureWord fail (setVerdicts pass fail b)).wr fTEST_BIST_STAT_BUSY 0).wr fTEST_BIST_STAT_VALID 1
    ((b.raise evBIST_DONE).raiseIf (fail != 0) evBIST_FAIL).finish r.tok r.stamp false (ok (toLE 4 pass ++ toLE 4 fail))

/-- CANCEL_COMMANDS stops BIST (R559): targets tested and the one in progress, which gets no verdict, are reset; how far the run had
come, and what it had found, is left open. -/
def bistCancel (b : Block) : Block :=
  match b.tst.bist with
  | none => b
  | some r =>
    let ts := bistTargets.filter (bit r.targets)
    let (k, b) := b.fresh 559
    let begun := ts.take (k % (ts.length + 1))
    let (found, b) := b.freshWord
    let judged := begun.dropLast.foldl (fun m t => m + 2 ^ t) 0
    let b := forL begun (afterTest r.banks) { b with tst := { b.tst with bist := none } }
    let b := setVerdicts (judged - Nat.land judged found) (Nat.land judged found) b
    (b.wr fTEST_BIST_STAT_BUSY 0).finish r.tok r.stamp false cancelled

def mBistResult : Meaning := plain (fun _ b =>
  (ok (words4 b ([rTEST_BIST_STAT, rTEST_BIST_RES, rTEST_BIST_RES + 4, rTEST_MBIST_ADDR] ++
    (List.range 10).map (fun t => rTEST_BIST_SIG + 4 * t))), b))

def mBgTestSet : Meaning where
  chk p _ := if regWordOk rTEST_BG_CFG (leAt p 0 4) then none else some .badField
  eff _ _ p b := (ok [], b.put rTEST_BG_CFG (leAt p 0 4))

/-! ### Monitors (R562 to R568) -/

/-- The CFG register of a monitor; THRESH at +4, BASE at +0x14. -/
def monCfg (m : Nat) : Nat := 0xE0200 + 0x20 * m

/-- A write of a monitor's CFG, THRESH or BASE: ignored while EN is 1 (R568). -/
def writeMon (m a v : Nat) (b : Block) : Block := if enabled b (monCfg m) then b else b.put a (if a = monCfg m then putBits v 31 31 0 else v)

/-- The checks of a monitor's EN (R568). -/
def checkMon (m : Nat) (b : Block) : Option Reason :=
  if b.on (if m < 8 then dEVT else dAIO) then none else some .domainOff

/-- EN of a level monitor rises: its window and its run start afresh. -/
def monRises (m : Nat) (b : Block) : Block :=
  if m < 8 then b else { b with tst := { b.tst with level := b.tst.level.set (m - 8) LevelRun.reset } }

def mMonConfig : Meaning where
  chk p b :=
    let m := leAt p 0 1
    if 24 ≤ m || !regWordOk (monCfg m) (leAt p 4 4) || !regWordOk (monCfg m + 4) (leAt p 8 4) ||
        (decide (8 ≤ m) && leAt p 12 4 != 0) then some .badField
    else if enabled b (monCfg m) then some .monitorBusy
    else none
  eff tok stamp p b :=
    let m := leAt p 0 1
    let a := monCfg m
    let b' := writeMon m a (leAt p 4 4) (writeMon m (a + 4) (leAt p 8 4) b)
    let b' := if m < 8 then writeMon m (a + 0x14) (leAt p 12 4) b' else b'
    if bit (leAt p 4 4) 31 then enableByCommand a tok stamp b [a, a + 4, a + 0x14] b' else (ok [], clearEnable a b')

/-- The bin of a peak (R564). -/
def levelBin (m : Nat) : Nat :=
  if m < 2 ^ 15 then 63
  else
    let e := Nat.log2 m
    min 63 (4 * (30 - e) + (3 - bitsOf m (e - 1) (e - 2)))

/-- A sample enters a bin of a monitor (R563, R566). -/
def bumpBin (m bin : Nat) (b : Block) : Block :=
  let old := smGet (fun _ => 0) b.tst.bins (m * 64 + bin)
  let bins := smSet (fun _ => 0) b.tst.bins (m * 64 + bin) (min (old + 1) (2 ^ 32 - 1))
  { b with tst := { b.tst with bins := bins } }.raiseIf (old + 1 == 2 ^ 32 - 1) evHISTO_SAT

/-- Whether a window's bin meets a level monitor's condition (R565). -/
def levelMet (b : Block) (i bin : Nat) : Bool :=
  if b.flag (fMON_CFG_LEV_COND.at i) then decide (b.rd (fMON_THRESH_LEV_BIN.at i) ≤ bin)
  else decide (bin ≤ b.rd (fMON_THRESH_LEV_BIN.at i))

/-- The run of windows of level monitor i, counted from 8 (R565). -/
def levelRun (i bin run : Nat) (b : Block) : Block :=
  let n := if levelMet b i bin then run + 1 else 0
  let hit := levelMet b i bin && decide (b.rd (fMON_THRESH_LEV_RUN.at i) ≤ n)
  let r : LevelRun := { n := 0, peak := 0, run := if hit then 0 else n }
  let b := { b with tst := { b.tst with level := b.tst.level.set i r } }
  if hit then (b.wr fTEST_LEVEL_HIT_HIT (Nat.lor (b.rd fTEST_LEVEL_HIT_HIT) (2 ^ i))).raise evLEVEL_MON_THRESH else b

/-- A level monitor's window ends (R564, R565). -/
def levelWindow (m peak run : Nat) (b : Block) : Block :=
  let bin := levelBin peak
  let b := b.wr (fMON_MIN_VALUE.at m) (min bin (b.rd (fMON_MIN_VALUE.at m)))
  let b := b.wr (fMON_MAX_VALUE.at m) (max bin (b.rd (fMON_MAX_VALUE.at m)))
  levelRun (m - 8) bin run (bumpBin m bin (b.countUp (fMON_COUNT_COUNT.at m) 1))

/-- The level monitors see the port words of a boundary (R564). -/
def levelBoundary (b : Block) : Block :=
  forN 16 (fun i b =>
    if b.flag (fMON_CFG_LEV_EN.at i) && b.on dAIO then
      let r := nth LevelRun.reset b.tst.level i
      let w := nth 0 b.mix.words (b.rd (fMON_CFG_LEV_CHANNEL.at i))
      let peak := max r.peak (min w.natAbs (2 ^ 31 - 1))
      if b.rd (fMON_CFG_LEV_WINDOW.at i) ≤ r.n + 1 then levelWindow (8 + i) peak r.run b
      else { b with tst := { b.tst with level := b.tst.level.set i { r with n := r.n + 1, peak := peak } } }
    else b) b

/-- A word of a monitor's snapshot. -/
def snapWord (m i : Nat) : Nat := rTEST_SNAP_WORD + 0x200 * m + 4 * i

/-- Copies a monitor's bins, MIN, MAX and COUNT into its snapshot, and clears the live values where asked (R567). -/
def snapshot (m : Nat) (clear : Bool) (b : Block) : Block :=
  let b := forN 64 (fun i b => b.setWord (snapWord m i) (smGet (fun _ => 0) b.tst.bins (m * 64 + i))) b
  let b := ((b.setWord (snapWord m 64) (b.rd (fMON_MIN_VALUE.at m))).setWord (snapWord m 65) (b.rd (fMON_MAX_VALUE.at m))).setWord
    (snapWord m 66) (b.rd (fMON_COUNT_COUNT.at m))
  if clear then
    let b := { b with tst := { b.tst with bins := b.tst.bins.filter (fun e => e.1 / 64 != m) } }
    ((b.wr (fMON_MIN_VALUE.at m) 0xFFFFFFFF).wr (fMON_MAX_VALUE.at m) 0).wr (fMON_COUNT_COUNT.at m) 0
  else b

/-- A write of TEST_SNAP (R567). -/
def writeSnap (v : Nat) (b : Block) : Block := forN 24 (fun m b => if bit v m then snapshot m (bit v 31) b else b) b

/-- MON_READ (R573): the clear acts in the snapshot that the command takes (notes/assumptions/23.md, DEDUCED). -/
def mMonRead : Meaning where
  chk p _ := if 24 ≤ leAt p 0 1 || 1 < leAt p 1 1 || 1 < leAt p 2 1 || 1 < leAt p 3 1 then some .badField else none
  eff _ _ p b :=
    let m := leAt p 0 1
    let b := if leAt p 2 1 = 1 then snapshot m (leAt p 3 1 == 1) b else b
    (ok (words4 b ([64, 65, 66].map (snapWord m) ++ (List.range 32).map (fun i => snapWord m (32 * leAt p 1 1 + i)))), b)

def mLaneLoad : Meaning := plain (fun _ b =>
  (ok (words4 b ((List.range 16).map (fun l => rTEST_LANE_LOAD + 8 * l) ++ (List.range 16).map (fun l => rTEST_LANE_SLACK + 8 * l))), b))

/-! ### JTAG (R570, R571, R574, R370) -/

/-- A fresh challenge (R571): 16 random bytes and the device identity. -/
def newChallenge (b : Block) : List Byte × Block :=
  let (w0, b) := b.freshWord
  let (w1, b) := b.freshWord
  let (w2, b) := b.freshWord
  let (w3, b) := b.freshWord
  let c := [w0, w1, w2, w3].flatMap (toLE 4) ++ (List.range 8).map (Config.freeByte 514)
  (c, { b with tst := { b.tst with challenge := some c } })

/-- A response to a challenge is right (R571). -/
def responseOk (challenge resp : List Byte) : Bool :=
  resp.length == 128 && sha256 (resp.take 64) == unlockKeyHash && signedBy (resp.take 64) (resp.drop 64) challenge

/-- An attempt to unlock the TAP consumes its challenge (R571); after three failures it fails without a check. The flag says
whether it succeeded. -/
def attempt (resp : List Byte) (b : Block) : Bool × Block :=
  match b.tst.challenge with
  | none => (false, b)
  | some c =>
    let b := { b with tst := { b.tst with challenge := none } }
    if b.flag fTEST_JTAG_STAT_BARRED then (false, b)
    else if responseOk c resp then (true, b.wr fTEST_JTAG_STAT_LOCKED 0)
    else
      let n := min 3 (b.rd fTEST_JTAG_STAT_FAILS + 1)
      (false, (b.wr fTEST_JTAG_STAT_FAILS n).wrB fTEST_JTAG_STAT_BARRED (n == 3))

def mJtagChallenge : Meaning := plain (fun _ b => let (c, b) := newChallenge b; (ok c, b))

def mJtagUnlock : Meaning where
  chk _ b := if b.tst.challenge.isNone then some .badField else none
  eff _ _ p b :=
    match attempt p b with
    | (true, b) => (ok [], b)
    | (false, b) => (refusedWith .unsignedImage, b)

/-- The TAP selects an instruction, with what its register shifts out. -/
def selectTap (ir : Nat) (dr : List Byte) (b : Block) : Block := { b with tst := { b.tst with ir := ir, dr := dr } }

/-- The instructions that a locked TAP does not offer select BYPASS (R570). -/
def tapLocked (b : Block) : Bool := b.flag fTEST_JTAG_STAT_LOCKED

def challenge (b : Block) : Block := let (c, b) := newChallenge b; selectTap 4 c b

def response (bytes : List Byte) (b : Block) : Block := selectTap 5 [] (attempt bytes b).2

def idcode (b : Block) : Block := selectTap 1 (toLE 4 0xB10248C3) b

def bypass (b : Block) : Block := selectTap 0 [] b

/-- SAMPLE/PRELOAD: the boundary register's layout is not stated, so nothing of it is shifted out here. -/
def samplePreload (b : Block) : Block := selectTap 2 [] b

def extest (b : Block) : Block := if tapLocked b then bypass b else selectTap 3 [] b

/-- TIDE_STAT.FROZEN follows the debug halt and DBG_FREEZE (R370). -/
def noteFrozen (b : Block) : Block := b.wrB fTIDE_STAT_FROZEN (b.tst.halted && b.flag fTIDE_CTRL_DBG_FREEZE)

/-- DEBUG_HALT (R370, R570). -/
def debugHalt (b : Block) : Block :=
  if tapLocked b then bypass b else noteFrozen (selectTap 6 [] { b with tst := { b.tst with halted := true } })

def debugHaltRelease (b : Block) : Block := noteFrozen { b with tst := { b.tst with halted := false } }

/-- A TAP instruction while the part is out of power-on reset. -/
def tap (f : Block → Block) (b : Block) : Block := if b.pwr.porn then b else f b

def execBistStart (c : Cmd) (s : State) := done (command 0x0D00 mBistStart c) s
def execBistDone (failing : Word) (s : State) := done (bistDone failing) s
def execBistResult (c : Cmd) (s : State) := done (command 0x0D01 mBistResult c) s
def execBgTestSet (c : Cmd) (s : State) := done (command 0x0D02 mBgTestSet c) s
def execMonConfig (c : Cmd) (s : State) := done (command 0x0D03 mMonConfig c) s
def execMonRead (c : Cmd) (s : State) := done (command 0x0D04 mMonRead c) s
def execLaneLoad (c : Cmd) (s : State) := done (command 0x0D05 mLaneLoad c) s
def execJtagChallenge (c : Cmd) (s : State) := done (command 0x0D06 mJtagChallenge c) s
def execJtagUnlock (c : Cmd) (s : State) := done (command 0x0D07 mJtagUnlock c) s
def execChallenge (s : State) := done (tap challenge) s
def execResponse (bytes : List Byte) (s : State) := done (tap (response bytes)) s
def execIdcode (s : State) := done (tap idcode) s
def execBypass (s : State) := done (tap bypass) s
def execSamplePreload (s : State) := done (tap samplePreload) s
def execExtest (s : State) := done (tap extest) s
def execDebugHalt (s : State) := done (tap debugHalt) s
def execDebugHaltRelease (s : State) := done (tap debugHaltRelease) s

end Sys2Proof.Machine
end

