-- ==== Sys2Proof/Machine/Abort.lean ====
section
/-! DEFINITION. The abort sequencer and the restart of the Proctor (02 R74 to R78, 15 R522). -/

namespace Sys2Proof.Machine

/-! ### SILENCE_VOICES and CLEAR_EVENTS -/

/-- A voice takes the four-sample ramp from its next render; one on the ramp already goes on with it (R74). -/
def Voice.silenced (x : Voice) : Voice := if x.st = 0 || x.silence.isSome then x else { x with silence := some 0 }

/-- SILENCE_VOICES starts (R74). A PENDING seat whose first window lies beyond the next boundary has nothing to ramp, and is freed at
once, so that R75 holds (DESIGN CHOICE, notes/assumptions/16.md). -/
def silenceAll (b : Block) : Block :=
  let ahead := b.voices.filter (fun e => e.2.st == 1 && !startCome b e.2 && e.2.start != b.nextBound)
  let b := forL ahead (fun e b => freeSeat e.1 b) b
  { b with voices := b.voices.map (fun e => (e.1, e.2.silenced)) }

/-- CLEAR_EVENTS (R74): rolls and timetables are emptied, and every check ends as by a write of 0. -/
def clearEvents (b : Block) : Block :=
  cancelChecks (fun _ => true) { b with sched := { b.sched with
    rolls := b.sched.rolls.map (fun _ => []), tts := b.sched.tts.map (fun _ => []), rollFull := false
    ttFull := b.sched.ttFull.map (fun _ => false) } }

/-! ### CANCEL_COMMANDS -/

/-- The commands taken and not complete that a reply of CANCELLED ends, with their stamps (R74). Builds, BIST and checks end
beside them. -/
def openCommands (b : Block) : List (Tok × Nat) :=
  b.proc.held.map (fun h => (h.tok, h.at_)) ++
  b.proc.engineReset ++
  b.slate.handovers.map (fun h => (h.1, h.2.1)) ++
  b.slate.escorts.map (fun e => (e.tok, e.stamp)) ++
  b.store.acts.map (fun h => (h.tok, h.at_)) ++
  b.store.sealing.map (fun k => (k.1, k.2.1)) ++
  b.store.loading.map (fun k => (k.1, k.2.1)) ++
  b.clk.waiting.map (fun k => (k.1, k.2.1)) ++
  (b.pwr.changes.filterMap (fun c => c.tok.map (fun t => (t, b.now)))) ++
  b.fry.boardTok.toList ++ b.fry.landTok.toList ++
  b.fry.hashing.toList.flatten ++
  (b.pwr.update.waiting.map (fun w => (w.1, b.now))).toList ++
  b.net.filterMap (fun p => p.listen.map (fun l => (l.1, l.2.1)))

/-- A boarding ends, its hold of the Tide with it: the shadow is out of step. -/
def stopBoarding (b : Block) : Block :=
  let b := if b.fry.hold.isSome then b.wr fTIDE_STAT_RUNNING 1 else b
  { b with fry := { b.fry with
    hold := none, crossed := [], stepAt := none, compareFrom := 0, hashThenBoard := false, retry := false } }.wr
    fFERRY_STAT_STATE 7

/-- CANCEL_COMMANDS ends a boarding and a landing that a command started, and a hash that only commands wait for (R74). -/
def cancelFerry (b : Block) : Block :=
  let b := if b.fry.boardTok.isSome && b.isShadow then stopBoarding b else b
  let b := if b.fry.landTok.isSome then { b with fry := { b.fry with landAt := none } } else b
  let hashing := if b.fry.hashThenBoard then b.fry.hashing.map (fun _ => [])
    else match b.fry.hashing with | some (_ :: _) => none | h => h
  { b with fry := { b.fry with boardTok := none, landTok := none, hashing := hashing } }

/-- CANCEL_COMMANDS stops what the stores, the slate and the clocks were doing (R74, R228, R356): owner changes under way go on
without a reply, and how much of a library copy had landed is left open. -/
def cancelWork (b : Block) : Block :=
  let b := tornFlash b
  let b := match b.store.loading with
    | (_, _, flash, off, len) :: _ =>
      let (k, b) := b.fresh 238
      let n := k % (len + 1)
      ({ b with store := { b.store with loading := [] } }.setLpddr (libBase b + off) (b.flashBytes flash n)).wr
        fSTRM_LIB_STAT_LOAD_BUSY 0
    | [] => b
  { b with
    store := { b.store with acts := [], sealing := [] }
    slate := { b.slate with
      handovers := b.slate.handovers.map (fun h => ({ h.1 with noReply := true }, h.2))
      escorts := [] }
    clk := { b.clk with waiting := [] }
    pwr := { b.pwr with
      changes := b.pwr.changes.filter (·.tok.isNone)
      update := if b.pwr.update.waiting.isSome then { b.pwr.update with state := 0, waiting := none } else b.pwr.update }
    net := b.net.map (fun p => { p with listen := none }) }

/-- CANCEL_COMMANDS (R74): every command taken and not complete ends CANCELLED with ABORTED. -/
def cancelAll (b : Block) : Block :=
  let cs := openCommands b
  let b := cancelChecks (fun c => c.tok.isSome) b
  let b := cancelFerry (bistCancel (stopBuilder b))
  let b := cancelWork { b with proc := { b.proc with held := [], engineReset := [] } }
  forL cs (fun c b => b.finish c.1 c.2 false cancelled) b

/-! ### The sequencer -/

/-- The functions still in progress (R74): the silencing until no voice is on its ramp, and those that wait for a boundary. -/
def abortActive (b : Block) : Nat :=
  b2n (bit (b.rd fHIF_ABORT_STAT_ACTIVE) 0 && b.voices.any (fun e => e.2.silence.isSome)) + b.proc.abortAtBound

/-- A write's functions start (R74, R76): STOP_BDSP, STOP_STREAMS and MUTE_OUTPUTS wait for the boundary, CLEAR_EVENTS,
CANCEL_COMMANDS and STOP_TBLD are done at once. -/
def doAbort (f : Nat) (b : Block) : Block :=
  if f % 128 = 0 then b
  else
    let b := (b.wr fHIF_STATUS_ABORT_BUSY 1).wr fHIF_ABORT_STAT_ACTIVE (Nat.lor (b.rd fHIF_ABORT_STAT_ACTIVE) f)
    let b := { b with proc := { b.proc with
      abortOwed := true, abortAtBound := Nat.lor b.proc.abortAtBound (Nat.land f 0x1C) } }
    let b := if bit f 0 then silenceAll b else b
    let b := if bit f 1 then clearEvents b else b
    let b := if bit f 5 then cancelAll b else b
    if bit f 6 then stopBuilder b else b

/-- STOP_STREAMS at the boundary (R74): the slots close, and the oscillators they fed put out zero. -/
def stopStreams (b : Block) : Block :=
  let b := forL b.store.slots (fun s b =>
    b.modVoice s.voice (fun x => { x with
      osc := x.osc.map (fun o => if o.zone = some (s.map, s.zone) then { o with ended := true } else o) })) b
  forL b.store.slots (fun s b => closeSlot b s.id) b

/-- The functions that wait for a boundary take place, before the cores halt and the mix closes (R74, R302, R284). -/
def abortBoundary (b : Block) : Block :=
  let f := b.proc.abortAtBound
  let b := { b with proc := { b.proc with abortAtBound := 0 } }
  let b := if bit f 2 then forN 4 (fun c b => if coreRuns b c then b.modCore c (fun g => { g with halting := true }) else b) b
    else b
  let b := if bit f 3 then stopStreams b else b
  if bit f 4 then b.wr fMIX_CTRL_MUTE 1 else b

/-- The Proctor is reset and starts Sildacen again (R62, R77): RING and READY clear, replies and commands taken are lost, what
they started goes on, and RST_CAUSE.PROCTOR sets (R544). Mailbox bytes keep their values (notes/assumptions/3.md). -/
def restartProctor (b : Block) : Block :=
  let b := ((b.wr fHIF_STATUS_PROCTOR_RUN 0).wr fHIF_STATUS_BOOT_DONE 0).wr fHIF_ABORT_STAT_PROCTOR_RESTARTING 1
  let b := ((b.wr fHIF_DOORBELL_IN_RING 0).wr fHIF_DOORBELL_OUT_READY 0).wr fCPR_RST_CAUSE_PROCTOR 1
  let b := { b with pwr := { b.pwr with wdog := 0, wdogArmed := false } }
  { b with proc := { b.proc with
    rung := [], held := [], replies := [], overflow := false, engineReset := [], gen := b.proc.gen + 1 } }

/-- HIF_ABORT is written without its key (R74). -/
def badKey (b : Block) : Block := b.hostErr [fHIF_HOST_STAT_ABORT_KEY] (some rHIF_ABORT)

/-- A write of FUNC bits applies here, and a PRIMARY forwards them (R74, R78, R522). -/
def abortHere (f : Nat) (b : Block) : Block :=
  let b := if b.isPrimary && decide (f % 128 ≠ 0) then sendFrame 7 (toLE 1 (f % 128)) b else b
  doAbort f b

/-- A write of HIF_ABORT (R74, R76, R77). -/
def writeAbort (v : Nat) (b : Block) : Block :=
  if bitsOf v 31 24 ≠ 0xA5 then badKey b
  else
    let b := abortHere (bitsOf v 6 0) b
    if bit v 15 then restartProctor b else b

/-- The engine's enables and their state are reset (R541): EVT, the lanes, BDSP, TBLD, stream engine and mix bus; MUTE stays. -/
def engineBlock (a : Nat) : Bool :=
  let k := blockOf a
  k == 8 || k == 9 || k == 0xA || k == 0xB || k == 0xC || (k == 6 && decide (0x68000 ≤ a))

/-- Commands under way in the engine end CANCELLED at its reset (notes/assumptions/22.md, DESIGN CHOICE): builds, commits and
frees of tables, seals. -/
def cancelEngine (b : Block) : Block :=
  let cs := b.store.acts.map (fun h => (h.tok, h.at_)) ++ b.store.sealing.map (fun k => (k.1, k.2.1))
  forL cs (fun c b => b.finish c.1 c.2 false cancelled) (stopBuilder b)

/-- The reset of scope ENGINE (R539, R541). Slate keeps its contents and owners; the library in LPDDR5, which the reset does not
reach, and the patches, which Sildacen keeps, stay (notes/assumptions/24.md); the library is no longer VALID (R239). With the SCHED
registers go the rules in effect. -/
def resetEngine (b : Block) : Block :=
  let mute := b.rd fMIX_CTRL_MUTE
  let keep := [rSTRM_LIB_BASE, rSTRM_LIB_STAT].map (fun a => (a, b.word a))
  let b := clearBdsp (clearEvt (cancelEngine b))
  let b := clearVoices (fun _ => true) b
  let b := { b with
    regs := b.regs.filter (fun e => !engineBlock e.1), glob := Global.reset, mix := { Mix.reset with muted := b.mix.muted }
    sched := { b.sched with rules := [], traceStopped := false, swaps := [] }
    store := { Store.reset with patches := b.store.patches, staging := b.store.staging, loading := b.store.loading } }
  ((forL keep (fun k b => b.setWord k.1 k.2) b).wr fSTRM_LIB_STAT_VALID 0).wr fMIX_CTRL_MUTE mute

/-- ABORT_DONE (R76, R541, R522): the last function of a write is complete. A reset of scope ENGINE that waited for it takes
place and replies; a shadow's boarding may start again. -/
def abortDone (b : Block) : Block :=
  if b.proc.abortOwed && abortActive b == 0 then
    let b := { b with proc := { b.proc with abortOwed := false } }
    let b := ((b.wr fHIF_STATUS_ABORT_BUSY 0).wr fHIF_ABORT_STAT_ACTIVE 0).raise evABORT_DONE
    if b.proc.engineReset.isEmpty then b
    else
      let b' := (resetEngine { b with proc := { b.proc with engineReset := [] } }).wr fCPR_RST_CAUSE_ENGINE 1
      forL b.proc.engineReset (fun c b => b.finish c.1 c.2 false (ok [])) b'
  else b

end Sys2Proof.Machine
end

