-- ==== Sys2Proof/Machine/Window.lean ====
section
/-! DEFINITION. The 4 KiB of a voice as the voice state window shows it (03 R114, 04 R161, 05 R209), and a voice taken from such
4 KiB when it crosses to a shadow (15 R510). -/

namespace Sys2Proof.Machine

/-- Bytes brought to a length, filled with 0. -/
def padTo (n : Nat) (bs : List Byte) : List Byte := (bs ++ List.replicate (n - bs.length) 0).take n

/-- An oscillator (R114): 32 bytes. -/
def oscImage (o : Osc) : List Byte :=
  toLE 8 o.acc ++ sLE 8 o.inc ++ toLE 4 o.gen ++ sLE 4 o.out ++ sLE 4 o.cy ++ sLE 4 o.drift

/-- A filter (R161): 64 bytes. -/
def filterImage (st : List Int) : List Byte := padTo 64 ((List.range 5).flatMap (fun i => sLE 8 (nth 0 st i)))

/-- An envelope (R161): 16 bytes. -/
def envImage (e : Env) : List Byte := toLE 1 e.stage ++ [0] ++ toLE 6 e.r ++ sLE 4 e.l0 ++ sLE 4 e.y

/-- An LFO (R161): 32 bytes. -/
def lfoImage (l : Lfo) : List Byte :=
  padTo 32 (toLE 4 l.acc ++ toLE 4 l.gen ++ sLE 4 l.h ++ sLE 4 l.hPrev ++ toLE 4 l.fade)

/-- A ramp unit (R161): 16 bytes; an idle one reads 0 (notes/assumptions/25.md). -/
def rampImage (r : Option Ramp) : List Byte :=
  match r with
  | some r => toLE 4 r.dest ++ toLE 4 r.left ++ sLE 4 r.target ++ sLE 4 r.step
  | none => List.replicate 16 0

/-- Values of four bytes each. -/
def wordsImage (n : Nat) (xs : List Int) : List Byte := (List.range n).flatMap (fun i => sLE 4 (nth 0 xs i))

/-- The 4 KiB of a voice. The values at 0x800 stand in ascending order of destination (notes/assumptions/25.md). -/
def voiceImage (x : Voice) : List Byte :=
  padTo 0x100 (seatImage x) ++ (List.range 4).flatMap (fun n => oscImage (x.oscN n)) ++
  (List.range 2).flatMap (fun f => filterImage (nth [] x.flt f)) ++
  (List.range 6).flatMap (fun e => envImage (nth Env.reset x.env e)) ++
  (List.range 4).flatMap (fun l => lfoImage (nth Lfo.reset x.lfo l)) ++
  (List.range 4).flatMap (fun u => rampImage (nth none x.ramp u)) ++
  padTo 0xE0 (wordsImage 32 x.macros) ++ wordsImage 256 x.base ++
  padTo 0x800 (wordsImage 72 x.carried)

/-- The voice whose 4 KiB hold a window address (R114). -/
def windowVoice (a : Nat) : Nat := (a - 0x01000000) / 0x40000 + 16 * ((a - 0x01000000) % 0x40000 / 0x1000)

/-- A word of the voice state window; the lanes of a VQ domain that is off read 0 (R528). -/
def voiceWord (b : Block) (a : Nat) : Nat :=
  let v := windowVoice a
  if b.on (dVQ0 + v % 16 / 4) then leAt (voiceImage (b.voice v)) (a % 0x1000 / 4 * 4) 4 else 0

/-! ### A voice taken from its 4 KiB -/

def oscFrom (bs : List Byte) : Osc :=
  { Osc.reset with
    acc := leAt bs 0 8, inc := leAtS bs 8 8, gen := leAt bs 0x10 4, out := leAtS bs 0x14 4, cy := leAtS bs 0x18 4
    drift := leAtS bs 0x1C 4, posSet := true }

def envFrom (bs : List Byte) : Env := { stage := leAt bs 0 1, r := leAt bs 2 6, l0 := leAtS bs 8 4, y := leAtS bs 12 4 }

def lfoFrom (bs : List Byte) : Lfo :=
  { Lfo.reset with acc := leAt bs 0 4, gen := leAt bs 4 4, h := leAtS bs 8 4, hPrev := leAtS bs 12 4, fade := leAt bs 16 4 }

def rampFrom (order : Nat) (bs : List Byte) : Option Ramp :=
  if leAt bs 4 4 = 0 then none
  else some { dest := leAt bs 0 4, left := leAt bs 4 4, target := leAtS bs 8 4, step := leAtS bs 12 4, order := order }

/-- n signed words from an offset. -/
def wordsFrom (bs : List Byte) (off n : Nat) : List Int := (List.range n).map (fun i => leAtS bs (off + 4 * i) 4)

/-- The layer of a seat. -/
def layerFrom (bs : List Byte) (stamp : Nat) : Layer :=
  { Layer.reset with
    cls := leAt bs 1 1, note := leAt bs 2 1, key := leAt bs 3 1, port := leAt bs 4 1, bank := leAt bs 5 1, chan := leAt bs 6 2
    clsTarget := bit (leAt bs 0 1) 6, noteId := leAt bs 8 2, vel := leAtS bs 12 4, stamp := stamp }

/-- A voice as its 4 KiB hold it; what they do not hold is as after arming (notes/assumptions/25.md). -/
def voiceFrom (b : Block) (v : Nat) (bs : List Byte) : Voice :=
  let st := leAt bs 0 1 % 8
  let stamp := localCount b (leAt bs 0x24 6)
  let lay := layerFrom bs stamp
  let part (off n k : Nat) : List Byte := (bs.drop (off + n * k)).take n
  { Voice.reset with
    st := st, held := bit (leAt bs 0 1) 7, lay := lay, patch := leAt bs 0x0A 2, relVel := leAtS bs 0x10 4
    perNote := wordsFrom bs 0x14 4, stamp := stamp, start := localCount b (leAt bs 0x2A 6)
    dismN := leAt bs 0x30 2, dismDone := leAt bs 0x32 2, minLeft := leAt bs 0x34 2, minGate := leAt bs 0x34 2 != 0
    renders := leAt bs 0x36 4, armed := st != 1, gate := st == 1 || st == 2, random := noteRandom b v lay.noteId
    osc := (List.range 4).map (fun n => oscFrom (part 0x100 0x20 n))
    flt := (List.range 2).map (fun f => (List.range 5).map (fun i => leAtS bs (0x180 + 0x40 * f + 8 * i) 8))
    env := (List.range 6).map (fun e => envFrom (part 0x200 0x10 e))
    lfo := (List.range 4).map (fun l => lfoFrom (part 0x260 0x20 l))
    ramp := (List.range 4).map (fun u => rampFrom (b.sched.rampOrder + u) (part 0x2E0 0x10 u))
    macros := wordsFrom bs 0x320 32, base := wordsFrom bs 0x400 256
    carried := wordsFrom bs 0x800 72
    env0 := leAtS bs 0x20C 4 }

/-- The SAMPLE oscillators of a voice that crosses find their zones and open their streams (R510). -/
def crossStreams (v : Nat) (b : Block) : Block :=
  let x := b.voice v
  let p := b.patch x.patch
  forN 4 (fun n b =>
    if pMode p n = oscModeSample then
      match selectZone b (pSource p n) x.lay.note x.lay.vel with
      | some z =>
        let b := b.modVoice v (fun x => x.setOsc n { x.oscN n with zone := some (pSource p n, z) })
        openSlot b v (pSource p n) z ((x.oscN n).acc / 2 ^ 32)
      | none => b
    else b) b

end Sys2Proof.Machine
end

