-- ==== Sys2Proof/Machine/Copy.lean ====
section
/-! DEFINITION. What a crossing copies: the words that a PRIMARY still has to send and the COPY frames it forms of them, and how a
shadow installs what arrives (15 R494, R500, R504, R507 to R511). The addresses that name state beyond the host address map, and the
layouts of the payloads, are the model's own (notes/assumptions/20.md). -/

namespace Sys2Proof.Machine

/-! ### State named by addresses of the model's own -/

/-- Patch p lies from here on, 2,048 bytes each (R210). -/
def copyPatches : Nat := 0x06000000

/-- Sample map m lies from here on, 2^16 bytes each: 64 of each zone, and its state and zone count at 0x8000. -/
def copyMaps : Nat := 0x10000000

/-- A list of banks as a mask, and from it: a generation holds its banks in ascending order (R222). -/
def bankMask (ks : List Nat) : Nat := ks.foldl (fun m k => m + 2 ^ k) 0

/-- The pending, retiring and freed banks of a table, as masks of two words, the latter two each with the boundaries they still wait
for. -/
def tableWords (x : TableX) : List Nat :=
  let two (ks : List Nat) : List Nat := [bankMask ks % 2 ^ 32, bankMask ks / 2 ^ 32]
  let part (r : Option (List Nat × Nat)) : List Nat := match r with | some r => two r.1 ++ [r.2] | none => [0, 0, 0]
  (match x.pend with | some g => two g.banks | none => [0, 0]) ++ part x.retire ++ part x.freed

/-- A table as such words tell it; its commit is ordered by the primary. -/
def tableOf (ws : List Nat) : TableX :=
  let banks (i : Nat) : List Nat := banksIn (nth 0 ws i + 2 ^ 32 * nth 0 ws (i + 1))
  let part (i : Nat) : Option (List Nat × Nat) := if banks i = [] then none else some (banks i, nth 0 ws (i + 2))
  { pend := if banks 0 = [] then none else some { banks := banks 0, commitAt := none }, retire := part 2, freed := part 5 }

/-- A word of a sample map: ten of a zone's descriptor, where its head lies, and whether it is there. -/
def mapWord (x : SampleMap) (off : Nat) : Nat :=
  if off = 0x8000 then x.state + 2 ^ 8 * x.zones.length
  else
    let z := off / 0x40
    match off % 0x40 / 4 with
    | 10 => nth 0 x.heads z
    | 11 => b2n (nth none x.zones z).isSome
    | i => match nth none x.zones z with | some d => leAt d (4 * i) 4 | none => 0

/-- A sample map takes such a word; the word at 0x8000 begins it anew. -/
def setMapWord (off w : Nat) (x : SampleMap) : SampleMap :=
  if off = 0x8000 then
    let n := w / 2 ^ 8
    { state := w % 2 ^ 8, zones := List.replicate n none, heads := if w % 2 ^ 8 = 3 then List.replicate n 0 else [] }
  else
    let z := off / 0x40
    let i := off % 0x40 / 4
    if i = 10 then { x with heads := x.heads.set z w }
    else if i = 11 then (if w = 0 then { x with zones := x.zones.set z none } else x)
    else { x with zones := x.zones.modify z (fun d => some (patchBytes (padTo 40 (d.getD [])) (4 * i) (toLE 4 w))) }

/-! ### What is copied (R504, R507) -/

/-- Status that a copy carries: what the part's configuration consists in beyond the fields written by the host. -/
def copiedStatus : List Nat := [rSCHED_RESERVE, rSTRM_LIB_BASE, rSTRM_HEAD, rBDSP_BANKS, rBDSP_CTL, rSLATE_COMMONS, rSLATE_PINNED, rSLATE_OWNER]

/-- A mirrored register is copied: one with fields to write, or such a status. What reports a device's own pins, counts and faults
is not (DEDUCED, notes/assumptions/20.md). -/
def copiedReg (r : RegDef) : Bool :=
  isMirrored r.base && (r.fields.any (fun f => f.acc == .rw) || copiedStatus.contains r.base)

/-- The words of a register array: first address and number of adjacent words. -/
def regRuns (r : RegDef) : List (Nat × Nat) :=
  if r.stride = 4 ∧ r.count2 = 1 then [(r.base, r.count)]
  else (List.range r.count).flatMap (fun i =>
    if r.stride2 = 4 then [(r.base + r.stride * i, r.count2)]
    else (List.range r.count2).map (fun j => (r.base + r.stride * i + r.stride2 * j, 1)))

/-- The mirrored registers and table descriptors. -/
def copiedRegs : List (Nat × Nat) :=
  ((regs6 ++ regs8 ++ regs9 ++ regsA ++ regsB ++ regsC ++ regsD).filter copiedReg).flatMap regRuns ++ [(rTBL_DESC_W0, 1024)]

/-- Slate banks in use but for stream rings (R507): those with an owner, without the builder's free pool and the banks of a running
build. -/
def copiedBanks (b : Block) : List Nat :=
  let built := match b.store.running with | some k => k.banks | none => []
  (List.range 64).filter (fun k =>
    b.owner k != 0 && b.owner k != rqDISABLED && !(freePool b).contains k && !built.contains k && !(ringBanks b).contains k)

/-- A slate bank. -/
def bankRun (k : Nat) : Nat × Nat := (0x02000000 + 0x80000 * k, 0x20000)

/-- The LPDDR5 contents of the enabled lines (R333). -/
def lineRuns (b : Block) : List (Nat × Nat) :=
  (List.range 4).flatMap (fun c => (List.range 8).filterMap (fun n =>
    if bit (b.rd (fBDSP_CTRL_LINE_EN.at c)) n then
      some (pairLpddr (64 * b.rd (fBDSP_LINE_BASE_BASE.at2 c n)), b.rd (fBDSP_LINE_LEN_LEN.at2 c n))
    else none))

/-- The X and Y memories of the cores. -/
def coreMemRuns : List (Nat × Nat) :=
  (List.range 4).flatMap (fun c => [(0x04000000 + 0x20000 * c, 0x4000), (0x04010000 + 0x20000 * c, 0x4000)])

/-- Resident patches, sample maps, and tables, whose descriptors tell part of them. -/
def storeRuns (b : Block) : List (Nat × Nat) :=
  b.store.patches.map (fun e => (copyPatches + 0x800 * e.1, 512)) ++
  b.store.maps.flatMap (fun e => [(copyMaps + 0x10000 * e.1 + 0x8000, 1), (copyMaps + 0x10000 * e.1, 16 * e.2.zones.length)]) ++
  b.store.tables.map (fun e => (copyTables + 0x20 * e.1, 8))

/-- Everything that COPYING carries, and a mark of its end. -/
def copyPlan (b : Block) : List (Nat × Nat) :=
  (copiedBanks b).map bankRun ++ coreMemRuns ++ lineRuns b ++ storeRuns b ++ copiedRegs ++ [(0, 0)]

/-- What CHECKING compares (R507): mode, rate and family, MCLK_IN, and the library hash. -/
def checkPlan : List (Nat × Nat) := [(rHIF_STATUS, 1), (rTIDE_STAT, 1), (rCPR_MCLK_CFG, 1), (rFERRY_LIB_HASH, 2)]

/-! ### COPY frames -/

/-- A word as a COPY frame carries it, its Tide values as pair counts (R500). -/
def copiedWord (b : Block) (a : Nat) : Nat :=
  if 0x80000000 ≤ a then leAt (b.lpddrBytes (4 * (a - 0x80000000)) 4) 0 4
  else if copyMaps ≤ a then mapWord (sampleMap b ((a - copyMaps) / 0x10000)) ((a - copyMaps) % 0x10000)
  else if copyTables ≤ a then nth 0 (tableWords (tableX b ((a - copyTables) / 0x20))) ((a - copyTables) % 0x20 / 4)
  else if copyPatches ≤ a then leAt (b.patch ((a - copyPatches) / 0x800)) ((a - copyPatches) % 0x800) 4
  else if 0x04000000 ≤ a then
    let g := b.core ((a - 0x04000000) / 0x20000)
    let w := (a - 0x04000000) % 0x10000 / 4
    smGet (fun _ => 0) (if (a - 0x04000000) % 0x20000 < 0x10000 then g.x else g.y) w
  else if 0x02000000 ≤ a then leAt (b.slateBytes (a - 0x02000000) 4) 0 4
  else pairWord (lowBeside b a) a (b.word a) b

/-- The address n words on. -/
def wordsOn (a n : Nat) : Nat := if 0x80000000 ≤ a then a + n else a + 4 * n

/-- A COPY frame of words (R494). -/
def sendWords (a n : Nat) (b : Block) : Block :=
  let b := sendFrame 5 (toLE 1 0 ++ toLE 4 a ++ (List.range n).flatMap (fun i => toLE 4 (copiedWord b (wordsOn a i)))) b
  let all := b.fry.copied + 4 * n
  { b with fry := { b.fry with copied := all } }.wr fFERRY_CROSS_MIB_COPIED (all / 2 ^ 20)

/-- The next COPY frame, of at most 48 words, where the link has room for it and nothing else waits (R494). -/
def copyNext (b : Block) : Block :=
  match b.fry.plan with
  | (a, n) :: rest =>
    if !b.fry.queue.isEmpty || decide (32 ≤ b.fry.sent.length) || !copies b then b
    else
      let k := min n 48
      sendWords a k { b with fry := { b.fry with plan := if n ≤ 48 then rest else (wordsOn a k, n - k) :: rest } }
  | [] => b

/-- The link takes what waits, and what is still to be copied, as far as it has room. -/
def fillLink (b : Block) : Block := forN 32 (fun _ b => copyNext b) (sendQueue b)

/-- The registers of a core that a copy carries, in ascending order of their selectors (R311, R511). -/
def copiedSels : List Nat := (List.range 0x4C).filter selOk

/-- What a shadow needs to step in at the next boundary (R511): registers, staged words, next address and line places of each
running core, the followers, the channel banks and the global LFOs. -/
def sendStepIn (b : Block) : Block :=
  let b := forN 4 (fun c b =>
    let g := b.core c
    if coreRuns b c then
      sendFrame 5 (toLE 1 3 ++ toLE 1 c ++ copiedSels.flatMap (fun s => toLE 4 (readSel g s)) ++
        (g.ret ++ g.ctl ++ g.lineW ++ g.npc :: g.linePos).flatMap (toLE 4)) b
    else b) b
  let b := sendFrame 5 (toLE 1 0 ++ toLE 4 0x05000280 ++ b.glob.follow.flatMap (fun v => sLE 4 v)) b
  let b := forL b.glob.banks (fun e b =>
    sendFrame 5 (toLE 1 4 ++ toLE 1 e.1 ++ (e.2.cc ++ [e.2.press, e.2.bend]).flatMap (fun v => sLE 4 v)) b) b
  (b.glob.glfo.zipIdx).foldl (fun b e =>
    let st := e.1.st
    sendFrame 5 (toLE 1 5 ++ toLE 1 e.2 ++ toLE 4 st.acc ++ toLE 4 st.gen ++ sLE 4 st.h ++ sLE 4 st.hPrev ++ toLE 4 st.fade ++
      sLE 4 e.1.out) b) b

/-! ### Words installed -/

/-- A live gain takes a copied value without a glide (R511). -/
def settleGain (a : Nat) (b : Block) : Block :=
  match gainAt a with
  | some (kind, n) =>
    let f := fun g : Glide => { g with cur := g.target, step := 0, left := 0, start := false }
    if kind = 0 then { b with mix := { b.mix with liveGain := b.mix.liveGain.modify n f } }
    else if kind = 1 then { b with mix := { b.mix with retGain := b.mix.retGain.modify n f } }
    else { b with mix := { b.mix with outGain := b.mix.outGain.modify n f } }
  | none => b

/-- A copied register (R500, R507): the seating rules take effect whole, a gain without a glide, VOICE_BEAT_ORIGIN with its high word. -/
def installReg (a v : Nat) (b : Block) : Block :=
  let v := localWord (lowBeside b a) a v b
  if (gainAt a).isSome then settleGain a (writeMix a v b)
  else if rSCHED_RULE_W0 ≤ a ∧ a < rSCHED_RULE_W0 + 0x1000 then commitRule ((a - rSCHED_RULE_W0) / 0x10) (b.put a v)
  else if a = rVOICE_BEAT_ORIGIN_HI then
    let b := b.setWord a v
    { b with glob := { b.glob with origin := b.word rVOICE_BEAT_ORIGIN_LO + 2 ^ 32 * v, tpb := max 1 (b.word rVOICE_TEMPO_TPB) } }
  else b.setWord a v

/-- A copied word lands at its address (R507, R508). -/
def installWord (a v : Nat) (b : Block) : Block :=
  if 0x80000000 ≤ a then b.setLpddr (4 * (a - 0x80000000)) (toLE 4 v)
  else if copyMaps ≤ a then
    let m := (a - copyMaps) / 0x10000
    b.setMap m (setMapWord ((a - copyMaps) % 0x10000) v (sampleMap b m))
  else if copyTables ≤ a then
    let t := (a - copyTables) / 0x20
    b.setTableX t (tableOf ((tableWords (tableX b t)).set ((a - copyTables) % 0x20 / 4) v))
  else if copyPatches ≤ a then
    let p := (a - copyPatches) / 0x800
    { b with store := { b.store with
      patches := putImage b.store.patches p (patchBytes (b.patch p) ((a - copyPatches) % 0x800) (toLE 4 v)) } }
  else if 0x04000000 ≤ a ∧ a < 0x04080000 then
    let w := (a - 0x04000000) % 0x10000 / 4
    b.modCore ((a - 0x04000000) / 0x20000) (fun g =>
      if (a - 0x04000000) % 0x20000 < 0x10000 then { g with x := smSet (fun _ => 0) g.x w v }
      else { g with y := smSet (fun _ => 0) g.y w v })
  else if 0x02000000 ≤ a ∧ a < 0x04000000 then b.setSlate (a - 0x02000000) (toLE 4 v)
  else if isMirrored a then installReg a v b
  else b

/-! ### Journaled outcomes and sources (R509, R510) -/

/-- A seat takes what its 60 bytes hold, its times as pair counts; the note of a PENDING seat is still to be armed. -/
def seatFrom (b : Block) (bs : List Byte) (x : Voice) : Voice :=
  let y := voiceFrom b 0 bs
  let fresh := y.st == 1 && (x.st != 1 || x.stamp != y.stamp)
  { x with
    st := y.st, held := y.held, lay := { y.lay with came := x.lay.came, minGate := x.lay.minGate }, patch := y.patch
    relVel := y.relVel, perNote := y.perNote, stamp := y.stamp, start := y.start, dismN := y.dismN, dismDone := y.dismDone
    minLeft := y.minLeft, minGate := y.minGate, renders := y.renders, armed := x.armed && !fresh
    changes := if fresh then [] else x.changes, pushed := if fresh then [] else x.pushed
    silence := if fresh then none else x.silence, waiting := none, victimOf := if fresh then none else x.victimOf }

/-- A hand-off of the primary: the reserve seat takes the victim's voice and streams; where the victim has not crossed, the reserve
has not either (R510). -/
def installHandOff (victim reserve : Nat) (b : Block) : Block :=
  let x := b.voice victim
  let crossed := b.fry.crossed.filter (· != reserve)
  let b := (closeVoiceSlots b reserve).setVoice reserve { x with st := 4, victimOf := some x.lay.cls }
  let slots := b.store.slots.map (fun s => if s.voice = victim then { s with voice := reserve } else s)
  let b := { b with
    fry := { b.fry with crossed := if b.fry.crossed.contains victim then crossed ++ [reserve] else crossed }
    store := { b.store with slots := slots } }
  b.wr fFERRY_CROSS_VOICES b.fry.crossed.length

/-- A word of a seat, a change sent to it, or a hand-off, as an outcome of the primary's allocator. -/
def installSeat (a w : Nat) (b : Block) : Block :=
  let v := windowVoice a
  let off := a % 0x1000
  if off < 0x3C then
    let img := padTo 0x40 (seatImage (pairVoice b (b.voice v)))
    let b := b.modVoice v (seatFrom b (img.take off ++ toLE 4 w ++ img.drop (off + 4)))
    if (b.voice v).st = 0 then closeVoiceSlots b v else b
  else if off = 0x60 then installHandOff (w % 1024) v b
  else
    let x := sext 32 w
    let c : GateChange := if off = 0x40 then .off x else if off = 0x44 then .retrigger x else .perNote ((off - 0x48) / 4 % 4) x
    b.modVoice v (fun y => { y with changes := y.changes ++ [c] })

/-- A global source as the primary latched it. BEAT_PHASE follows from the beat definition copied. -/
def installSource (n w : Nat) (b : Block) : Block :=
  let x := sext 32 w
  let g := b.glob
  { b with glob :=
    if n < 68 then { g with glfo := g.glfo.modify (n - 64) (fun l => { l with out := x }) }
    else if n < 96 then g
    else if n < 128 then { g with hparamL := g.hparamL.set (n - 96) x }
    else if n < 160 then { g with live := g.live.set (n - 128) x }
    else if n < 176 then { g with follow := g.follow.set (n - 160) x }
    else { g with ctl := g.ctl.set (n - 176) x } }

/-- A word of a channel bank as the primary latched it. -/
def installBankWord (k i w : Nat) (b : Block) : Block :=
  let x := sext 32 w
  let y := b.bankL k
  let y := if i < 128 then { y with cc := y.cc.set i x } else if i = 128 then { y with press := x } else { y with bend := x }
  { b with glob := { b.glob with
    banks := smSet (fun _ => Bank.reset) b.glob.banks k y, banksL := smSet (fun _ => Bank.reset) b.glob.banksL k y } }

/-- A journal entry on the shadow: a write to copied state, or an outcome or source of R509. -/
def installEntry (a w : Nat) (b : Block) : Block :=
  if 0x01000000 ≤ a ∧ a < 0x01400000 then installSeat a w b
  else if 0x05000000 ≤ a ∧ a < 0x05010000 then installSource ((a - 0x05000000) / 4) w b
  else if 0x05010000 ≤ a ∧ a < 0x05020000 then installBankWord ((a - 0x05010000) / 0x400) (a % 0x400 / 4) w b
  else installWord a w b

/-- Copied words. -/
def installWords (a : Nat) (vs : List Nat) (b : Block) : Block :=
  (vs.zipIdx).foldl (fun b e => installEntry (wordsOn a e.2) e.1 b) b

/-- A piece of copied state is installed (R507, R510, R511). -/
def installItem (item : CopyItem) (b : Block) : Block :=
  match item with
  | .words a ws => installWords a.toNat (ws.map (·.toNat)) b
  | .lpddr a bs => b.setLpddr a bs
  | .coreData c space first ws =>
    b.modCore (c % 4) (fun g =>
      if space = 0 then { g with x := smWriteAll (fun _ => 0) g.x first ((ws.map (·.toNat)).take (0x4000 - first)) }
      else { g with y := smWriteAll (fun _ => 0) g.y first ((ws.map (·.toNat)).take (0x4000 - first)) })
  | .coreRegs c rs st =>
    b.modCore (c % 4) (fun g =>
      let g := (copiedSels.zip (rs.map (·.toNat))).foldl (fun g e => writeSel g e.1 e.2) g
      let st := st.map (·.toNat)
      { g with
        ret := (List.range 16).map (nth 0 st), ctl := [nth 0 st 16, nth 0 st 17]
        lineW := (List.range 8).map (fun i => nth 0 st (18 + i)), flight := [], waiting := true
        npc := st.getD 26 g.npc, linePos := g.linePos.mapIdx (fun i p => st.getD (27 + i) p) })
  | .bank k vs =>
    { b with glob := { b.glob with
      banks := smSet (fun _ => Bank.reset) b.glob.banks (k % 64)
        { cc := (List.range 128).map (nth 0 vs), press := nth 0 vs 128, bend := nth 0 vs 129 } } }
  | .globalLfo l vs =>
    { b with glob := { b.glob with
      glfo := b.glob.glfo.modify l (fun g => { g with
        st := { g.st with
          acc := (nth 0 vs 0).toNat, gen := (nth 0 vs 1).toNat, h := nth 0 vs 2, hPrev := nth 0 vs 3, fade := (nth 0 vs 4).toNat }
        out := nth 0 vs 5 }) } }
  | .voice v bs =>
    let b := closeVoiceSlots b v
    crossStreams v { b.setVoice v (voiceFrom b v (padTo 0x1000 bs)) with
      sched := { b.sched with rampOrder := b.sched.rampOrder + 4 } }

/-- Bytes of a piece of copied state. -/
def itemBytes (item : CopyItem) : Nat :=
  match item with
  | .words _ ws => 4 * ws.length
  | .lpddr _ bs => bs.length
  | .coreData _ _ _ ws => 4 * ws.length
  | .coreRegs _ rs st => 4 * (rs.length + st.length)
  | .bank _ vs => 4 * vs.length
  | .globalLfo _ vs => 4 * vs.length
  | .voice _ bs => bs.length


end Sys2Proof.Machine
end

