-- ==== Sys2Proof/Machine/Ferry.lean ====
section
/-! DEFINITION. The ferry pair: roles, the link, alignment, boarding and crossing, watching the peer, landing (15 R492 to R526). The
layouts of COPY, MIRROR and JOURNAL are the model's own (notes/assumptions/20.md). -/

namespace Sys2Proof.Machine

/-! ### Grants and pins -/

/-- The grants of the mirrored blocks (R498): AOUT, SCHED, VOICE, TBLD, STRM, BDSP, SLATECTL and both windows. -/
def mirroredGrants : Nat := 0x33F40

/-- What the mode and role allow to be granted (R68). -/
def grantable (b : Block) : Nat :=
  if decide (mSTANDBY ≤ b.mode) && decide (b.mode ≤ mSAFE) then
    0x40BE + (if b.isShadow then 0 else 0x13F40 + (if b.on dMEM && trained b then 0x20000 else 0))
  else 0

/-- HIF_GRANT gains and loses bits. -/
def Block.setGrants (b : Block) (v : Nat) : Block := b.setWord rHIF_GRANT (Nat.lor v 1)

/-- The grants of the mirrored blocks are revoked on entry to SHADOW (R498). -/
def revokeMirrored (b : Block) : Block :=
  let g := b.word rHIF_GRANT
  let cut := Nat.land g mirroredGrants
  { b with pwr := { b.pwr with grantShadow := cut } }.setGrants (g - cut)

/-- They come back on leaving SHADOW, as far as the mode allows (R498). -/
def restoreMirrored (b : Block) : Block :=
  let b := b.setGrants (Nat.lor (b.word rHIF_GRANT) (Nat.land b.pwr.grantShadow (grantable b)))
  { b with pwr := { b.pwr with grantShadow := 0 } }

/-- The DAC switches of channels that would be closed open while the pins are released (R480). -/
def openPins (b : Block) : Block :=
  forN 8 (fun n b =>
    if b.flag (fDAC_STAT_CONNECTED.at n) then (b.wr (fDAC_STAT_CONNECTED.at n) 0).modDac n (fun d => { d with ready := true })
    else b) b

/-- The pins are released, as a shadow's are (R480, R518, R537). -/
def releasePins (b : Block) : Block := openPins { b with fry := { b.fry with released := true } }

/-- The pins are driven again, unless the output guard holds them (R480, R518, R519); a DAC channel connects in its RANGE (R478). -/
def drivePins (b : Block) : Block :=
  if b.flag fFERRY_STAT_GUARD then b
  else
    let b := { b with fry := { b.fry with released := false } }
    forN 8 (fun n b =>
      if (b.dac n).ready then (b.wr (fDAC_STAT_CONNECTED.at n) 1).modDac n (fun d =>
        { d with ready := false, range := if d.next.isNone then b.rd (fDAC_CFG_RANGE.at n) else d.range })
      else b) b

/-- A PRIMARY that fails pulls FRY_FAULTN low and releases its pins (R518). -/
def primaryFails (b : Block) : Block :=
  if b.isPrimary then releasePins { b with fry := { b.fry with pulls := true } } else b

/-! ### Boarding -/

def setState (n : Nat) (b : Block) : Block := b.wr fFERRY_STAT_STATE n

/-- A boarding is under way on a shadow (R507). -/
def boarding (b : Block) : Bool := b.isShadow && decide (1 ≤ ferryState b) && decide (ferryState b ≤ 5)

/-- The FERRY_BOARD that waits gets its reply. -/
def endBoard (e : End) (b : Block) : Block :=
  match b.fry.boardTok with
  | some (t, stamp) => { b with fry := { b.fry with boardTok := none } }.finish t stamp false e
  | none => b

/-- The clock that a pair shares is in use (R496, R497). -/
def clockShared (b : Block) : Bool := sourceOf 0 (actRef b 0) == 3 && locked b 0

/-- The peer reports PRIMARY with the same revision and firmware release (R5, R497). -/
def peerPrimary (b : Block) : Bool :=
  b.flag fFERRY_STAT_LINK &&
  (match b.fry.peer with
   | some (role, _, rev, rel) => role == 1 && rev == b.rd fHIF_REV_REV && rel == b.pwr.release
   | none => false)

/-- CHECKING finds a difference: no effect, STATE as before (R507). -/
def refuseBoard (r : Reason) (b : Block) : Block :=
  endBoard (refusedWith r) (setState b.fry.prior { b with fry := { b.fry with hashThenBoard := false } })

/-- Boarding starts (R507): CHECKING, a hash that is not valid being computed first. -/
def startBoarding (b : Block) : Block :=
  let b := { b with fry := { b.fry with
    prior := ferryState b, orphan := false, retry := false, crossed := [], copied := 0, stepAt := none, landAt := none
    sums := [], early := [], boardAfterAbort := false } }
  let b := setState 1 ((b.wr fFERRY_CROSS_MIB_COPIED 0).wr fFERRY_CROSS_VOICES 0)
  if b.mode ≠ mPLAY ∧ b.mode ≠ mFULL then refuseBoard .notInMode b
  else if !clockShared b then refuseBoard .clockNotShared b
  else if !peerPrimary b then refuseBoard .noPeer b
  else if b.flag fFERRY_STAT_HASH_VALID then b
  else { b with fry := { b.fry with
    hashThenBoard := true, hashing := some (b.fry.hashing.getD []) } }

/-- AUTO_BOARD boards where it may (R507). -/
def autoBoard (b : Block) : Block :=
  if b.flag fFERRY_CTRL_AUTO_BOARD && b.flag fFERRY_STAT_LINK && b.isShadow && !boarding b then startBoarding b else b

/-- A PRIMARY has nothing more to copy or to journal. -/
def endServing (b : Block) : Block :=
  { b with fry := { b.fry with journaling := false, journal := [], plan := [], copyBanks := [] } }

/-- A crossing is abandoned (R512, R521): the shadow's STATE after it is 0 or 7, which of them is left open. -/
def abandon (retry : Bool) (b : Block) : Block :=
  if boarding b then
    let (k, b) := b.fresh 521
    let b := setState (if k % 2 = 0 then 0 else 7) (stopBoarding b)
    endBoard (failedWith .notInStep []) ({ b with fry := { b.fry with retry := retry } }.raise evCROSSING_ABANDONED)
  else if b.isPrimary && ferryState b == 8 then
    (setState 0 (endServing b)).raise evCROSSING_ABANDONED
  else b

/-! ### The link (R493, R494) -/

/-- Frames can arrive. -/
def linked (b : Block) : Bool := b.flag fFERRY_STAT_LINK && b.on dFERRY

/-- A frame that arrives acknowledges what was sent, and the link takes more (R494). -/
def heard (b : Block) : Block := fillLink { b with fry := { b.fry with sent := [], replays := 0 } }

/-- FERRY_LINK_UP (R493, R517). -/
def ferryLinkUp (b : Block) : Block :=
  if b.on dFERRY && !b.flag fFERRY_STAT_LINK then autoBoard ((b.wr fFERRY_STAT_LINK 1).raise evFERRY_LINK_UP) else b

/-- The link goes down (R493, R517, R521). -/
def linkFalls (b : Block) : Block :=
  if !b.flag fFERRY_STAT_LINK then b
  else
    let b := (b.wr fFERRY_STAT_LINK 0).raise evFERRY_LINK_DOWN
    let b := abandon false { b with fry := { b.fry with sent := [], queue := [], plan := [], replays := 0, peer := none } }
    if ferryState b = 6 then
      if b.isShadow then setState 7 { b with fry := { b.fry with orphan := true, landAt := none } }
      else setState 0 { b with fry := { b.fry with landAt := none } }
    else b

/-- FRAME_REPLAY (R494): the frames held are sent again; one that has failed its third replay takes the link down. -/
def frameReplay (b : Block) : Block :=
  if !linked b || b.fry.sent.isEmpty then b
  else if 3 ≤ b.fry.replays then linkFalls b
  else { b with fry := { b.fry with replays := b.fry.replays + 1 } }.countUp fFERRY_REPLAY_COUNT 1

/-! ### Forwarded records (R500, R502, R503, R506) -/

/-- A record with its due time as a local count (R500). -/
def localRecord (b : Block) (r : EventRecord) : EventRecord :=
  { r with dueTime := BitVec.ofNat 48 (localCount b r.dueTime.toNat) }

/-- A forwarded record enters, or waits for its place; one whose boundary has opened is due now and LATE (R503). -/
def enterForwarded (r : EventRecord) (b : Block) : Bool × Block :=
  if rDue r && b.hasCome (b.boundAt r.dueTime.toNat) then enter (setFlag (setFlag r 0 false) 2 true) b.now b
  else enter r b.now b

/-- One forwarded record, already local (R503). -/
def takeForwarded (r : EventRecord) (b : Block) : Block :=
  let b := if rDue r && b.hasCome (b.boundAt r.dueTime.toNat) then b.countUp fFERRY_LATE_COUNT 1 else b
  let (done, b) := enterForwarded r b
  if done then b else { b with fry := { b.fry with waiting := b.fry.waiting ++ [r] } }

/-- EVENT (R503): a shadow that copies or is in step takes the records. -/
def eventFrame (records : List EventRecord) (b : Block) : Block :=
  if linked b && b.isShadow && decide (3 ≤ ferryState b) && decide (ferryState b ≤ 6) && b.on dEVT then
    forL records (fun r b => takeForwarded (localRecord b r) b) (heard b)
  else b

/-- The oldest forwarded record that waits is offered again (R506, R605). -/
def admitForwarded (b : Block) : Block :=
  match b.fry.waiting with
  | r :: rest =>
    let (done, b') := enterForwarded r b
    if done then { b' with fry := { b'.fry with waiting := rest } } else b'
  | [] => b

/-! ### Checksums (R514, R515) -/

/-- DIVERGENCE at a boundary (R515). -/
def diverge (k : Nat) (b : Block) : Block :=
  let b := (b.raise evDIVERGENCE).countUp fFERRY_CKSUM_FAIL_COUNT 1
  let b := (b.wr fFERRY_DIVERGE_LO_BOUNDARY k).wr fFERRY_DIVERGE_HI_BOUNDARY (k / 2 ^ 32)
  if b.isShadow then autoBoard (setState 7 { b with fry := { b.fry with landAt := none } }) else setState 0 b

/-- A peer's checksum meets the own one of its boundary. -/
def compareSums (k crc : Nat) (b : Block) : Block :=
  match b.fry.sums.lookup k with
  | some c =>
    if c ≠ crc && ferryState b == 6 && decide ((k + tideMod - b.fry.compareFrom) % tideMod < 2 ^ 47) then diverge k b else b
  | none => b

/-- CKSUM (R514): compared with the own one; one that comes before it is kept, one more than four boundaries late dropped. -/
def cksumFrame (boundary crc : Nat) (b : Block) : Block :=
  let k := localCount b boundary
  if !linked b || ferryState b ≠ 6 then b
  else if b.isPast ((k + 4 * b.period) % tideMod) && (b.fry.sums.lookup k).isNone then heard b
  else if (b.fry.sums.lookup k).isSome then compareSums k crc (heard b)
  else heard { b with fry := { b.fry with early := (b.fry.early ++ [(k, crc)]).drop (b.fry.early.length + 1 - 8) } }

/-- The own checksum of a boundary is sent, kept for five boundaries, and compared (R514). -/
def ownSum (k : Nat) (b : Block) : Block :=
  let crc := mixCksum b
  let b := sendFrame 2 (toLE 6 (b.pairCount k) ++ toLE 4 crc) b
  let b := { b with fry := { b.fry with sums := ((k, crc) :: b.fry.sums).take 5 } }
  match b.fry.early.lookup k with
  | some c => compareSums k c { b with fry := { b.fry with early := b.fry.early.filter (fun e => e.1 != k) } }
  | none => b

/-! ### STATUS (R494, R497, R506, R507, R521) -/

/-- A PRIMARY serves a shadow that boards (R507, R508): while it checks, what it compares is sent; as it begins to copy, the copy is
laid out and the wake journal begins. A hash that is not valid is computed first. -/
def serveShadow (st : Nat) (b : Block) : Block :=
  if st = 1 then
    if !b.flag fFERRY_STAT_HASH_VALID then
      { b with fry := { b.fry with hashing := some (b.fry.hashing.getD []) } }
    else if copyLeft b then b
    else fillLink (addCopy checkPlan b)
  else if 3 ≤ st ∧ !b.fry.journaling then
    fillLink (addCopy (copyPlan b) { b with fry := { b.fry with journaling := true, copyBanks := copiedBanks b } })
  else b

/-- A PRIMARY follows its shadow's STATE. -/
def followShadow (st : Nat) (b : Block) : Block :=
  let own := ferryState b
  if own = 8 then
    if st = 6 then
      setState 6 ({ endServing b with fry := { (endServing b).fry with
        credits := 256, sums := [], early := [], compareFrom := (b.lastBound + b.period) % tideMod } }.raise evCROSSING_DONE)
    else if st = 0 ∨ st = 7 then abandon false b
    else if 1 ≤ st ∧ st ≤ 5 then serveShadow st b
    else b
  else if own = 6 then if st = 6 then b else setState 0 (endServing b)
  else if 1 ≤ st ∧ st ≤ 5 then
    let b := { endServing b with fry := { (endServing b).fry with crossed := [], copied := 0 } }
    serveShadow st (setState 8 ((b.wr fFERRY_CROSS_MIB_COPIED 0).wr fFERRY_CROSS_VOICES 0))
  else b

/-- STATUS: the peer's role, state, revision and release are recorded. A shadow returns the credits of the records it has placed
(how many is left open, R506); one whose primary has stopped serving abandons. -/
def statusFrame (role state rev release : Nat) (b : Block) : Block :=
  if !linked b then b
  else
    let was := b.rd fFERRY_STAT_PEER_STATE
    let b := (heard { b with fry := { b.fry with peer := some (role, state, rev, release), missed := if b.isShadow then b.fry.missed else 0 } }).wr
      fFERRY_STAT_PEER_STATE state
    if b.isPrimary && role == 2 then
      let b := followShadow state b
      if ferryState b = 6 then
        let (k, b) := b.fresh 506
        { b with fry := { b.fry with credits := min 256 (b.fry.credits + k % (257 - b.fry.credits)) } }
      else b
    else if boarding b && was == 8 && state != 8 && state != 6 then abandon true b
    else if b.isShadow && ferryState b == 0 then autoBoard b
    else b

/-! ### Copied state (R500, R507 to R511) -/

/-- A value of the primary compared in CHECKING (R507): mode, rate and family, MCLK_IN, and last the library hash. -/
def checkWord (a v : Nat) (b : Block) : Block :=
  if ferryState b ≠ 1 then b
  else if a = rHIF_STATUS then if v % 16 = b.mode then b else refuseBoard .notInMode b
  else if a = rTIDE_STAT then
    let own := b.word rTIDE_STAT
    let fam (w : Nat) := bitsOf w fTIDE_STAT_FAMILY.hi fTIDE_STAT_FAMILY.lo
    let per (w : Nat) := bitsOf w fTIDE_STAT_PERIOD.hi fTIDE_STAT_PERIOD.lo
    if fam v ≠ fam own then refuseBoard .clockNotShared b else if per v ≠ per own then refuseBoard .notInMode b else b
  else if a = rCPR_MCLK_CFG then if v = b.word rCPR_MCLK_CFG then b else refuseBoard .clockNotShared b
  else if a = rFERRY_LIB_HASH ∧ b.flag fFERRY_STAT_HASH_VALID then
    if v = b.word rFERRY_LIB_HASH then setState 2 b
    else refuseBoard .libraryHashMismatch (b.raise evLIBRARY_MISMATCH)
  else b

/-- Every live voice has crossed (R507). -/
def allCrossed (b : Block) : Bool := (List.range 1024).all (fun v => !b.live v || b.fry.crossed.contains v)

/-- The copy is complete, and voices are swept; with none live the shadow may step in (R507). -/
def copyEnds (b : Block) : Block := if ferryState b = 3 then setState (if allCrossed b then 5 else 4) b else b

/-- COPY (R507): compared in CHECKING, installed from COPYING to STEPPING_IN; in step, a table just built (R504). -/
def copyFrame (item : CopyItem) (b : Block) : Block :=
  if !linked b || !b.isShadow then b
  else
    let b := heard b
    if ferryState b = 1 then
      match item with
      | .words a ws => ((ws.map (·.toNat)).zipIdx).foldl (fun b e => checkWord (a.toNat + 4 * e.2) e.1 b) b
      | _ => b
    else if 3 ≤ ferryState b ∧ ferryState b ≤ 5 then
      let n := b.fry.copied + itemBytes item
      let b := { b with fry := { b.fry with copied := n } }.wr fFERRY_CROSS_MIB_COPIED (n / 2 ^ 20)
      if item == .words 0 [] then copyEnds b else installItem item b
    else if ferryState b = 6 then
      match item with
      | .words a ws => installWords a.toNat (ws.map (·.toNat)) b
      | _ => b
    else b

/-- JOURNAL (R508, R509): logged writes and outcomes are applied in order. -/
def journalFrame (entries : List JournalEntry) (b : Block) : Block :=
  if linked b && b.isShadow && decide (3 ≤ ferryState b) && decide (ferryState b ≤ 5) then
    forL entries (fun e b => installEntry e.address.toNat e.data.toNat b) (heard b)
  else b

/-- A mirrored entry waits for its boundary, with its place in the order of arrival. -/
def takeMirror (at_ : Nat) (e : MirrorEntry) (b : Block) : Block :=
  let (a, b) := b.arrive b.now
  { b with fry := { b.fry with mirrors := b.fry.mirrors ++ [(at_, e, a.seq)] } }

/-- MIRROR (R500, R504, R505, R532): writes and commands wait for their boundary, their Tide values as counts here, a SET_MODE
switching on its domains meanwhile; a DAC code loads its channel at once. -/
def mirrorFrame (entries : List MirrorEntry) (b : Block) : Block :=
  if !linked b || !b.isShadow then b
  else forL entries (fun e b =>
    match e with
    | .write a v k =>
      let w := BitVec.ofNat 32 (localWord (originLow b) a.toNat v.toNat b)
      takeMirror (localCount b k.toNat) (.write a w k) b
    | .command op p k =>
      if op = 2 then
        startChange { mode := leAt p 0 1, rate := leAt p 1 1, clk := leAt p 2 1, due := localCount b k.toNat, tok := none,
                      late := false, timed := false, src := none } b
      else takeMirror (localCount b k.toNat) (.command op (moveOrigin (localCount b) op.toNat p) k) b
    | .dacCode n code => forwardedCode n code.toNat b) (heard b)

/-! ### Alignment and sweep (R499, R510, R511) -/

/-- Δ + h is stored, the Tide runs on, and copying begins (R499). -/
def endAlign (delta : Nat) (b : Block) : Block :=
  let b := (b.wr fFERRY_DELTA_LO_DELTA delta).wr fFERRY_DELTA_HI_DELTA (delta / 2 ^ 32)
  setState 3 { b with fry := { b.fry with hold := none } }

/-- ALIGN (R499): the Tide is held for h ticks. -/
def alignFrame (x : Nat) (b : Block) : Block :=
  if linked b && b.isShadow && ferryState b == 2 && b.fry.hold.isNone then
    let b := heard b
    let delta := (x + tideMod - b.fry.edge) % tideMod
    let h := (1024 - delta % 1024) % 1024
    if h = 0 then endAlign delta b
    else { b with fry := { b.fry with hold := some (h, (delta + h) % tideMod) } }.wr fTIDE_STAT_RUNNING 0
  else b

/-- ALIGN_HOLD_DONE (R499). -/
def alignHoldDone (b : Block) : Block :=
  match b.fry.hold with
  | some (_, d) => endAlign d (if b.clk.tideHeld then b else b.wr fTIDE_STAT_RUNNING 1)
  | none => b

/-- The COPY frames of a voice's 4 KiB: 32 of 128 bytes (notes/assumptions/20.md). -/
def sendVoice (v : Nat) (b : Block) : Block :=
  let x := b.voice v
  let img := voiceImage (pairVoice b x)
  forN 32 (fun i b => sendFrame 5 (toLE 1 6 ++ toLE 2 v ++ toLE 2 (128 * i) ++ (img.drop (128 * i)).take 128) b) b

/-- A voice counts as crossed (R510, R523). -/
def hasCrossed (v : Nat) (b : Block) : Block :=
  let b := { b with fry := { b.fry with crossed := if b.fry.crossed.contains v then b.fry.crossed else b.fry.crossed ++ [v] } }
  b.wr fFERRY_CROSS_VOICES b.fry.crossed.length

/-- VOICE_SWEEP (R510): a primary that serves sends the voice after its render; the shadow counts it as crossed, and steps in
when every live voice has crossed. -/
def voiceSweep (v : Nat) (b : Block) : Block :=
  if b.isPrimary then
    if ferryState b = 8 ∧ linked b ∧ b.live v ∧ slotDone b v then sendVoice v (hasCrossed v b) else b
  else if b.isShadow && (ferryState b == 3 || ferryState b == 4) && b.live v then
    let b := hasCrossed v b
    setState (if allCrossed b then 5 else 4) b
  else b

/-- CROSSING_TIMEOUT (R512, R521). -/
def crossingTimeout (b : Block) : Block := abandon true b

/-- AUTO_BOARD_RETRY (R521). -/
def autoBoardRetry (b : Block) : Block := if b.fry.retry then autoBoard { b with fry := { b.fry with retry := false } } else b

/-! ### Watching the peer and landing (R513, R516 to R520) -/

/-- An automatic trigger may land this shadow (R516, R517). -/
def mayLand (b : Block) : Bool :=
  b.isShadow && b.flag fFERRY_CTRL_AUTO_LAND &&
  (ferryState b == 6 || (b.fry.orphan && b.flag fFERRY_CTRL_LAND_STALE))

/-- HEARTBEAT (R499, R513): a device that is not PRIMARY captures its count at the edge. -/
def heartbeat (b : Block) : Block :=
  if b.isPrimary then b else { b with fry := { b.fry with missed := 0, edge := b.now } }

/-- PEER_HEARTBEAT_LOST (R513, R516). -/
def peerLost (b : Block) : Block :=
  if b.isShadow then
    let b := (b.raise evPEER_HEARTBEAT_LOST).countUp fFERRY_HB_MISS_COUNT 1
    let b := { b with fry := { b.fry with missed := b.fry.missed + 1 } }
    if decide (2 ≤ b.fry.missed) && mayLand b && b.fry.landAt.isNone then
      { b with fry := { b.fry with landAt := some (b.boundAt ((b.now + 1) % tideMod), false) } }
    else b
  else if b.isPrimary then
    let b := abandon false (b.raise evPEER_HEARTBEAT_LOST)
    setState 0 { b with fry := { b.fry with peer := none, landAt := none } }
  else b

/-- FRY_FAULTN (R516, R521): the pin is sampled low for one tick more. Two ticks running abandon a crossing, or land. -/
def fryFaultn (b : Block) : Block :=
  let n := if b.fry.lowTicks ≠ 0 ∧ (b.fry.lowAt + 1) % tideMod = (if b.tideRuns then (b.now + 1) % tideMod else b.now) then
    b.fry.lowTicks + 1 else 1
  let b := (if b.tideRuns then b.advanceTo ((b.now + 1) % tideMod) else b).wr fFERRY_STAT_FAULTN_IN 0
  let b := { b with fry := { b.fry with lowTicks := n, lowAt := b.now } }
  if n < 2 ∨ b.fry.pulls then b
  else if boarding b then abandon false b
  else if mayLand b && b.fry.landAt.isNone then
    { b with fry := { b.fry with landAt := some (b.boundAt ((b.now + 8) % tideMod), false) } }
  else b

/-- OUTPUT_GUARD (R518): it holds until the next reset. -/
def outputGuard (b : Block) : Block :=
  if b.pwr.porn || b.tideRuns then b
  else releasePins ({ b with fry := { b.fry with pulls := true } }.wr fFERRY_STAT_GUARD 1)

/-- The FERRY_LAND that waits gets its reply. -/
def endLand (k : Nat) (b : Block) : Block :=
  match b.fry.landTok with
  | some (t, _) => { b with fry := { b.fry with landTok := none } }.finish t k false (ok (toLE 6 k ++ toLE 2 0))
  | none => b

def setRole (r : Nat) (b : Block) : Block := (b.wr fHIF_STATUS_FERRY_ROLE r).wr fFERRY_CTRL_ROLE (if r = 1 then 1 else 0)

/-- A shadow lands at boundary k and becomes an unpaired PRIMARY (R519). -/
def land (k : Nat) (b : Block) : Block :=
  let b := endBoard (failedWith .notInStep []) b
  let b := { b with fry := { b.fry with orphan := false, missed := 0, credits := 256, peer := none } }
  endLand k ((drivePins (restoreMirrored (setState 9 (setRole 1 b)))).raise evLANDING)

/-- A planned swap at boundary k (R520): the roles are exchanged, and the pair stays in step. -/
def swap (k : Nat) (b : Block) : Block :=
  let b := { b with fry := { b.fry with credits := 256, missed := 0 } }
  endLand k (if b.isPrimary then openPins (revokeMirrored (setRole 2 b))
    else (drivePins (restoreMirrored (setRole 1 b))).raise evLANDING)

/-- What waits for a boundary to land does so (R516, R519, R520). -/
def landBoundary (b : Block) : Block :=
  match b.fry.landAt with
  | some (l, planned) =>
    if !b.hasCome l then b
    else
      let b := { b with fry := { b.fry with landAt := none } }
      if planned then swap b.lastBound b else if b.isShadow then land b.lastBound b else b
  | none => b

/-- LAND (R520): the peer's landing boundary of a planned swap. -/
def landFrame (boundary : Nat) (b : Block) : Block :=
  if linked b && ferryState b == 6 then
    let b' := heard b
    { b' with fry := { b'.fry with landAt := some (localCount b boundary, true) } }
  else b

/-- ABORT (R522): a shadow applies the functions and is out of step. -/
def abortFrame (f : Nat) (b : Block) : Block :=
  if linked b && b.isShadow then
    let b := doAbort f (heard b)
    let b := if boarding b then endBoard (failedWith .notInStep []) ((stopBoarding b).raise evCROSSING_ABANDONED) else b
    setState 7 { b with fry := { b.fry with landAt := none, boardAfterAbort := b.flag fFERRY_CTRL_AUTO_BOARD } }
  else b

/-- ABORT_DONE on a shadow lets boarding start again (R522). -/
def abortEnds (b : Block) : Block :=
  let owed := b.proc.abortOwed
  let b := abortDone b
  if owed && !b.proc.abortOwed && b.fry.boardAfterAbort then
    autoBoard { b with fry := { b.fry with boardAfterAbort := false } }
  else b

/-! ### Roles (R497, R498) -/

/-- EN passes roll call: the role begins. -/
def roleBegins (b : Block) : Block :=
  let b := setState 0 { b with fry := { b.fry with
    orphan := false, unpair := false, missed := 0, lowTicks := 0, landAt := none, credits := 256, sums := [], early := [] } }
  if b.flag fFERRY_CTRL_ROLE then drivePins (b.wr fHIF_STATUS_FERRY_ROLE 1)
  else autoBoard (openPins (revokeMirrored (b.wr fHIF_STATUS_FERRY_ROLE 2)))

/-- The device becomes unpaired at the boundary after EN was written 0 (R497): a SHADOW's pins stay released. -/
def unpairBoundary (b : Block) : Block :=
  if !b.fry.unpair then b
  else
    let b := abandon false { b with fry := { b.fry with unpair := false } }
    let shadow := b.isShadow
    let b := setState 0 { b with fry := { b.fry with
      journaling := false, journal := [], orphan := false, landAt := none, retry := false, released := b.fry.released || shadow } }
    let b := b.wr fHIF_STATUS_FERRY_ROLE 0
    if shadow then restoreMirrored b else b

/-- EN is written 0 (R497). -/
def roleFalls (b : Block) : Block := { b with fry := { b.fry with unpair := true } }

/-- Roll call of FERRY_CTRL.EN (R497). -/
def checkFerry (b : Block) : Option Reason :=
  let peerRole := match b.fry.peer with | some (r, _, _, _) => r | none => 0
  let role := if b.flag fFERRY_CTRL_ROLE then 1 else 2
  if b.flag fCPR_CLK_STAT_FALLBACK then some .onFallback
  else if b.mode ≠ mPLAY ∧ b.mode ≠ mFULL then some .notInMode
  else if !clockShared b then some .clockNotShared
  else if role = 2 ∧ !peerPrimary b then some .noPeer
  else if b.flag fFERRY_STAT_LINK && peerRole == role then some .roleConflict
  else none

/-- A write of FERRY_CTRL, its EN apart: ROLE is ignored while EN is 1, and a role written ends an orphan's state (R497,
R517, R519). -/
def writeFerryCtrl (v : Nat) (b : Block) : Block :=
  let en := b.rd fFERRY_CTRL_EN
  let role := if en = 1 then b.rd fFERRY_CTRL_ROLE else bitsOf v 30 30
  let b := b.put rFERRY_CTRL (putBits (putBits v 31 31 en) 30 30 role)
  if en = 1 then b
  else
    let b := { b with fry := { b.fry with orphan := false } }
    if ferryState b = 9 then setState 0 b else b

/-! ### The boundary -/

/-- A shadow has swept every voice that is live at this boundary (R507). -/
def sweepEnds (b : Block) : Block := if b.isShadow && ferryState b == 4 && allCrossed b then setState 5 b else b

/-- A shadow in STEPPING_IN steps in at this boundary where its running cores wait (R511). -/
def stepIn (k : Nat) (b : Block) : Block :=
  if b.isShadow && ferryState b == 5 && (List.range 4).all (fun c => !coreRuns b c || (b.core c).waiting) then
    let b := setState 6 ({ b with fry := { b.fry with
      stepAt := some k, compareFrom := (k + b.period) % tideMod, sums := [], early := [] } }.raise evCROSSING_DONE)
    match b.fry.boardTok with
    | some (t, _) => { b with fry := { b.fry with boardTok := none } }.finish t k false (ok (toLE 6 k ++ toLE 2 0))
    | none => b
  else b

/-- The wake journal is sent; more than its 16,384 entries abandon the crossing (R508, R521). -/
def drainJournal (b : Block) : Block :=
  let all := b.fry.journal
  if 16384 < all.length then abandon true b
  else
    let b := { b with fry := { b.fry with journal := [] } }
    forL all (fun e b => sendFrame 4 (toLE 4 e.1 ++ toLE 4 e.2.1 ++ toLE 6 (b.pairCount e.2.2)) b) b

/-- FRY_HB as a PRIMARY drives it: high for 4 ticks (R495). -/
def fryHb (b : Block) : Bool :=
  b.isPrimary && b.tideRuns && (match b.fry.hbFrom with | some k => decide ((b.now + tideMod - k) % tideMod < 4) | none => false)

/-- The heartbeat of a PRIMARY, and what it sends with it (R495, R499, R513, R514): ALIGN to a shadow that aligns. A handover
missed at the boundary fails it (R518). -/
def beat (k : Nat) (missed : Bool) (b : Block) : Block :=
  if !b.isPrimary then b
  else if missed then primaryFails b
  else
    let b := if b.mode = mFAULT then b else { b with fry := { b.fry with hbFrom := some k } }
    if b.rd fFERRY_STAT_PEER_STATE = 2 then sendFrame 9 (toLE 6 (b.pairCount k)) b else b

/-- The ferry's work at a boundary, after the close. -/
def ferryBoundary (missed : Bool) (b : Block) : Block :=
  let k := b.lastBound
  let b := sweepEnds (stepIn k (unpairBoundary (landBoundary b)))
  let b := if b.fry.pulls then b.wr fFERRY_STAT_FAULTN_IN 0
    else if b.fry.lowTicks ≠ 0 ∧ (b.fry.lowAt + 1) % tideMod = k then b else b.wr fFERRY_STAT_FAULTN_IN 1
  let b := beat k missed b
  if b.rd fHIF_STATUS_FERRY_ROLE = 0 ∨ !linked b then b
  else
    let b := ownSum k b
    let b := sendFrame 3 (toLE 1 (b.rd fHIF_STATUS_FERRY_ROLE) ++ toLE 1 (ferryState b) ++ toLE 6 (b.pairCount k)) b
    if b.isPrimary then
      let b := if b.rd fFERRY_STAT_PEER_STATE = 5 ∧ ferryState b = 8 then sendStepIn b else b
      fillLink (drainJournal b)
    else b

/-! ### Commands (R525, R526) -/

def mFerrySetRole : Meaning where
  chk p _ := if 1 < leAt p 0 1 || 1 < leAt p 1 1 || 1 < leAt p 2 1 || 3 < leAt p 3 1 then some .badField else none
  eff tok stamp p b :=
    let fl := leAt p 3 1
    let w := 2 ^ 30 * leAt p 1 1 + 2 ^ 29 * leAt p 2 1 + 2 ^ 28 * (fl % 2) + 2 ^ 27 * (fl / 2)
    let b' := writeFerryCtrl w b
    if leAt p 0 1 = 1 then enableByCommand rFERRY_CTRL tok stamp b [rFERRY_CTRL] b'
    else if enabled b rFERRY_CTRL then (ok [], roleFalls (clearEnable rFERRY_CTRL b'))
    else (ok [], clearEnable rFERRY_CTRL b')

/-- FERRY_BOARD (R507, R526). While a boarding is under way it is refused (DESIGN CHOICE, notes/assumptions/50.md). -/
def mFerryBoard : Meaning where
  chk _ b :=
    if !b.isShadow then some .notInMode
    else if !b.flag fFERRY_STAT_LINK then some .noPeer
    else if boarding b then some .busyBackpressure
    else none
  eff tok stamp _ b := (.later, startBoarding { b with fry := { b.fry with boardTok := some (tok, stamp) } })

/-- The boundary of a FERRY_LAND (R516, R520): for a swap the first at or after the due time and at least four periods away, for
a forced landing the next at or after the due time. -/
def landBound (b : Block) (planned : Bool) (due : Option Nat) : Nat :=
  let far := if planned then (b.now + 4 * b.period) % tideMod else (b.now + 1) % tideMod
  match due with
  | some d => if b.isPast d || decide (b.ahead d < b.ahead far) then b.boundAt far else b.boundAt d
  | none => b.boundAt far

/-- The refusals of FERRY_LAND (R516, R526). A device without a role counts as unpaired. -/
def landRefused (p : List Byte) (b : Block) : Option Reason :=
  if 1 < leAt p 0 1 then some .badField
  else if b.fry.landTok.isSome then some .busyBackpressure
  else if ferryState b = 6 ∧ b.rd fHIF_STATUS_FERRY_ROLE ≠ 0 then none
  else if b.isShadow then (if bit (leAt p 0 1) 0 then none else some .notInStep)
  else if b.isPrimary && ferryState b == 8 then some .notInStep
  else some .noPeer

/-- FERRY_LAND is taken (R516, R520). -/
def takeLand (tok : Tok) (due : Option Nat) (b : Block) : Block :=
  let planned := ferryState b == 6
  let l := landBound b planned due
  let b := { b with fry := { b.fry with
    landAt := some (l, planned), landTok := some ({ tok with late := due.any b.isPast }, b.now)
    landTimed := due.any (fun d => !b.isPast d) } }
  if planned then sendFrame 8 (toLE 6 (b.pairCount l)) b else b

/-- FERRY_LAND: its boundary is its own, so it is not held like other commands with a due time. -/
def ferryLand (c : Cmd) (b : Block) : Block :=
  let tok : Tok := { op := 0x0C02, tag := c.tag.toNat, noReply := c.noReply, late := false, gen := b.proc.gen }
  let due := if c.due then some c.dueTime.toNat else none
  if !b.takes then b
  else if !b.serving then
    if b.romServing then b.finish tok b.now false (refusedWith .badOpcode) else b
  else
    match (match cmdInfo 0x0C02 with | some i => precheck i c.due c.payload b | none => none) with
    | some r => b.finish tok b.now false (refusedWith r)
    | none =>
      match landRefused c.payload b with
      | some r => b.finish tok b.now false (refusedWith r)
      | none =>
        if due.any (fun d => !b.isPast d) && decide (256 ≤ b.dueHeld) then b.finish tok b.now false (refusedWith .busyBackpressure)
        else takeLand tok due b

/-- FERRY_HASH starts a hash, or waits for the one under way (DESIGN CHOICE, notes/assumptions/50.md). -/
def mFerryHash : Meaning where
  chk _ _ := none
  eff tok stamp _ b := (.later, { b with fry := { b.fry with hashing := some (b.fry.hashing.getD [] ++ [(tok, stamp)]) } })

/-- FERRY_HASH_DONE (R507): the hash is valid; the commands that wait for it reply, and a boarding goes on. -/
def ferryHashDone (b : Block) : Block :=
  match b.fry.hashing with
  | none => b
  | some cs =>
    let h := crc32c (b.lpddrBytes (libBase b) (libSize b))
    let mib := libSize b / 2 ^ 20
    let b := ((b.setWord rFERRY_LIB_HASH h).setWord (rFERRY_LIB_HASH + 4) mib).wr fFERRY_STAT_HASH_VALID 1
    let b := { b with fry := { b.fry with hashing := none, hashThenBoard := false } }
    let b := forL cs (fun c b => b.finish c.1 c.2 false (ok (toLE 4 h ++ toLE 4 mib))) b
    if b.isPrimary && ferryState b == 8 && b.rd fFERRY_STAT_PEER_STATE == 1 then serveShadow 1 b else b

/-- FERRY_STAT as it reads: the link's state is 0 while FERRY is off (R528). -/
def ferryStat (b : Block) : Nat :=
  if b.on dFERRY then b.word rFERRY_STAT else putBits (putBits (b.word rFERRY_STAT) 31 31 0) 11 8 0

def mFerryStatus : Meaning := plain (fun _ b =>
  (ok (toLE 4 (ferryStat b) ++ words4 b [rFERRY_DELTA_LO, rFERRY_DELTA_HI, rFERRY_CROSS, rFERRY_CKSUM_FAIL, rFERRY_HB_MISS,
    rFERRY_REPLAY, rFERRY_LATE, rFERRY_OWN_DROP]), b))

def execFerryLinkUp (s : State) := done ferryLinkUp s
def execFerryLinkDown (s : State) := done linkFalls s
def execFrameReplay (s : State) := done frameReplay s
def execEvent (rs : List EventRecord) (s : State) := done (eventFrame rs) s
def execCksum (boundary : Tick) (crc : Word) (s : State) := done (cksumFrame boundary.toNat crc.toNat) s
def execStatus (role state : Nat) (_boundary : Tick) (rev release : Nat) (s : State) :=
  done (statusFrame role state rev release) s
def execJournal (es : List JournalEntry) (s : State) := done (journalFrame es) s
def execCopy (item : CopyItem) (s : State) := done (copyFrame item) s
def execMirror (es : List MirrorEntry) (s : State) := done (mirrorFrame es) s
def execAbort (f : BitVec 7) (s : State) := done (abortFrame f.toNat) s
def execLand (boundary : Tick) (s : State) := done (landFrame boundary.toNat) s
def execAlign (x : Tick) (s : State) := done (alignFrame x.toNat) s
def execAlignHoldDone (s : State) := done alignHoldDone s
def execVoiceSweep (v : Nat) (s : State) := doneIf (decide (v < 1024)) (voiceSweep v) s
def execCrossingTimeout (s : State) := done crossingTimeout s
def execAutoBoardRetry (s : State) := done autoBoardRetry s
def execHeartbeat (s : State) := done heartbeat s
def execPeerHeartbeatLost (s : State) := done peerLost s
def execFryFaultn (s : State) := done fryFaultn s
def execOutputGuard (s : State) := done outputGuard s
def execFerrySetRole (c : Cmd) (s : State) := done (command 0x0C00 mFerrySetRole c) s
def execFerryBoard (c : Cmd) (s : State) := done (command 0x0C01 mFerryBoard c) s
def execFerryLand (c : Cmd) (s : State) := done (ferryLand c) s
def execFerryHash (c : Cmd) (s : State) := done (command 0x0C03 mFerryHash c) s
def execFerryStatus (c : Cmd) (s : State) := done (command 0x0C04 mFerryStatus c) s
def execFerryHashDone (s : State) := done ferryHashDone s
def execAbortDone (s : State) := done abortEnds s

end Sys2Proof.Machine
end

