-- ==== Sys2Proof/Machine/RollCall.lean ====
section
/-! DEFINITION. Roll call: what the check of each enable asks, and what an enable does when it rises or falls (02 R69 to R73,
16 R533). -/

namespace Sys2Proof.Machine

/-- The enable registers in ascending address order (R533). -/
def enableOrder : List Nat :=
  [0, 1].map (fun n => rNET_CTRL + 0x200 * n) ++ [rNET_PTP_CFG, rUSB_CTRL] ++ (List.range 8).map (fun n => rDAC_CFG + 0x10 * n) ++
  (List.range 4).map (fun p => rTDM_OUT_CFG + 0x10 * p) ++ [0, 1].map (fun i => rTDM_IN_CFG + 0x10 * i) ++
  [rSPDIF_OUT_CFG, rSPDIF_IN_CFG, rASRC_CFG, rFERRY_CTRL] ++ (List.range 64).map (fun c => rCLASS_CFG + 0x20 * c) ++
  [rSTRM_CTRL] ++ (List.range 4).map (fun c => rBDSP_CTRL + 0x1000 * c) ++ (List.range 24).map monCfg

/-- A class or stream enable, which R533 keeps where its domain is off. -/
def keptEnable (a : Nat) : Bool := blockOf a == 8 || blockOf a == 0xB

/-- The check that the chapter of an enable gives it. -/
def chapterCheck (a : Nat) (b : Block) : Option Reason :=
  match blockOf a with
  | 4 => if a = rNET_PTP_CFG then checkPtp b else checkNet b ((a - rNET_CTRL) / 0x200)
  | 5 => checkUsb b
  | 6 => checkAout a b
  | 7 => checkFerry b
  | 8 => checkClass ((a - rCLASS_CFG) / 0x20) b
  | 0xB => checkStream b
  | 0xC => checkBdsp (coreOf a) b
  | _ => checkMon ((a - monCfg 0) / 0x20) b

/-- The domain of an enable's function is off (R528). -/
def enableOff (a : Nat) (b : Block) : Bool :=
  !keptEnable a && (match enableDomain a with | some d => !b.on d | none => false)

/-- The verdict on an enable write (R70, R528). -/
def verdict (a : Nat) (b : Block) : Option Reason :=
  match chapterCheck a b with
  | some r => some r
  | none => if enableOff a b then some .domainOff else none

/-- An enable becomes 1 (R70), with what its chapter lets begin. -/
def enableRises (a : Nat) (b : Block) : Block :=
  let b := b.setEnable a true
  match blockOf a with
  | 4 => if a = rNET_PTP_CFG then b else netRises ((a - rNET_CTRL) / 0x200) b
  | 6 => if a < rTDM_OUT_CFG then dacEnabled ((a - rDAC_CFG) / 0x10) b else b
  | 7 => roleBegins b
  | 0xC => runRises (coreOf a) b
  | 0xE => monRises ((a - monCfg 0) / 0x20) b
  | _ => b

/-- An enable that reads 1 is written 0 (R70, R72); a Gralon core's RUN stays 1 until the core halts (R302). -/
def enableFalls (a : Nat) (b : Block) : Block :=
  if blockOf a = 0xC then runFalls (coreOf a) b
  else
    let b := b.setEnable a false
    match blockOf a with
    | 4 => if a = rNET_PTP_CFG then b else netFalls ((a - rNET_CTRL) / 0x200) b
    | 5 => usbDisabled b
    | 6 => if a < rTDM_OUT_CFG then dropDac ((a - rDAC_CFG) / 0x10) b else portDisabled a b
    | 7 => roleFalls b
    | 0xB => streamsOff b
    | _ => b

/-- An enable is written 0 (R70, R72): at once, and a check that waits or runs for it is cancelled. -/
def writeZero (a : Nat) (b : Block) : Block :=
  let b := cancelChecks (fun c => c.addr == a) b
  if enabled b a then enableFalls a b else b

/-- ROLLCALL_CHECK (R70, R71, R73): the check whose turn it is ends. -/
def rollcallCheck (b : Block) : Block :=
  if !b.serving then b
  else
    match b.proc.checks with
    | [] => b
    | c :: rest =>
      let b := noteChecks { b with proc := { b.proc with checks := rest } }
      match verdict c.addr b with
      | some r => refuseCheck c r b
      | none =>
        let b := if enabled b c.addr then b else enableRises c.addr b
        match c.tok with
        | some t => b.finish t c.stamp false (ok [])
        | none => b

/-- The re-check of one running enable at the change to a mode that has some domains (R533). -/
def recheckOne (domains : Nat) (a : Nat) (b : Block) : Block :=
  if !enabled b a then b
  else
    let off := !keptEnable a && (match enableDomain a with | some d => !bit domains d || !b.on d | none => false)
    match (if off then some Reason.domainOff else chapterCheck a b) with
    | some r => noteRefusal a r (enableFalls a b)
    | none => b

/-- The re-check of every running enable in ascending register address (R533); class and stream enables keep their values in
STANDBY and LISTEN. -/
def recheck (mode : Nat) (b : Block) : Block :=
  let quiet := mode = mSTANDBY ∨ mode = mLISTEN
  let ds := b.domainsOf mode
  forL enableOrder (fun a b => if quiet ∧ keptEnable a then b else recheckOne ds a b) b

def execRollcallCheck (s : State) := done rollcallCheck s

end Sys2Proof.Machine
end

