-- ==== Sys2Proof/Machine/Power.lean ====
section
/-! DEFINITION. Power domains, modes and their changes, and the resets (16 R527 to R545). -/

namespace Sys2Proof.Machine

/-! ### Domains switched off and on (R528, R529) -/

/-- The domains a mode needs beside the optional ones (R529, R530). -/
def mandatory (b : Block) (m : Nat) : Nat :=
  if m = mLITE then 0x000F else if m = mPLAY ∨ m = mFULL then 0x007F else b.domainsOf m

/-- A domain is no longer to come on. -/
def notRising (d : Nat) (b : Block) : Block :=
  { b with pwr := { b.pwr with rising := putBits b.pwr.rising d d 0 } }

/-- A domain is switched off and loses its contents (R528); the ferry link goes down first. -/
def switchOff (d : Nat) (b : Block) : Block :=
  let b := notRising d b
  if b.on d then (clearDomain d (if d = dFERRY then linkFalls b else b)).setOn d false else b

/-- An enable that stayed 1 while its domain was off lets its function begin afresh (R528). -/
def resumeEnable (d a : Nat) (b : Block) : Block :=
  if enabled b a && enableDomain a == some d && !keptEnable a && blockOf a != 7 then enableRises a b else b

/-- DOMAIN_POWER_GOOD (R528, R398, R545): the reset of a domain switched on is released, its function in its reset state. MEM
begins to train where a size is set. -/
def domainGood (d : Nat) (b : Block) : Block :=
  if !bit b.pwr.rising d then b
  else
    let b := (clearDomain d (notRising d b)).setOn d true
    let b := if d = dMEM then { b with pwr := { b.pwr with training := b.clk.memSize != 0 } } else b
    let b := forL enableOrder (resumeEnable d) b
    let b := if d = dBDSP then arriveIrqs b else if d = dCOMM then arriveTx b else b
    if d = dCORE then coreStart b else b

/-- LPDDR_TRAINED (R528). -/
def lpddrTrained (b : Block) : Block :=
  if b.pwr.training then { b with pwr := { b.pwr with training := false } }.wr fSTRM_LIB_STAT_LPDDR_TRAINED 1 else b

/-- LPDDR_TRAIN_FAIL (R579): LPDDR_TRAINED stays 0 until the next switch-on. -/
def lpddrTrainFail (b : Block) : Block :=
  if b.pwr.training then { b with pwr := { b.pwr with training := false } }.raise evLPDDR_TRAIN_FAIL else b

/-! ### Entering and leaving modes (R34, R534 to R538) -/

/-- A change of mode ends; the others stay. -/
def endChange (c : ModeChg) (e : End) (b : Block) : Block :=
  let b := { b with pwr := { b.pwr with changes := b.pwr.changes.erase c } }
  match c.tok with
  | some t => b.finish t b.lastBound c.late e
  | none => b

/-- Every change of mode taken ends without effect. -/
def endChanges (e : End) (b : Block) : Block :=
  let cs := b.pwr.changes
  forL (cs.filterMap (fun c => c.tok.map (fun t => (t, c.late)))) (fun t b => b.finish t.1 b.now t.2 e)
    { b with pwr := { b.pwr with changes := [] } }

/-- The device goes to a mode of its own accord, or as a command other than SET_MODE asks. -/
def ownChange (m : Nat) (tok : Option Tok) (b : Block) : Block :=
  startChange { mode := m, rate := b.pwr.rate, clk := b.pwr.vclk, due := b.now, tok := tok, late := false, timed := false,
                src := none } b

/-- A record held in LISTEN enters the event island at boundary c (R534): one whose time lies before it is LATE and due now. -/
def enterWake (c : Nat) (e : EventRecord × Nat) (b : Block) : Block :=
  let before := decide (0 < (c + tideMod - e.2) % tideMod) && decide ((c + tideMod - e.2) % tideMod < 2 ^ 47)
  (enter (if before then setFlag (setFlag e.1 0 false) 2 true else e.1) e.2 b).2

/-- The records held are released, or discarded with WAKE_EN at 0 (R534). -/
def releaseWake (b : Block) : Block :=
  let all := b.pwr.wake
  let b := { b with pwr := { b.pwr with wake := [] } }
  if b.flag fCPR_WAKE_CFG_WAKE_EN then forL all (enterWake b.lastBound) b else b

/-- What leaving the present mode brings: MUTE as it stood before SAFE (R535), the grants held before SELFTEST (R34). -/
def leaveMode (b : Block) : Block :=
  if b.mode = mSAFE then b.wrB fMIX_CTRL_MUTE b.pwr.muteSaved
  else if b.mode = mSELFTEST then
    match b.pwr.grantSaved with
    | some g => { b.setGrants g with pwr := { b.pwr with grantSaved := none } }
    | none => b
  else b

/-- What entering a mode brings, before MODE shows it: SAFE holds a mode and mutes (R535, R536); SELFTEST, UPDATE and FAULT revoke
every grant (R34). -/
def preEnter (m : Nat) (b : Block) : Block :=
  if m = mSAFE then
    let b := { b with pwr := { b.pwr with
      safeHeld := b.heldBy mSAFE, muteSaved := b.flag fMIX_CTRL_MUTE, wake := if b.mode = mLISTEN then [] else b.pwr.wake } }
    b.wr fMIX_CTRL_MUTE 1
  else if m = mSELFTEST then { b.setGrants 1 with pwr := { b.pwr with grantSaved := some (b.word rHIF_GRANT) } }
  else if m = mUPDATE ∨ m = mFAULT then b.setGrants 1
  else b

/-- A mode is entered. -/
def enterMode (m : Nat) (b : Block) : Block :=
  let listened := b.mode = mLISTEN
  let b := (preEnter m (leaveMode b)).wr fHIF_STATUS_MODE m
  if listened ∧ m ≠ mSAFE then releaseWake b else b

/-- FAULT is entered (R537): pins released, FRY_FAULTN low, grants revoked, every domain but AON and CORE off. -/
def enterFault (b : Block) : Block :=
  if b.mode = mFAULT then b
  else
    let b := endChanges (refusedWith .notInMode) b
    let b := releasePins { b with fry := { b.fry with pulls := true } }
    let b := enterMode mFAULT { b with pwr := { b.pwr with wake := [] } }
    forN 12 (fun i b => switchOff (i + 2) b) b

/-- PD_FAULT (R529): the domain is switched off. One that the mode needs brings FAULT; a PRIMARY fails (R518). Without CORE the
port and the Proctor stop. -/
def pdFault (d : Nat) (b : Block) : Block :=
  if b.pwr.porn || d = 0 || !(b.on d || bit b.pwr.rising d) then b
  else
    let needs := bit (mandatory b b.effMode) d
    let b := switchOff d b
    let b := primaryFails ((b.wr fCPR_PD_STAT_FAULT (putBits (b.rd fCPR_PD_STAT_FAULT) d d 1)).raise evPD_FAULT)
    let b := if needs then enterFault b else b
    if d = dCORE then
      ({ b with host := { b.host with ready := false } }.wr fHIF_STATUS_PROCTOR_RUN 0).wr fHIF_STATUS_BOOT_DONE 0
    else b

/-- THERMAL_WARN (R543): the junction's temperature, whose event holds while it is at or above WARN_AT. -/
def thermalWarn (temp : Int) (b : Block) : Block :=
  if b.pwr.porn then b else b.wr fCPR_THERM_TEMP (unsx 8 (clamp (-128) 127 temp))

/-- THERMAL_TRIP (R543): 115 °C are reached, and FAULT is entered. -/
def thermalTrip (b : Block) : Block :=
  if b.pwr.porn then b
  else
    let b := if b.rdS fCPR_THERM_TEMP < 115 then b.wr fCPR_THERM_TEMP 115 else b
    enterFault (primaryFails (b.raise evTHERMAL_TRIP))

/-- BROWNOUT_WARN (R543): the event holds while the supply stays low. -/
def brownoutWarn (b : Block) : Block := if b.pwr.porn then b else { b with pwr := { b.pwr with lowCore := true } }

/-! ### A change of mode takes effect (R532, R533) -/

/-- The rate in use after a change. -/
def newRate (b : Block) (c : ModeChg) : Nat := if isPlaying c.mode then c.rate else b.pwr.rate

/-- A change silences a voice: its seat is not live in the new configuration, or the rate changes (R532). -/
def losesSeat (b : Block) (c : ModeChg) (v : Nat) : Bool :=
  newRate b c != b.pwr.rate || !liveIn (b.heldBy c.mode) (newRate b c) v

/-- The ramp of SILENCE_VOICES with n renders left before C takes the steps that remain (R532). -/
def rampOut (c : ModeChg) (n : Nat) (b : Block) : Block :=
  { b with voices := b.voices.map (fun e =>
      if e.2.st != 0 && e.2.silence.isNone && losesSeat b c e.1 then (e.1, { e.2 with silence := some (4 - n) }) else e) }

/-- Seats become FREE at once, without their ramp, and nothing is armed there (R532). -/
def dropSeats (gone : Nat → Bool) (b : Block) : Block :=
  let vs := (b.voices.filter (fun e => e.2.st != 0 && gone e.1)).map (·.1)
  let b := forL vs (fun v b => (closeVoiceSlots b v).modVoice v (fun x => { x with waiting := none })) b
  let b := { b with sched := { b.sched with handoffs := b.sched.handoffs.filter (fun h => !gone h.victim && !gone h.reserve) } }
  forL vs freeSeat b

/-- Every domain the new mode needs is on, training included, and no self-test runs (R532). -/
def changeReady (b : Block) (c : ModeChg) : Bool :=
  let ds := b.domainsOf (b.heldBy c.mode)
  Nat.land b.pwr.rising ds == 0 && Nat.land (b.rd fCPR_PD_STAT_ON) (mandatory b (b.heldBy c.mode)) == mandatory b (b.heldBy c.mode) &&
  !(bit ds dMEM && b.pwr.training) && b.tst.bist.isNone

/-- A domain that the new mode cannot do without has faulted. -/
def changeFailed (b : Block) (c : ModeChg) : Bool :=
  let need := mandatory b (b.heldBy c.mode)
  (List.range 14).any (fun d => bit need d && !b.on d && !bit b.pwr.rising d)

/-- The domains that the mode and the changes taken need. -/
def neededDomains (b : Block) : Nat :=
  b.pwr.changes.foldl (fun n c => Nat.lor n (b.domainsOf (b.heldBy c.mode))) (b.domainsOf b.effMode)

/-- Domains that neither the mode nor a change taken needs switch off (R532, R538). UPDATE waits for the abort it began with. -/
def dropIdle (b : Block) : Block :=
  if b.mode = mUPDATE ∧ b.proc.abortOwed then b
  else
    let ds := neededDomains b
    forN 12 (fun i b => if bit ds (i + 2) then b else switchOff (i + 2) b) b

/-- The change takes effect at C, the present boundary (R532, R533, R535, R536). A device that enters STANDBY from BOOT, SELFTEST
or UPDATE in fallback with FAIL_SAFE enters SAFE holding STANDBY instead. -/
def modeTakesEffect (c : ModeChg) (b : Block) : Block :=
  let b := dropSeats (losesSeat b c) b
  let rate := newRate b c
  let changed := rate != b.pwr.rate
  let instead := c.mode = mSTANDBY ∧ (b.mode = mBOOT ∨ b.mode = mSELFTEST ∨ b.mode = mUPDATE) ∧
    b.flag fCPR_CLK_STAT_FALLBACK ∧ b.flag fCPR_CLK_CFG_FAIL_SAFE
  let b := { b with pwr := { b.pwr with
    rate := rate, vclk := if isPlaying c.mode then c.clk else b.pwr.vclk } }
  let b := b.wr fTIDE_STAT_PERIOD (periodOf rate)
  let b := enterMode (if instead then mSAFE else c.mode) b
  let b := if changed && usbOn b then { b with usb := { b.usb with clockIrq := true } } else b
  recheck b.effMode (endChange c (ok []) b)

/-- A change judged from a mode that the device has left meanwhile is judged again (R531; notes/assumptions/26.md). -/
def judgedAgain (b : Block) (c : ModeChg) : Option Reason :=
  match c.src with
  | some m => if b.mode = m then none else b.modeRefusal c.mode c.rate c.clk 0
  | none => none

/-- A change of mode at a boundary: it fails without a domain it needs, waits for its domains and its due time, and takes
effect; near enough to it the ramp begins (R532; notes/assumptions/26.md). -/
def changeStep (c : ModeChg) (b : Block) : Block :=
  if changeFailed b c then endChange c (failedWith .domainOff []) b
  else if b.hasCome c.due then
    match judgedAgain b c with
    | some r => endChange c (refusedWith r) b
    | none =>
      if b.sameMode c.mode c.rate c.clk then endChange c (ok []) b
      else if changeReady b c then modeTakesEffect c b
      else b
  else
    let n := b.ahead (b.boundAt c.due) / b.period
    if n ≤ 4 && changeReady b c then rampOut c n b else b

/-- The changes of mode at a boundary, in order, and the domains that are then not needed (R532). -/
def changeBoundary (b : Block) : Block := dropIdle (forL b.pwr.changes changeStep b)

/-- A fallback with FAIL_SAFE enters SAFE at the first boundary after FALLBACK_ACTIVE (R410, R535, R536). -/
def safeBoundary (b : Block) : Block :=
  if !b.pwr.safeAsked then b
  else
    let b := { b with pwr := { b.pwr with safeAsked := false } }
    if isPlaying b.mode || b.mode == mSTANDBY || b.mode == mLISTEN then enterMode mSAFE b else b

/-- The time from which a SET_MODE may take effect: its due time, the present where none is to come, and on a PRIMARY not
before two periods (R532). -/
def modeDue (due : Option Nat) (b : Block) : Nat :=
  let t := match due with | some d => if b.isPast d then b.now else d | none => b.now
  if b.leads then (if b.ahead t < 2 * b.period ∨ 2 ^ 47 ≤ b.ahead t then (b.now + 2 * b.period) % tideMod else t) else t

/-- SET_MODE (R66, R531, R532): judged when it is taken, in effect at C; a PRIMARY forwards it (R504). Several may wait at once,
within the bound of R64. -/
def takeMode (tok : Tok) (due : Option Nat) (p : List Byte) (b : Block) : Block :=
  let m := leAt p 0 1
  let rate := leAt p 1 1
  let clk := leAt p 2 1
  let t := modeDue due b
  let f := b.foreseen t
  let timed := due.isSome && !due.any b.isPast
  match f.modeRefusal m rate clk (leAt p 3 1) with
  | some r => b.finish tok b.now false (refusedWith r)
  | none =>
    if f.sameMode m rate clk then b.finish tok b.now (due.any b.isPast) (ok [])
    else if timed && decide (256 ≤ b.dueHeld) then b.finish tok b.now false (refusedWith .busyBackpressure)
    else
      let b := if b.leads then mirrorCommand 0x0002 (b.boundAt t) p b else b
      startChange { mode := m, rate := rate, clk := clk, due := t, tok := some tok, late := due.any b.isPast, timed := timed,
                    src := some f.mode } b

/-- SET_MODE as a command: its boundary is its own, so it is not held like other commands with a due time. -/
def setMode (c : Cmd) (b : Block) : Block :=
  let tok : Tok := { op := 0x0002, tag := c.tag.toNat, noReply := c.noReply, late := false, gen := b.proc.gen }
  if !b.takes then b
  else if !b.serving then
    if b.romServing then b.finish tok b.now false (refusedWith .badOpcode) else b
  else
    match (match cmdInfo 0x0002 with | some i => precheck i c.due c.payload b | none => none) with
    | some r => b.finish tok b.now false (refusedWith r)
    | none => takeMode tok (if c.due then some c.dueTime.toNat else none) c.payload b

/-- A write of OPT (R552): domains switch on or off at once in a playing mode. -/
def storePdOpt (opt : Nat) (b : Block) : Block :=
  let b := b.wr fCPR_PD_OPT_OPT opt
  dropIdle (powerUp (neededDomains b) b)

/-- The optional domains that an OPT value takes away while they hold an enable of 1 (R552, R554). -/
def heldBack (b : Block) (opt : Nat) : List Nat :=
  (List.range 7).filter (fun i => bit (b.rd fCPR_PD_OPT_OPT) i && !bit opt i && holdsEnable b (7 + i))

/-- A direct write of CPR_PD_OPT (R552). -/
def writePdOpt (v : Nat) (b : Block) : Block :=
  let opt := bitsOf v 13 7
  storePdOpt ((heldBack b opt).foldl (fun w i => putBits w i i 1) opt) b

def mPowerSet : Meaning where
  chk p b :=
    if leAt p 0 4 ≠ bitsOf (leAt p 0 4) 13 7 * 2 ^ 7 then some .badField
    else if !(heldBack b (bitsOf (leAt p 0 4) 13 7)).isEmpty then some .notOwner
    else none
  eff _ _ p b :=
    let b := storePdOpt (bitsOf (leAt p 0 4) 13 7) b
    (ok (toLE 4 (b.word rCPR_PD_STAT)), b)

def mPowerStatus : Meaning := plain (fun _ b =>
  (ok (words4 b [rCPR_PD_STAT, rCPR_RST_CAUSE, rCPR_THERM, rCPR_BOOT_STAT, rCPR_BOOT_SEQ]), b))

/-! ### Resets (R539 to R542, R544) -/

/-- POWER_ON_RESET (R539, R544): every domain; the Tide is 0, slate and LPDDR5 are undefined (notes/assumptions/3.md), the flash
outside the part stays. -/
def powerOnReset (brownout : Bool) (b : Block) : Block :=
  let n := { Block.reset with
    free := (tornFlash b).free, pwr := { Power.reset with flash := (tornFlash b).pwr.flash }, proc := { Proctor.reset with gen := b.proc.gen + 1 } }
  n.setWord rCPR_RST_CAUSE (if brownout then 2 else 1)

/-- PORN_RELEASE (R545): the straps are sampled. -/
def pornRelease (ferryRole bootsel : Bool) (b : Block) : Block :=
  if !b.pwr.porn then b
  else
    let b := { b with pwr := { b.pwr with porn := false } }
    ((b.wrB fFERRY_STAT_STRAP ferryRole).wrB fFERRY_CTRL_ROLE ferryRole).wrB fCPR_BOOT_STAT_BOOTSEL bootsel

/-- The fields that AON holds through a system reset (R539, R544, R571): the straps, reset causes, the fuses' marks, proven sources,
the junction, and the failed attempts to unlock. -/
def aonFields : List Fld :=
  [fFERRY_STAT_STRAP, fCPR_BOOT_STAT_BOOTSEL, fCPR_RST_CAUSE_ENGINE, fCPR_RST_CAUSE_PROCTOR, fCPR_RST_CAUSE_WDOG_SYS,
   fCPR_RST_CAUSE_COMMAND, fCPR_RST_CAUSE_SYSRSTN, fCPR_RST_CAUSE_BROWNOUT_CORE, fCPR_RST_CAUSE_BROWNOUT_AON, fCPR_RST_CAUSE_PORN,
   fSLATE_STAT_FUSE_DONE, fSLATE_STAT_FUSE_BAD, fCPR_CLK_STAT_OK, fCPR_THERM_TEMP, fCPR_IRC_TRIM_TRIM, fTEST_JTAG_STAT_BARRED,
   fTEST_JTAG_STAT_FAILS]

/-- A system reset with its cause (R539, R544): every domain but AON; slate keeps its contents, every owner NONE and no bank pinned.
While `hold` is true the part stays in reset. -/
def systemReset (cause : Fld) (hold : Bool) (b : Block) : Block :=
  let b := tornFlash (tearSlice b)
  let n := { Block.reset with
    free := b.free
    pwr := { Power.reset with
      porn := false, sysrst := hold, flash := b.pwr.flash, fusesLoaded := b.pwr.fusesLoaded, lowCore := b.pwr.lowCore }
    proc := { Proctor.reset with gen := b.proc.gen + 1 }
    clk := { Clocks.reset with backupOsc := b.clk.backupOsc }
    slate := { Slate.reset with mem := b.slate.mem, hurt := b.slate.hurt, steered := b.slate.steered } }
  let n := forL aonFields (fun f n => n.wr f (b.rd f)) n
  let n := (n.wr cause 1).wr fFERRY_CTRL_ROLE (b.rd fFERRY_STAT_STRAP)
  let n := forL [1, 2, 3] (fun s n => if sourceOn n s then n else n.setProven s false) n
  let n := if proven n 0 then n.setOn dCORE true else n
  if n.pwr.fusesLoaded then applyFuses n else n

/-- SYSTEM_RESET (R539): SYSRSTN falls, or VDD core browns out. -/
def systemResetPin (brownout : Bool) (b : Block) : Block :=
  if b.pwr.porn then b
  else systemReset (if brownout then fCPR_RST_CAUSE_BROWNOUT_CORE else fCPR_RST_CAUSE_SYSRSTN) true b

/-- SYSTEM_RESET_RELEASE (R539, R545): the boot sequence begins. -/
def systemResetRelease (b : Block) : Block :=
  if b.pwr.porn then b else coreStart { b with pwr := { b.pwr with sysrst := false, lowCore := false } }

/-- RESET (R66, R541): SYSTEM and PROCTOR send no reply; ENGINE waits for the abort 0x1F. -/
def mReset : Meaning where
  chk p _ := if 2 < leAt p 0 1 then some .badField else none
  eff tok stamp p b :=
    match leAt p 0 1 with
    | 0 => (.later, systemReset fCPR_RST_CAUSE_COMMAND false b)
    | 1 =>
      let b := abortHere 0x1F b
      (.later, { b with proc := { b.proc with engineReset := b.proc.engineReset ++ [(tok, stamp)] } })
    | _ => (.later, restartProctor b)

/-- WDOG_PROCTOR (R542, R518): the armed watchdog expires for the first time. -/
def wdogFirst (b : Block) : Block :=
  if b.pwr.wdogArmed && b.pwr.wdog == 0 then
    primaryFails ({ b with pwr := { b.pwr with wdog := 1 } }.raise evWDOG_PROCTOR)
  else b

/-- WATCHDOG_SECOND_EXPIRY (R542). -/
def wdogSecond (b : Block) : Block :=
  if b.pwr.wdogArmed && b.pwr.wdog != 0 then
    if b.flag fCPR_RST_CFG_WDOG_SYS then systemReset fCPR_RST_CAUSE_WDOG_SYS false b else restartProctor b
  else b

def execDomainPowerGood (d : Nat) (s : State) := doneIf (decide (d < 14)) (domainGood d) s
def execPdFault (d : Nat) (s : State) := doneIf (decide (d < 14)) (pdFault d) s
def execLpddrTrained (s : State) := done lpddrTrained s
def execLpddrTrainFail (s : State) := done lpddrTrainFail s
def execThermalWarn (temp : Int) (s : State) := done (thermalWarn temp) s
def execThermalTrip (s : State) := done thermalTrip s
def execBrownoutWarn (s : State) := done brownoutWarn s
def execWdogProctor (s : State) := done wdogFirst s
def execWatchdogSecondExpiry (s : State) := done wdogSecond s
def execPowerOnReset (brownout : Bool) (s : State) := done (powerOnReset brownout) s
def execPornRelease (ferryRole bootsel : Bool) (s : State) := done (pornRelease ferryRole bootsel) s
def execSystemReset (brownout : Bool) (s : State) := done (systemResetPin brownout) s
def execSystemResetRelease (s : State) := done systemResetRelease s
def execSetMode (c : Cmd) (s : State) := done (setMode c) s
def execReset (c : Cmd) (s : State) := done (command 0x0006 mReset c) s
def execPowerSet (c : Cmd) (s : State) := done (command 0x0A10 mPowerSet c) s
def execPowerStatus (c : Cmd) (s : State) := done (command 0x0A11 mPowerStatus c) s

end Sys2Proof.Machine
end

