-- ==== Sys2Proof/Machine/Boot.lean ====
section
/-! DEFINITION. Boot and firmware update (02 R77; 12 R437; 16 R545 to R551, R553, R554; 17 R571). -/

namespace Sys2Proof.Machine

/-! ### The flash (R547, R548) -/

/-- The most bytes of a body (R548). -/
def bodyMax : Nat := 1044480

/-- The signing public key. -/
def signKey (b : Block) : List Byte := b.flashBytes 0x100 64

/-- LENGTH, VERSION, DIGEST and SIGNATURE, as a header holds them from byte 8 and UPDATE_END carries them, and a body pass: the
key's hash is the fused one, the signature holds over the first 40 bytes, and the digest is the body's (R549). -/
def imageOk (b : Block) (fields body : List Byte) : Bool :=
  decide (leAt fields 0 4 ≤ bodyMax) && decide (sha256 (signKey b) = bootKeyHash) &&
  signedBy (signKey b) ((fields.drop 40).take 64) (fields.take 40) && decide (sha256 body = (fields.drop 8).take 32)

/-- A slot is valid (R549). -/
def slotValid (b : Block) (slot : Nat) : Bool :=
  let h := b.flashBytes (slotBase slot) 256
  decide (leAt h 0 4 = 0x4F564657) && decide (leAt h 252 4 = crc32c (h.take 252)) && decide (leAt h 4 4 ≠ 0xFFFFFFFF) &&
  imageOk b ((h.drop 8).take 104) (b.flashBytes (slotBase slot + 0x1000) (min bodyMax (leAt h 8 4)))

/-- SEQ of a slot. -/
def slotSeq (b : Block) (slot : Nat) : Nat := leAt (b.flashBytes (slotBase slot + 4) 4) 0 4

/-- The slot that boots: the valid one with the greater SEQ, A where they are equal (R549). -/
def bootSlot (b : Block) : Option Nat :=
  match slotValid b 0, slotValid b 1 with
  | true, true => some (if slotSeq b 0 < slotSeq b 1 then 1 else 0)
  | true, false => some 0
  | false, true => some 1
  | false, false => none

/-! ### Boot (R545, R546, R549) -/

/-- The boot ROM starts an image: the watchdog is armed (R542), and the TAP stays locked unless the fuses of the unlock-key hash
are blank (R571). -/
def startImage (version : Nat) (b : Block) : Block :=
  let b := { b with pwr := { b.pwr with release := version, wdog := 0, wdogArmed := true } }
  (b.wr fCPR_BOOT_STAT_ROM_STATE 2).wrB fTEST_JTAG_STAT_LOCKED (!unlockKeyHash.all (· == 0))

/-- The boot ROM reads the flash: it starts the image of a valid slot, or waits for the host (R546, R549). -/
def flashBoot (b : Block) : Block :=
  match bootSlot b with
  | some slot =>
    let b := startImage (leAt (b.flashBytes (slotBase slot + 12) 4) 0 4) b
    (b.wr fCPR_BOOT_STAT_SLOT slot).wr fCPR_BOOT_SEQ_SEQ (slotSeq b slot)
  | none => b.wr fCPR_BOOT_STAT_ROM_STATE 1

/-- Sildacen serves the mailboxes: NMI-class events that waited reach it (R406, R581), and out of BOOT it enters STANDBY (R545). -/
def serve (b : Block) : Block :=
  let b := noteChecks { b.wr fHIF_STATUS_BOOT_DONE 1 with proc := { b.proc with nmi := [] }, pwr := { b.pwr with wdog := 0, wdogArmed := true } }
  if b.mode = mBOOT ∧ b.pwr.changes.isEmpty then
    ownChange mSTANDBY none b
  else b

/-- The Proctor runs again after a restart (R77). DESIGN CHOICE, notes/assumptions/46.md: the table has no row for the moment at which it
runs again before it serves, so PROCTOR_RUN rises, and PROCTOR_RESTARTING falls, with BOOT_DONE. -/
def proctorRuns (b : Block) : Block :=
  if b.flag fHIF_ABORT_STAT_PROCTOR_RESTARTING then
    (b.wr fHIF_STATUS_PROCTOR_RUN 1).wr fHIF_ABORT_STAT_PROCTOR_RESTARTING 0
  else b

/-- BOOT_DONE (R77, R412, R545): the boot ROM chooses and starts an image where none has been started, and Sildacen serves. -/
def bootDone (b : Block) : Block :=
  if b.pwr.porn || b.pwr.sysrst || !b.on dCORE || !portsServe b || b.flag fHIF_STATUS_BOOT_DONE then b
  else
    let b := proctorRuns b
    let b := if b.rd fCPR_BOOT_STAT_ROM_STATE = 0 then flashBoot b else b
    if b.rd fCPR_BOOT_STAT_ROM_STATE = 2 then serve b else b

/-- BOOT_WRITE (R546): only the boot ROM accepts it. -/
def mBootWrite : Meaning where
  chk p b :=
    if !b.romServing then some .notInMode
    else if 2 ^ 19 < leAt p 0 4 + (p.length - 4) then some .badField
    else none
  eff _ _ p b := (ok [], { b with pwr := { b.pwr with bootRam := smWriteAll (fun _ => 0) b.pwr.bootRam (leAt p 0 4) (p.drop 4) } })

/-- BOOT_RUN (R549): the image in the Proctor's RAM is verified as a slot is, and started. -/
def mBootRun : Meaning where
  chk p b :=
    if !b.romServing then some .notInMode
    else if leAt p 0 4 ≤ 2 ^ 19 ∧ imageOk b p (smRange (fun _ => 0) b.pwr.bootRam 0 (min (2 ^ 19) (leAt p 0 4))) then none
    else some .unsignedImage
  eff _ _ p b := (ok [], (startImage (leAt p 4 4) b).wr fCPR_BOOT_STAT_HOST_BOOT 1)

/-! ### Update (R538, R550, R554) -/

/-- UPDATE is entered at once (R34, R538): the abort 0x1F runs, COMM comes on, and other domains go at the boundary after it. -/
def enterUpdate (b : Block) : Block :=
  let b := doAbort 0x1F (endChanges (refusedWith .notInMode) b)
  let b := if b.mode = mUPDATE then b else enterMode mUPDATE { b with pwr := { b.pwr with wake := [] } }
  powerUp (b.domainsOf mUPDATE) b

/-- The update's state changes. -/
def Block.setUpdate (b : Block) (f : Update → Update) : Block := { b with pwr := { b.pwr with update := f b.pwr.update } }

/-- An update begins: the target is the slot that was not booted, and SEQ follows the booted one (R550). -/
def freshUpdate (b : Block) (state len : Nat) : Update :=
  { state := state, length := len, seq := b.rd fCPR_BOOT_SEQ_SEQ + 1, target := 1 - b.rd fCPR_BOOT_STAT_SLOT, waiting := none,
    dfu := none }

/-- A length and the booted SEQ allow an update (R554). -/
def lengthOk (b : Block) (len : Nat) : Bool :=
  decide (0 < len) && decide (len ≤ bodyMax) && b.rd fCPR_BOOT_SEQ_SEQ != 0xFFFFFFFE

/-- UPDATE_BEGIN (R550). An update command that finds another waiting for the flash is refused (DESIGN CHOICE,
notes/assumptions/50.md). -/
def mUpdateBegin : Meaning where
  chk p b :=
    if b.mode = mBOOT ∨ b.mode = mSELFTEST ∨ b.mode = mFAULT then some .notInMode
    else if b.flag fFERRY_CTRL_EN then some .roleConflict
    else if !lengthOk b (leAt p 0 4) then some .badField
    else if b.pwr.update.waiting.isSome then some .busyBackpressure
    else none
  eff tok _ p b :=
    let b := enterUpdate b
    (.later, b.setUpdate (fun _ => { freshUpdate b 1 (leAt p 0 4) with waiting := some (tok, p) }))

/-- The body is being written (R550). -/
def writing (b : Block) : Bool := b.mode == mUPDATE && b.pwr.update.state == 2 && b.pwr.update.dfu.isNone

def mUpdateData : Meaning where
  chk p b :=
    if !writing b then some .notInMode
    else if b.pwr.update.length < leAt p 0 4 + (p.length - 4) then some .badField
    else if b.pwr.update.waiting.isSome then some .busyBackpressure
    else none
  eff tok _ p b := (.later, b.setUpdate (fun u => { u with waiting := some (tok, p) }))

def mUpdateEnd : Meaning where
  chk _ b :=
    if !writing b then some .notInMode
    else if b.pwr.update.waiting.isSome then some .busyBackpressure
    else none
  eff tok _ p b := (.later, b.setUpdate (fun u => { u with state := 3, waiting := some (tok, p) }))

/-- The body that stands in the target passes the digest and signature of UPDATE_END (R550). -/
def targetOk (b : Block) (fields : List Byte) : Bool :=
  imageOk b fields (b.flashBytes (slotBase b.pwr.update.target + 0x1000) (min bodyMax (leAt fields 0 4)))

/-- A flash operation ends FAILED with a flash error (R554). -/
def flashFailed (tok : Tok) (b : Block) : Block := (b.raise evFLASH_ERR).finish tok b.now false (failedWith .aborted [])

/-- The erase of UPDATE_BEGIN ends (R550). -/
def eraseDone (error : Bool) (tok : Tok) (b : Block) : Block :=
  let u := b.pwr.update
  let n := sectorsFor u.length
  if error then flashFailed tok (b.setUpdate (fun u => { u with state := 0 }))
  else
    ((eraseFlash (slotBase u.target) n b).setUpdate (fun u => { u with state := 2 })).finish tok b.now false
      (ok (toLE 1 u.target ++ toLE 3 0 ++ toLE 4 u.seq))

/-- The programming of UPDATE_DATA ends. -/
def programDone (error : Bool) (tok : Tok) (p : List Byte) (b : Block) : Block :=
  let at_ := slotBase b.pwr.update.target + 0x1000 + leAt p 0 4
  if error then flashFailed tok b
  else (programFlash at_ (p.drop 4) b).finish tok b.now false (ok [])

/-- The read-back of UPDATE_END ends, and the header is programmed where the image passes (R550). -/
def headerDone (error : Bool) (tok : Tok) (p : List Byte) (b : Block) : Block :=
  let u := b.pwr.update
  let b := b.setUpdate (fun u => { u with state := 2 })
  if error then flashFailed tok b
  else if targetOk b p then
    ((programFlash (slotBase u.target) (headerPage u p) b).setUpdate (fun u => { u with state := 4 })).finish tok b.now false
      (ok (toLE 4 u.seq))
  else b.finish tok b.now false (refusedWith .unsignedImage)

/-- FLASH_OPERATION_DONE (R550, R554); a flash error cuts the operation short. -/
def flashDone (error : Bool) (b : Block) : Block :=
  match b.pwr.update.waiting with
  | none => b
  | some (tok, p) =>
    let b := (if error then tornFlash b else b).setUpdate (fun u => { u with waiting := none })
    if tok.op = 0x0F00 then eraseDone error tok b
    else if tok.op = 0x0F01 then programDone error tok p b
    else headerDone error tok p b

/-- UPDATE_ACTIVATE (R539, R554): a system reset at its boundary; no reply survives it. -/
def mUpdateActivate : Meaning where
  chk _ b := if b.mode = mUPDATE ∧ b.pwr.update.state = 4 then none else some .notInMode
  eff _ _ _ b := (.later, systemReset fCPR_RST_CAUSE_COMMAND false b)

/-- UPDATE_CANCEL (R554): back to STANDBY, the target left invalid: its header's sector is erased, wherever the update had come. -/
def mUpdateCancel : Meaning where
  chk _ b :=
    if b.mode ≠ mUPDATE ∨ !b.pwr.changes.isEmpty then some .notInMode else none
  eff tok _ _ b :=
    let u := b.pwr.update
    let b := match u.waiting with
      | some (t, _) => (tornFlash b).finish t b.now false cancelled
      | none => b
    let b := if u.state = 0 then b else eraseFlash (slotBase u.target) 1 b
    let b := b.setUpdate (fun _ => Update.reset)
    (.later, ownChange mSTANDBY (some tok) b)

/-- SEQ of a slot, 0xFFFF_FFFF where it is not valid (R553). -/
def seqShown (b : Block) (slot : Nat) : Nat := if slotValid b slot then slotSeq b slot else 0xFFFFFFFF

def mUpdateStatus : Meaning := plain (fun _ b =>
  (ok (toLE 1 (b.rd fCPR_BOOT_STAT_SLOT) ++ toLE 1 b.pwr.update.state ++ toLE 2 0 ++ toLE 4 (seqShown b 0) ++ toLE 4 (seqShown b 1)),
   b))

/-! ### DFU (R437, R538, R554) -/

/-- The latest DFU request is stalled, or not. -/
def dfuStall (v : Bool) (b : Block) : Block := { b with usb := { b.usb with stalled := v } }

/-- DFU_DETACH (R437, R538): UPDATE is entered, unless UPDATE_BEGIN would be refused. -/
def dfuDetach (b : Block) : Block :=
  if !usbOn b || !b.serving then b
  else if b.flag fFERRY_CTRL_EN || b.mode == mBOOT || b.mode == mSELFTEST || b.mode == mFAULT || b.pwr.update.waiting.isSome then
    dfuStall true b
  else
    let b := dfuStall false (enterUpdate b)
    b.setUpdate (fun _ => { freshUpdate b 0 0 with dfu := some [] })

/-- The fields at the head of a download are complete: the target is erased (R550). -/
def dfuFields (all : List Byte) (b : Block) : Block :=
  let u := b.pwr.update
  if u.state = 0 ∧ 104 ≤ all.length then
    (eraseFlash (slotBase u.target) (sectorsFor (leAt all 0 4)) b).setUpdate (fun u => { u with state := 2, length := leAt all 0 4 })
  else b

/-- DFU_DOWNLOAD (R437, R554): the fields of UPDATE_END, then the body. -/
def dfuDownload (bytes : List Byte) (b : Block) : Block :=
  if !usbOn b then b
  else
    match b.pwr.update.dfu with
    | none => dfuStall true b
    | some got =>
      let all := got ++ bytes
      if 3 ≤ b.pwr.update.state || decide (4096 < bytes.length) ||
          (decide (104 ≤ all.length) && (!lengthOk b (leAt all 0 4) || decide (leAt all 0 4 + 104 < all.length))) then dfuStall true b
      else
        let b := dfuStall false (dfuFields all b)
        let b := programFlash (slotBase b.pwr.update.target + 0x1000 + (got.length - 104)) (bytes.drop (104 - got.length)) b
        b.setUpdate (fun u => { u with dfu := some all })

/-- DFU_MANIFEST (R554): UPDATE_END on what has been downloaded. -/
def dfuManifest (b : Block) : Block :=
  if !usbOn b then b
  else
    match b.pwr.update.dfu with
    | none => dfuStall true b
    | some all =>
      if b.pwr.update.state = 2 ∧ targetOk b (all.take 104) then
        let u := b.pwr.update
        dfuStall false ((programFlash (slotBase u.target) (headerPage u all) b).setUpdate (fun u => { u with state := 4 }))
      else dfuStall true b

def execBootDone (s : State) := done bootDone s
def execDfuDetach (s : State) := done dfuDetach s
def execDfuDownload (bytes : List Byte) (s : State) := done (dfuDownload bytes) s
def execDfuManifest (s : State) := done dfuManifest s
def execUpdateBegin (c : Cmd) (s : State) := done (command 0x0F00 mUpdateBegin c) s
def execUpdateData (c : Cmd) (s : State) := done (command 0x0F01 mUpdateData c) s
def execUpdateEnd (c : Cmd) (s : State) := done (command 0x0F02 mUpdateEnd c) s
def execFlashOperationDone (error : Bool) (s : State) := done (flashDone error) s
def execUpdateActivate (c : Cmd) (s : State) := done (command 0x0F03 mUpdateActivate c) s
def execUpdateCancel (c : Cmd) (s : State) := done (command 0x0F04 mUpdateCancel c) s
def execUpdateStatus (c : Cmd) (s : State) := done (command 0x0F05 mUpdateStatus c) s
def execBootWrite (c : Cmd) (s : State) := done (command 0x0F10 mBootWrite c) s
def execBootRun (c : Cmd) (s : State) := done (command 0x0F11 mBootRun c) s

end Sys2Proof.Machine
end

