-- ==== Sys2Proof/Machine/HostWrite.lean ====
section
/-! DEFINITION. Words written by the host: mailboxes, registers and windows, grants, the write buffer (02 R32 to R62, R70; 15
R504, R508; 16 R528). -/

namespace Sys2Proof.Machine

/-! ### A word reaches a register -/

/-- The host sets RING bits (R57, R61): those newly set are rung in order, lower mailboxes first. -/
def ring (v : Nat) (b : Block) : Block :=
  let old := b.rd fHIF_DOORBELL_IN_RING
  let new := (List.range 8).filter (fun n => bit v n && !bit old n)
  { b with proc := { b.proc with rung := b.proc.rung ++ new } }.wr fHIF_DOORBELL_IN_RING (Nat.lor old (bitsOf v 7 0))

/-- The host returns reply mailboxes, and waiting replies move into them (R57, R62). -/
def returnMailboxes (v : Nat) (b : Block) : Block := (b.put rHIF_DOORBELL_OUT v).drainReplies 64

/-- The host clears pending events (R56); what is held sets again at once (R577), and so does what hardware sets in the same cycle
(R10): its row, and EVENT_PENDING_CLEAR's own mask, come after the clear (notes/assumptions/43.md). -/
def clearPending (n v : Nat) (b : Block) : Block :=
  { b with ev := { b.ev with pend := b.ev.pend &&& ~~~ (BitVec.ofNat 224 (v % 2 ^ 32 * 2 ^ (32 * n))) } }

/-- The host writes an event enable register (R56). -/
def writeEventEnable (n v : Nat) (b : Block) : Block :=
  { b with ev := { b.ev with en := BitVec.ofNat 224 (putBits b.ev.en.toNat (32 * n + 31) (32 * n) v) } }

/-- A word written to the HIF block (R54). -/
def writeHif (a v : Nat) (b : Block) : Block :=
  if a = rHIF_DOORBELL_IN then ring v b
  else if a = rHIF_DOORBELL_OUT then returnMailboxes v b
  else if a = rHIF_ABORT then writeAbort v b
  else if 0x40 ≤ a ∧ a ≤ 0x58 then clearPending ((a - 0x40) / 4) v b
  else if 0x60 ≤ a ∧ a ≤ 0x78 then writeEventEnable ((a - 0x60) / 4) v b
  else b.put a v

/-- A word written to the CPR block (R394 to R413, R552). -/
def writeCpr (a v : Nat) (b : Block) : Block :=
  if a = rCPR_CLK_CFG then writeClkCfg v b
  else if a = rCPR_APLL_CFG then writeApllCfg v b
  else if a = rCPR_MCLK_CFG then writeMclkCfg v b
  else if a = rCPR_IRC_TRIM then writeIrcTrim v b
  else if a = rCPR_PD_OPT then writePdOpt v b
  else b.put a v

/-- A word written to the TIDE block (R370, R376, R382, R387). -/
def writeTide (a v : Nat) (b : Block) : Block :=
  if isCompareReg a then (if (regAt a).isSome then sendCompare a v b else b)
  else if a = rBELL_CFG then bellCfgWrite v b
  else if rTIDE_CAP_CFG ≤ a ∧ a < rTIDE_CAP_CFG + 0x80 ∧ a % 0x10 = rTIDE_CAP_CFG % 0x10 then writeCapCfg ((a - rTIDE_CAP_CFG) / 0x10) v b
  else if rTIO_CFG ≤ a ∧ a < rTIO_CFG + 32 then storeTio ((a - rTIO_CFG) / 4) v b
  else if a = rTIDE_CTRL then noteFrozen (b.put a v)
  else b.put a v

/-- A word written to the SER block (R438). -/
def writeSer (a v : Nat) (b : Block) : Block :=
  let n := (a - rSER_CFG) / 0x40
  let o := a % 0x40
  if 5 ≤ n then b
  else if o = rSER_CFG % 0x40 then writeSerCfg n v b
  else if o = rSER_DIV % 0x40 then writeSerDiv n v b
  else if o = rSER_TXDATA % 0x40 then writeTx n v b
  else b.put a v

/-- A word written to the USB block (R439). -/
def writeUsb (a v : Nat) (b : Block) : Block :=
  if a = rUSB_CTRL then putIdle a v b
  else if a = rUSB_ID then (if b.flag fUSB_CTRL_EN then b else b.put a v)
  else b.put a v

/-- A word written to the AOUT block (R285, R473, R478, R487). -/
def writeAoutBlock (a v : Nat) (b : Block) : Block :=
  if 0x68000 ≤ a then writeMix a v b
  else if a = rDAC_STROBE then writeStrobe v b
  else if rDAC_CFG ≤ a ∧ a < rDAC_CFG + 0x80 ∧ a % 0x10 = rDAC_CFG % 0x10 then writeDacCfg ((a - rDAC_CFG) / 0x10) v b
  else if rDAC_CODE ≤ a ∧ a < rDAC_CODE + 0x80 ∧ a % 0x10 = rDAC_CODE % 0x10 then writeDacCode ((a - rDAC_CODE) / 0x10) v b
  else if isEnable a then putIdle a v b
  else b.put a v

/-- A word written to the SCHED block (R171, R208, R211). -/
def writeSched (a v : Nat) (b : Block) : Block :=
  let c := (a - rCLASS_CFG) / 0x20
  if rCLASS_CFG ≤ a ∧ c < 64 ∧ a % 0x20 = rCLASS_CFG % 0x20 then writeClassCfg c v b
  else if rCLASS_CFG ≤ a ∧ c < 64 ∧ (a % 0x20 = rCLASS_BLOCKS % 0x20 ∨ a % 0x20 = (rCLASS_BLOCKS + 4) % 0x20) then
    writeClassBlocks c a v b
  else if a = rSCHED_NOTE_ID_NEXT then writeNoteId v b
  else if a = rSCHED_TRACE_BASE then writeTraceBase v b
  else if a = rSCHED_TRACE_CFG then writeTraceCfg v b
  else if rSCHED_RULE_W0 ≤ a ∧ a < rSCHED_RULE_W0 + 0x1000 then writeRule a v b
  else b.put a v

/-- A word written to the VOICE block (R159, R163). -/
def writeVoice (a v : Nat) (b : Block) : Block :=
  if rVOICE_HPARAM ≤ a ∧ a < rVOICE_HPARAM + 128 then writeHparam ((a - rVOICE_HPARAM) / 4) v b
  else if a = rVOICE_BEAT_ORIGIN_HI then writeOriginHi v b
  else b.put a v

/-- A word written to the STRM block (R248), ENABLE apart. -/
def writeStrm (a v : Nat) (b : Block) : Block :=
  if a = rSTRM_CTRL then b.put a (putBits v 31 31 (b2n (enabled b a)))
  else if a = rSTRM_CFG ∨ a = rSTRM_RING_BANK then writeStrmCfg a v b
  else b.put a v

/-- A word written to the TEST block (R567, R568). -/
def writeTest (a v : Nat) (b : Block) : Block :=
  if a = rTEST_SNAP then writeSnap v b
  else if monCfg 0 ≤ a ∧ a < monCfg 24 then writeMon ((a - monCfg 0) / 0x20) a v b
  else b.put a v

/-- A word written to a register, a roll-called enable apart. -/
def storeWord (a v : Nat) (b : Block) : Block :=
  match blockOf a with
  | 0 => writeHif a v b
  | 1 => writeCpr a v b
  | 2 => writeTide a v b
  | 3 => writeSer a v b
  | 4 => writeNet a v b
  | 5 => writeUsb a v b
  | 6 => writeAoutBlock a v b
  | 7 => if a = rFERRY_CTRL then writeFerryCtrl v b else b.put a v
  | 8 => writeSched a v b
  | 9 => writeVoice a v b
  | 0xB => writeStrm a v b
  | 0xC => writeBdsp a v b
  | 0xE => writeTest a v b
  | _ => b.put a v

/-- A word written to a register (R9, R12, R70 to R72): the fields beside a roll-called enable, then a 0 to the enable, which
takes effect at once, a restart of a check that runs for another enable of the block, and a 1, which starts a check unless one
of that enable waits or runs already. -/
def writeReg (a v : Nat) (b : Block) : Block :=
  let had := checking b a
  let b := storeWord a v b
  if isEnable a && !bit v 31 then
    let own := (b.proc.checks.head?.map (fun c => c.addr == a)).getD false
    let b := writeZero a b
    if own then b else restartCheck a b
  else
    let b := restartCheck a b
    if isEnable a && !had then startCheck a none b.now [] b else b

/-! ### A word reaches a window -/

/-- The LPDDR5 byte that a window address names (R53). -/
def pageByte (b : Block) (a : Nat) : Nat := b.rd fHIF_LPDDR_PAGE_PAGE * 2 ^ 31 + (a - 0x80000000)

/-- A window access to an LPDDR5 byte reaches it (R53). -/
def lpddrReached (b : Block) (o : Nat) : Bool :=
  b.on dMEM && b.flag fSTRM_LIB_STAT_LPDDR_TRAINED && decide (o < fittedBytes b)

/-- The LPDDR5 byte that a window address maps to, where R53 lets the access reach it. -/
def lpddrAt (b : Block) (a : Nat) : Option Nat :=
  if lpddrReached b (pageByte b a) then some (pageByte b a) else none

/-- A word stored to LPDDR5 through its window; the library hash is no longer valid (R507). -/
def storeLpddr (o v : Nat) (b : Block) : Block := hashStale (b.setLpddr o (toLE 4 v))

/-- Two cycles in which the other port does nothing. -/
def noMeet : TwoCycles := { first := .none, second := .none }

/-- A word written by port B to slate, with what port A does in its two cycles, a read of the storage word and its write (R343,
R349, R350, R358): whether it landed. -/
def portBStore (o v : Nat) (portA : TwoCycles) (b : Block) : Bool × Block :=
  if !b.flag fSLATE_STAT_FUSE_DONE || borrowed b (bankOf o) then (false, b)
  else
    match portA.first with
    | .write d => (false, portAStore (o / 8 * 8) (toLE 8 d.toNat) (collision 1 o b))
    | _ =>
      let w := mergedWord b o v
      let b := checkMerge o b
      match portA.second with
      | .none => (true, portAStore o (toLE 4 v) b)
      | .read =>
        let (x, b) := b.freshWord
        (false, collision 1 o { b with slate := { b.slate with readOut := x } })
      | .write d =>
        let b := portAStore (o / 8 * 8) (toLE 8 d.toNat) b
        if d.toNat = w then (true, b) else (false, collision 0 o b)

/-- The window address of an LPDDR5 byte, in its page. -/
def windowOf (o : Nat) : Nat := 0x80000000 + o % 2 ^ 31

/-- A word takes effect at its address as the pair names it, its grant and window judged before: on the device itself, which reports a
window access that reaches nothing (R53), or as a MIRROR entry applied here (R504, R508). -/
def applyWord (own : Bool) (a v : Nat) (b : Block) : Block :=
  if 0x80000000 ≤ a then
    let o := 4 * (a - 0x80000000)
    if lpddrReached b o then logJournal a v (storeLpddr o v b)
    else if own then b.discardWord [fHIF_HOST_STAT_WINDOW_UNMAPPED] (windowOf o) b.host.txnNext
    else b
  else if 0x02000000 ≤ a ∧ a < 0x04000000 then
    let (landed, b) := portBStore (a - 0x02000000) v noMeet b
    if landed || !own then b else b.discardWord [] a b.host.txnNext
  else logJournal a v (writeReg a v b)

/-- A word takes effect: on a PRIMARY, one to mirrored state waits for its boundary and is forwarded (R504). A window address
counts in the page in force as the word is taken. -/
def takeWord (a v : Nat) (b : Block) : Block :=
  let a := if 0x80000000 ≤ a then pairLpddr (pageByte b a) else a
  if b.isPrimary && isMirrored a then
    let t := b.boundAt ((b.now + 2 * b.period) % tideMod)
    let e := MirrorEntry.write (BitVec.ofNat 32 a) (BitVec.ofNat 32 v) (BitVec.ofNat 48 (b.pairCount t))
    mirrorWrite a v t (takeMirror t e b)
  else if isMirrored a then applyWord true a v b
  else writeReg a v b

/-! ### Grants (R32, R33, R35, R52) -/

/-- The HIF_GRANT bit of an address; none where the map assigns the address to no writable block or window (R52). -/
def grantBit (a : Nat) : Option Nat :=
  if a < 0x2000 then some 0
  else if 0x10000 ≤ a ∧ a < 0xF0000 then some (a / 2 ^ 16)
  else if 0x02000000 ≤ a ∧ a < 0x04000000 then some 16
  else if 0x80000000 ≤ a then some 17
  else none

/-- A host write to an address is granted. -/
def granted (b : Block) (a : Nat) : Bool :=
  match grantBit a with
  | some g => bit (b.word rHIF_GRANT) g
  | none => false

/-- A host write to the slate window (R35, R345, R350). -/
def slateHostWrite (a v txn : Nat) (portA : TwoCycles) (b : Block) : Block :=
  let o := a - 0x02000000
  if !slateMay b rqHOST (bankOf o) then b.discardWord [] a txn |> ownerFault rqHOST o
  else if b.isPrimary then takeWord a v b
  else
    let (landed, b) := portBStore o v portA b
    if landed then b else b.discardWord [] a txn

/-- A host word reaches its target (R33 to R35, R52, R53). -/
def retireWord (a v txn : Nat) (portA : TwoCycles) (b : Block) : Block :=
  if !granted b a then b.discardWord [fHIF_HOST_STAT_GRANT_VIOLATION] a txn
  else if a < 0x1000 then writeHif a v b
  else if a < 0x2000 then b.putMbx (a - 0x1000) (toLE 4 v)
  else if 0x80000000 ≤ a then
    if (lpddrAt b a).isSome then takeWord a v b else b.discardWord [fHIF_HOST_STAT_WINDOW_UNMAPPED] a txn
  else if 0x02000000 ≤ a then slateHostWrite a v txn portA b
  else takeWord a v b

/-! ### Words arrive (R45, R58) -/

/-- RING and READY as the words of the write buffer will leave them (R57, R58, R77): a restart of the Proctor clears both. -/
def doorbellsAfter (b : Block) : Nat × Nat :=
  b.host.wbuf.foldl (fun m w =>
    if w.addr = rHIF_DOORBELL_IN then (Nat.lor m.1 w.data, m.2)
    else if w.addr = rHIF_DOORBELL_OUT then (m.1, m.2 - Nat.land m.2 w.data)
    else if w.addr = rHIF_ABORT ∧ bitsOf w.data 31 24 = 0xA5 ∧ bit w.data 15 then (0, 0)
    else m) (b.rd fHIF_DOORBELL_IN_RING, b.rd fHIF_DOORBELL_OUT_READY)

/-- The host owns a mailbox once every earlier word of the write buffer has retired (R57, R58). -/
def hostOwns (b : Block) (mb : Nat) : Bool :=
  if mb < 8 then !bit (doorbellsAfter b).1 mb else bit (doorbellsAfter b).2 (mb - 8)

/-- An address lies in a mailbox that the host does not own at a word's arrival (R58). -/
def notHosts (b : Block) (a : Nat) : Bool := decide (0x1000 ≤ a) && decide (a < 0x2000) && !hostOwns b ((a - 0x1000) / 0x100)

/-- A word of the LPDDR window reaches no byte (R53), judged as the page will stand once the write buffer has retired. -/
def unmapped (b : Block) (a : Nat) : Bool :=
  let page := b.host.wbuf.foldl (fun p w => if w.addr = rHIF_LPDDR_PAGE then bitsOf w.data fHIF_LPDDR_PAGE_PAGE.hi fHIF_LPDDR_PAGE_PAGE.lo else p)
    (b.rd fHIF_LPDDR_PAGE_PAGE)
  decide (0x80000000 ≤ a) && (lpddrAt (b.wr fHIF_LPDDR_PAGE_PAGE page) a).isNone

/-- Why a word that arrives is discarded (R33, R45, R53, R58); an empty list where the buffer is full. An ungranted word of the
LPDDR window that is unmapped as well sets GRANT_VIOLATION alone (DESIGN CHOICE, notes/assumptions/44.md). -/
def arrivalError (a : Nat) (b : Block) : Option (List Fld) :=
  if !granted b a then some [fHIF_HOST_STAT_GRANT_VIOLATION]
  else if unmapped b a then some [fHIF_HOST_STAT_WINDOW_UNMAPPED]
  else if notHosts b a then some [fHIF_HOST_STAT_MBX_OWNER]
  else if 64 ≤ b.host.wbuf.length then some []
  else none

/-- A word arrives at a port (R33, R45, R46, R53, R58): into the write buffer, or discarded. A grant is judged here, and again
where the word retires, since a revocation reaches it there (R34). DEDUCED, notes/assumptions/28.md -/
def arrive (a v txn : Nat) (b : Block) : Block :=
  match arrivalError a b with
  | some bits => b.discardWord bits a txn
  | none => { b with host := { b.host with wbuf := b.host.wbuf ++ [{ addr := a, data := v, txn := txn }] } }

/-- What port A does in the two cycles of a word that retires: a free value for a word of slate (R46, R350). -/
def portAMeets (a : Nat) (b : Block) : TwoCycles × Block :=
  if 0x02000000 ≤ a ∧ a < 0x04000000 then
    let (p, b) := b.freshPort
    let (q, b) := b.freshPort
    ({ first := p, second := q }, b)
  else (noMeet, b)

/-- WRITE_RETIRE (R34, R45, R350): the oldest word of the write buffer retires. -/
def writeRetire (b : Block) : Block :=
  match b.host.wbuf with
  | [] => b
  | w :: ws =>
    let (portA, b) := portAMeets w.addr { b with host := { b.host with wbuf := ws } }
    retireWord w.addr w.data w.txn portA b

/-- A single host word, from its arrival to its target: it belongs to the transaction in progress, and the words that arrived
before it retire before it (R45). -/
def hostWordWith (portA : TwoCycles) (addr value : Word) (b : Block) : Block :=
  if !portsServe b then b
  else
    let a := addr.toNat / 4 * 4
    let txn := match b.host.txn with | some t => t.id | none => b.host.txnNext
    match arrivalError a b with
    | some bits => b.discardWord bits a txn
    | none => retireWord a value.toNat txn portA (forN b.host.wbuf.length (fun _ b => writeRetire b) b)

def hostWord (addr value : Word) (b : Block) : Block := hostWordWith noMeet addr value b

/-- A host word to a register named by its number. -/
def hostReg (a : Nat) (value : Word) (b : Block) : Block := hostWord (BitVec.ofNat 32 a) value b

/-- EVENT_PENDING_CLEAR (R10, R56): the sources that hardware sets in the cycle of the write stay set. -/
def eventPendingClear (n : Nat) (m : Meeting) (b : Block) : Block :=
  let b := hostReg (0x40 + 4 * n) m.word b
  forL ((List.range 32).filter (fun i => m.sets.getLsbD i)) (fun i b => b.raise (32 * n + i)) b

/-- DAC_RANGE_WRITE (R478): the present word of DAC_CFGn with another RANGE, EN at 1 where it is 1 or asked for. -/
def dacRange (n r : Nat) (b : Block) : Block :=
  let a := rDAC_CFG + 0x10 * n
  let en := enabled b a || b.proc.checks.any (fun c => c.addr == a)
  hostReg a (BitVec.ofNat 32 (putBits (putBits (b.word a) 31 31 (b2n en)) 9 8 r)) b

/-- A row that writes one function bit of HIF_ABORT with a key byte (R74). -/
def abortRow (f : Nat) (key : Byte) (b : Block) : Block := hostReg rHIF_ABORT (BitVec.ofNat 32 (key.toNat * 2 ^ 24 + f)) b

def execSilenceVoices (key : Byte) (s : State) := done (abortRow 0x01 key) s
def execClearEvents (key : Byte) (s : State) := done (abortRow 0x02 key) s
def execStopBdsp (key : Byte) (s : State) := done (abortRow 0x04 key) s
def execStopStreams (key : Byte) (s : State) := done (abortRow 0x08 key) s
def execMuteOutputs (key : Byte) (s : State) := done (abortRow 0x10 key) s
def execCancelCommands (key : Byte) (s : State) := done (abortRow 0x20 key) s
def execStopTbld (key : Byte) (s : State) := done (abortRow 0x40 key) s
def execProctorRestart (key : Byte) (s : State) := done (abortRow 0x8000 key) s

def execWriteRetire (s : State) := done (fun b => if portsServe b then writeRetire b else b) s
def execRegisterWrite (addr value : Word) (s : State) := done (hostWord addr value) s
def execSlateWindowWrite (addr value : Word) (portA : TwoCycles) (s : State) := done (hostWordWith portA addr value) s
def execMailboxWrite (addr value : Word) (s : State) := done (hostWord addr value) s
def execHifDoorbellIn (value : Word) (s : State) := done (hostReg rHIF_DOORBELL_IN value) s
def execHifDoorbellOut (value : Word) (s : State) := done (hostReg rHIF_DOORBELL_OUT value) s
def execEnableWrite (addr value : Word) (s : State) := done (hostWord addr value) s
def execVoiceBeatOriginHi (value : Word) (s : State) := done (hostReg rVOICE_BEAT_ORIGIN_HI value) s
def execBdspIrq (core : Nat) (value : Word) (s : State) :=
  doneIf (Instr.wf (.bdspIrq core value)) (hostReg (rBDSP_IRQ + 0x1000 * core) value) s
def execCompareWrite (addr value : Word) (s : State) := done (hostWord addr value) s
def execBellCfg (value : Word) (s : State) := done (hostReg rBELL_CFG value) s
def execCprIrcTrim (value : Word) (s : State) := done (hostReg rCPR_IRC_TRIM value) s
def execCprClkCfg (value : Word) (s : State) := done (hostReg rCPR_CLK_CFG value) s
def execCprApllCfg (value : Word) (s : State) := done (hostReg rCPR_APLL_CFG value) s
def execCprPdOpt (value : Word) (s : State) := done (hostReg rCPR_PD_OPT value) s
def execSerTxdata (port : Nat) (value : Word) (s : State) :=
  doneIf (Instr.wf (.serTxdata port value)) (hostReg (rSER_TXDATA + 0x40 * port) value) s
def execDacStrobe (value : Word) (s : State) := done (hostReg rDAC_STROBE value) s
def execDacRangeWrite (n : Nat) (range : BitVec 2) (s : State) := doneIf (decide (n < 8)) (dacRange n range.toNat) s
def execTestSnap (value : Word) (s : State) := done (hostReg rTEST_SNAP value) s
def execEventPendingClear (n : Nat) (m : Meeting) (s : State) := doneIf (decide (n < 7)) (eventPendingClear n m) s

end Sys2Proof.Machine
end

