-- ==== Sys2Proof/Machine/HostRead.lean ====
section
/-! DEFINITION. Words read by the host, and the transactions of the octal-SPI and I2C ports (02 R36 to R51; R9, R371, R438). -/

namespace Sys2Proof.Machine

/-! ### Words read -/

/-- A word of the HIF block as it reads (R54, R56). -/
def readHif (b : Block) (a : Nat) : Nat :=
  if 0x40 ≤ a ∧ a ≤ 0x58 then bitsOf b.ev.pend.toNat (8 * (a - 0x40) + 31) (8 * (a - 0x40))
  else if 0x60 ≤ a ∧ a ≤ 0x78 then bitsOf b.ev.en.toNat (8 * (a - 0x60) + 31) (8 * (a - 0x60))
  else if a = rHIF_EVT_SUMMARY then
    let hit := (b.ev.pend &&& b.ev.en).toNat
    (List.range 7).foldl (fun w n => w + b2n (bitsOf hit (32 * n + 31) (32 * n) != 0) * 2 ^ n) 0
  else if a = rHIF_ABORT_STAT then putBits (b.word a) 6 0 (abortActive b)
  else b.word a

/-- A stored register read: RC fields are cleared (R9). -/
def readClear (a : Nat) (b : Block) : Nat × Block :=
  match regAt a with
  | some (r, i) => (b.word a, b.setWord a (r.afterRead i (b.word a)))
  | none => (0, b)

/-- A word of the TIDE block (R371, R372, R383, R385, R386). -/
def readTide (req a : Nat) (b : Block) : Nat × Block :=
  let l := nth Latch.reset b.tide.latch req
  if a = rTIDE_LO then readTideLo req b
  else if a = rTIDE_HI then (l.hi, b)
  else if a = rTIDE_EPOCH then (l.epoch, b)
  else if a = rTIDE_BOUND_LO then readBoundLo req b
  else if a = rTIDE_BOUND_HI then (l.boundHi, b)
  else if a = rBELL_COUNT then (bellCount b, b)
  else if rTIDE_CAP_LO ≤ a ∧ a < rTIDE_CAP_LO + 0x80 ∧ a % 0x10 = rTIDE_CAP_LO % 0x10 then
    readCapLo ((a - rTIDE_CAP_LO) / 0x10) req b
  else if rTIDE_CAP_HI ≤ a ∧ a < rTIDE_CAP_HI + 0x80 ∧ a % 0x10 = rTIDE_CAP_HI % 0x10 then
    (nth 0 l.capHi ((a - rTIDE_CAP_HI) / 0x10), b)
  else if rTIO_CFG ≤ a ∧ a < rTIO_CFG + 32 then
    (putBits (b.word a) 5 5 (b2n (pinRead b ((a - rTIO_CFG) / 4))), b)
  else readClear a b

/-- A word of the SER block (R438). -/
def readSer (a : Nat) (b : Block) : Nat × Block :=
  let n := (a - rSER_CFG) / 0x40
  if 5 ≤ n then (0, b)
  else if a % 0x40 = rSER_STAT % 0x40 then (serStat b n, b)
  else if a % 0x40 = rSER_RXDATA % 0x40 then readRx n b
  else readClear a b

/-- A word of the AOUT block (R275, R488). -/
def readAout (a : Nat) (b : Block) : Nat × Block :=
  if a = rAOUT_STAT then (aoutStat b, b)
  else if a = rMIX_CKSUM then readCksum b
  else if a = rMIX_CKSUM_STAMP_LO then (readStamp b % 2 ^ 32, b)
  else if a = rMIX_CKSUM_STAMP_HI then (readStamp b / 2 ^ 32 % 2 ^ 16, b)
  else readClear a b

/-- A word of the SCHED block (R171, R211); what reports live state of EVT reads 0 while EVT is off (R528). -/
def readSched (a : Nat) (b : Block) : Nat × Block :=
  if a = rSCHED_POOL then (schedPool b, b)
  else if a = rSCHED_TT_FILL01 then (ttFill b 0, b)
  else if a = rSCHED_TT_FILL23 then (ttFill b 2, b)
  else if rCLASS_STAT ≤ a ∧ a < rCLASS_STAT + 0x800 ∧ a % 0x20 = rCLASS_STAT % 0x20 then
    (classStat b ((a - rCLASS_STAT) / 0x20), b)
  else readClear a b

/-- A word of the TEST block (R569); the load of a lane whose domain is off reads 0 (R528). -/
def readTest (a : Nat) (b : Block) : Nat × Block :=
  let l := (a - rTEST_LANE_LOAD) / 8
  let (v, b) := readClear a b
  if rTEST_LANE_LOAD ≤ a ∧ l < 16 ∧ a % 8 = 0 ∧ !b.on (dVQ0 + l / 4) then (putBits v 15 0 0, b) else (v, b)

/-- TBLD_STAT (R257): the frames that a running build has completed, which no rule fixes at a moment, are free
up to 256. -/
def readBuilder (b : Block) : Nat × Block :=
  match b.store.running with
  | some _ =>
    let (n, b) := b.fresh 257
    (putBits (b.word rTBLD_STAT) 8 0 (n % 257), b)
  | none => (b.word rTBLD_STAT, b)

/-- A word of the TBLD block (R257): the banks the builder owns, and those of its free pool, are composed. -/
def readTbld (a : Nat) (b : Block) : Nat × Block :=
  let mask (ks : List Nat) : Nat := ks.foldl (fun m k => m + 2 ^ k) 0
  if a = rTBLD_STAT then readBuilder b
  else if a = rTBLD_BANKS then (b.banksOf rqTBLD % 2 ^ 32, b)
  else if a = rTBLD_BANKS + 4 then (b.banksOf rqTBLD / 2 ^ 32, b)
  else if a = rTBLD_FREE then (mask (freePool b) % 2 ^ 32, b)
  else if a = rTBLD_FREE + 4 then (mask (freePool b) / 2 ^ 32, b)
  else readClear a b

/-- A word of a register block (R32, R52, R54): status composed of live state, and what a read does. -/
def readReg (req a : Nat) (b : Block) : Nat × Block :=
  match blockOf a with
  | 2 => readTide req a b
  | 3 => readSer a b
  | 4 =>
    if a = rNET_STAT then (netStat b 0, b) else if a = rNET_STAT + 0x200 then (netStat b 1, b) else readClear a b
  | 5 => if a = rUSB_STAT then (usbStat b, b) else readClear a b
  | 6 => readAout a b
  | 7 => if a = rFERRY_STAT then (ferryStat b, b) else readClear a b
  | 8 => readSched a b
  | 0xA => readTbld a b
  | 0xC =>
    if a % 0x1000 = rBDSP_STAT % 0x1000 ∧ a < 0xC4000 then (bdspStat b (coreOf a), b)
    else if a % 0x1000 = rBDSP_IRQ % 0x1000 ∧ a < 0xC4000 then (bdspIrq b (coreOf a), b)
    else readClear a b
  | 0xE => readTest a b
  | _ => readClear a b

/-- A word of the LPDDR window (R53). -/
def readLpddr (a : Nat) (b : Block) : Nat × Block :=
  match lpddrAt b a with
  | some o => (leAt (b.lpddrBytes o 4) 0 4, b)
  | none => (0, b.hostErr [fHIF_HOST_STAT_WINDOW_UNMAPPED] (some a))

/-- A word of the slate window, by port B (R44, R348, R350, R351, R358): its data, whether port B was busy, and the machine. A busy
response leaves the data undefined. -/
def readSlate (hit : SlateHit) (o : Nat) (b : Block) : Nat × Bool × Block :=
  if !b.flag fSLATE_STAT_FUSE_DONE || borrowed b (bankOf o) then
    let (v, b) := b.freshWord
    (v, true, b)
  else
    let b := hurtWord o hit.upset b
    match hit.portA with
    | .write d =>
      let (v, b) := b.freshWord
      (v, true, collision 1 o (portAStore (o / 8 * 8) (toLE 8 d.toNat) b))
    | _ => (leAt (b.slateBytes (o / 4 * 4) 4) 0 4, false, checkRead o b)

/-- HBUSY reports a busy slate word until the end of the transaction in progress (R44, R46). -/
def noteBusy (busy : Bool) (b : Block) : Block :=
  if busy then { b with host := { b.host with txn := b.host.txn.map (fun t => { t with busy := true }) } } else b

/-- A word of the host address space, as a requester reads it: 0 the octal-SPI port, 1 the I2C port (R32, R52); with it what
befalls a slate word. -/
def hostRead (req : Nat) (hit : SlateHit) (a : Nat) (b : Block) : Nat × Block :=
  if a < 0x1000 then (readHif b a, b)
  else if a < 0x2000 then (leAt (b.getMbx (a - 0x1000) 4) 0 4, b)
  else if 0x10000 ≤ a ∧ a < 0xF0000 then readReg req a b
  else if 0x01000000 ≤ a ∧ a < 0x01400000 then (voiceWord b a, b)
  else if 0x02000000 ≤ a ∧ a < 0x04000000 then
    let (v, busy, b) := readSlate hit (a - 0x02000000) b
    (v, if req = 0 then noteBusy busy b else b)
  else if 0x80000000 ≤ a then readLpddr a b
  else (0, b)

/-- A word that nothing befalls. -/
def noHit : SlateHit := { portA := .none, upset := 0 }

/-- An address of the register blocks (R52). -/
def isRegisterWord (a : Nat) : Bool := decide (a < 0x1000) || (decide (0x10000 ≤ a) && decide (a < 0xF0000))

/-- Words from consecutive addresses, least significant byte first (R38, R40); after the last address follows the first
(DESIGN CHOICE, notes/assumptions/44.md). After a failure of the IRC only registers are served, and any other word reads 0
(R412; the 0 is a DESIGN CHOICE, notes/assumptions/45.md). -/
def hostReads (req : Nat) : List SlateHit → Nat → Block → List Byte × Block
  | [], _, b => ([], b)
  | hit :: hits, a, b =>
    let (v, b) := if b.clk.backupOsc && !isRegisterWord a then (0, b) else hostRead req hit a b
    let (bs, b) := hostReads req hits ((a + 4) % 2 ^ 32) b
    (toLE 4 v ++ bs, b)

/-- What the latest transaction drove out. -/
def Block.drive (b : Block) (bs : List Byte) : Block := { b with host := { b.host with out := bs } }

/-- A read of one word by the octal-SPI port. -/
def readOne (a : Nat) (b : Block) : Block := if b.host.ready then let (bs, b) := hostReads 0 [noHit] a b; b.drive bs else b

/-- RC_COUNTER_READ (R9, R11): the read returns the value before what hardware sets in its cycle, and those bits of RC fields are
set afterwards. -/
def rcCounterRead (a sets : Nat) (b : Block) : Block :=
  let b := readOne a b
  match regAt a with
  | some (r, _) =>
    forL (r.fields.filter (fun f => f.acc == .rc)) (fun f b =>
      b.setWord a (Nat.lor (b.word a) (bitsOf sets f.hi f.lo * 2 ^ f.lo))) b
  | none => b

/-! ### The octal-SPI port (R36 to R47) -/

/-- The rise of HCSN (R38, R40, R46): the transaction ends, and a partial last word is discarded and reported. -/
def hcsnRise (b : Block) : Block :=
  match b.host.txn with
  | none => b
  | some t =>
    let b := { b with host := { b.host with txn := none } }
    match t.part with
    | some a => b.hostErr [fHIF_HOST_STAT_PARTIAL_WORD, fHIF_HOST_STAT_WRITE_DISCARDED] (some a)
    | none => b

/-- A transaction begins at the fall of HCSN (R38); one still open has ended before. -/
def openTxn (b : Block) : Block :=
  let b := hcsnRise b
  { b with host := { b.host with
    txn := some { id := b.host.txnNext, busy := false, part := none }, txnNext := b.host.txnNext + 1, out := [] } }

/-- Words for consecutive addresses arrive (R40); after the last address of the map follows the first, which R40 leaves open (DESIGN
CHOICE, notes/assumptions/44.md). -/
def arriveAll (txn : Nat) : Nat → List Word → Block → Block
  | _, [], b => b
  | a, w :: ws, b => arriveAll txn ((a + 4) % 2 ^ 32) ws (arrive a w.toNat txn b)

/-- WRITE (R39, R40, R45). -/
def spiWrite (addr : Word) (words : List Word) (part : Nat) (b : Block) : Block :=
  if !portsServe b then b
  else
    let a := addr.toNat / 4 * 4
    let id := b.host.txnNext
    let b := arriveAll id a words (openTxn b)
    if part = 0 then b
    else { b with host := { b.host with
      txn := b.host.txn.map (fun t => { t with part := some ((a + 4 * words.length) % 2 ^ 32) }) } }

/-- The access time of the region of an address, in picoseconds (R43). -/
def accessPs (a : Nat) : Nat :=
  if a < 0x2000 then 40000
  else if 0x10000 ≤ a ∧ a < 0xF0000 then 80000
  else if 0x02000000 ≤ a ∧ a < 0x04000000 then 80000
  else if 0x01000000 ≤ a ∧ a < 0x01400000 then 120000
  else if 0x80000000 ≤ a then 600000
  else 40000

/-- READ (R39, R40, R43, R44): too few dummy cycles set READ_UNDERRUN and leave the first word's data open, and the read takes
place all the same. -/
def spiRead (addr : Word) (words : List SlateHit) (hsckPs : Nat) (b : Block) : Block :=
  if !b.host.ready then b
  else
    let a := addr.toNat / 4 * 4
    let b := openTxn b
    if b.rd fHIF_HOST_CFG_DUMMY * hsckPs < accessPs a ∧ words ≠ [] then
      let (v, b) := (b.hostErr [fHIF_HOST_STAT_READ_UNDERRUN] (some a)).freshWord
      let (bs, b) := hostReads 0 words a b
      b.drive (toLE 4 v ++ bs.drop 4)
    else
      let (bs, b) := hostReads 0 words a b
      b.drive bs

/-- The host status byte (R42). -/
def statusByte (b : Block) : Nat :=
  b2n (b.word rHIF_HOST_STAT != 0) * 128 + b2n (b.flag fHIF_STATUS_ABORT_BUSY) * 64 + b2n (b.flag fHIF_STATUS_PROCTOR_RUN) * 32 +
  b2n (b.flag fHIF_DOORBELL_OUT_READY) * 16 + b2n (b.flag fHIF_HOST_STAT_READ_UNDERRUN) * 8 +
  b2n (b.flag fHIF_HOST_STAT_WRITE_DISCARDED) * 4 + b2n b.host.hirq * 2 + b2n b.host.hbusy

/-- READ_STATUS (R42): the host status byte, repeated. -/
def spiStatus (count : Nat) (b : Block) : Block :=
  if b.host.ready then
    let b := settle (openTxn b)
    b.drive (List.replicate count (BitVec.ofNat 8 (statusByte b)))
  else b

/-- READ_ID (R39): HIF_ID, repeated. -/
def spiId (count : Nat) (b : Block) : Block :=
  if b.host.ready then
    let b := openTxn b
    b.drive ((List.replicate count (toLE 4 (b.word rHIF_ID))).flatten)
  else b

/-- PORT_RESET (R41). -/
def portReset (b : Block) : Block :=
  if b.host.ready then (openTxn b).setWord rHIF_HOST_CFG (regReset rHIF_HOST_CFG).toNat else b

/-- The opcodes of R39. -/
def spiOpcodes : List Nat := [0x02, 0x0B, 0x05, 0x9F, 0xFF]

/-- An opcode that R39 does not list. -/
def badOpcode (op : Byte) (b : Block) : Block :=
  if b.host.ready && !spiOpcodes.contains op.toNat then (openTxn b).hostErr [fHIF_HOST_STAT_BAD_OPCODE] none else b

/-! ### The I2C port (R49 to R51) -/

/-- The port's address answers (R49). -/
def i2cMine (b : Block) (target : BitVec 7) : Bool := b.host.ready && target.toNat == b.rd fHIF_I2C_ADDR_ADDR

/-- Words of an I2C write (R50, R51): a word without a grant, or with the buffer full, is discarded and its byte not
acknowledged, and the host stops; true while every byte was acknowledged. -/
def i2cWords (txn : Nat) : Nat → List Word → Block → Bool × Block
  | _, [], b => (true, b)
  | a, w :: ws, b =>
    if !granted b a then (false, b.discardWord [fHIF_HOST_STAT_GRANT_VIOLATION] a txn)
    else if 64 ≤ b.host.wbuf.length then (false, arrive a w.toNat txn b)
    else i2cWords txn ((a + 4) % 2 ^ 32) ws (arrive a w.toNat txn b)

/-- I2C write (R50, R51), to its STOP; a partial last word is discarded as R40 says. -/
def i2cWrite (target : BitVec 7) (addr : Word) (words : List Word) (part : Nat) (b : Block) : Block :=
  if !i2cMine b target || !portsServe b then b
  else
    let a := addr.toNat / 4 * 4
    let id := b.host.txnNext
    let (ack, b) := i2cWords id a words { b with host := { b.host with txnNext := id + 1, out := [], nack := false } }
    let b := { b with host := { b.host with nack := !ack } }
    if ack ∧ part ≠ 0 then
      b.hostErr [fHIF_HOST_STAT_PARTIAL_WORD, fHIF_HOST_STAT_WRITE_DISCARDED] (some ((a + 4 * words.length) % 2 ^ 32))
    else b

/-- I2C read (R50, R51): SCL is stretched until the first word is there, so no read comes too early. -/
def i2cRead (target : BitVec 7) (addr : Word) (words : List SlateHit) (b : Block) : Block :=
  if !i2cMine b target then b
  else
    let (bs, b) := hostReads 1 words (addr.toNat / 4 * 4) { b with host := { b.host with nack := false } }
    b.drive bs

/-- LPDDR_WINDOW_ACCESS (R35, R53): a write of a value, or a read. -/
def lpddrAccess (addr : Word) (value : Option Word) (b : Block) : Block :=
  match value with
  | some v => hostWord addr v b
  | none => readOne (addr.toNat / 4 * 4) b

def execWrite (addr : Word) (words : List Word) (part : Nat) (s : State) :=
  doneIf (Instr.wf (.write addr words part)) (spiWrite addr words part) s
def execRead (addr : Word) (words : List SlateHit) (hsckPs : Nat) (s : State) := done (spiRead addr words hsckPs) s
def execReadStatus (count : Nat) (s : State) := done (spiStatus count) s
def execReadId (count : Nat) (s : State) := done (spiId count) s
def execPortReset (s : State) := done portReset s
def execBadOpcode (op : Byte) (s : State) := done (badOpcode op) s
def execHcsnRise (s : State) := done hcsnRise s
def execI2cWrite (target : BitVec 7) (addr : Word) (words : List Word) (part : Nat) (s : State) :=
  doneIf (Instr.wf (.i2cWrite target addr words part)) (i2cWrite target addr words part) s
def execI2cRead (target : BitVec 7) (addr : Word) (words : List SlateHit) (s : State) := done (i2cRead target addr words) s
def execLpddrWindowAccess (addr : Word) (value : Option Word) (s : State) := done (lpddrAccess addr value) s
def execRcCounterRead (m : Meeting) (s : State) := done (rcCounterRead (m.word.toNat / 4 * 4) m.sets.toNat) s
def execSerRxdata (port : Nat) (s : State) := doneIf (Instr.wf (.serRxdata port)) (readOne (rSER_RXDATA + 0x40 * port)) s

end Sys2Proof.Machine
end

