-- ==== Sys2Proof/Machine/Commands.lean ====
section
/-! DEFINITION. The commands of the system range (02 R66 to R68), the meaning of every opcode, taking a command from its
mailbox (02 R59, R61, R64), mirrored writes and commands at their boundary (15 R504), and producers that wait (05 R605). -/

namespace Sys2Proof.Machine

/-! ### System-range commands (R66 to R68) -/

/-- PING (R66). -/
def mPing : Meaning := plain (fun p b => (ok p, b))

/-- The grade byte of GET_INFO: a fuse decides between C and I, and the spec gives no part's fuses. -/
def gradeByte : Nat := if Config.freeNat 66 0 % 2 = 0 then 0x43 else 0x49

/-- GET_INFO (R66): release, grade, the CRC of the fuse map (R361), and the banks disabled. -/
def mGetInfo : Meaning := plain (fun _ b =>
  (ok (toLE 1 b.pwr.release ++ toLE 1 (b.pwr.release / 2 ^ 8) ++ toLE 1 (b.pwr.release / 2 ^ 16) ++ toLE 1 gradeByte ++
    toLE 4 fuseMapCrc ++ toLE 8 (b.word64 rSLATE_DISABLED)), b))

/-- The records that a payload holds, from the host port (R67). -/
def hostRecords (p : List Byte) : List EventRecord :=
  (List.range (p.length / 24)).map (fun i => { recordOf ((p.drop (24 * i)).take 24) with port := 0xF0 })

/-- Records enter in order until one finds no place; how many entered (R67). -/
def offerAll : List EventRecord → Nat → Block → Nat × Block
  | [], n, b => (n, b)
  | r :: rs, n, b =>
    match offer r b.now b with
    | (true, b') => offerAll rs (n + 1) b'
    | (false, b') => (n, b')

/-- POST_EVENTS (R67). -/
def mPostEvents : Meaning := plain (fun p b =>
  let rs := hostRecords p
  let (n, b) := offerAll rs 0 b
  (if n < rs.length then failedWith .busyBackpressure (toLE 2 n) else ok (toLE 2 n), b))

/-- GRANT (R68): adds the bits that mode and role allow; a bit withheld makes the command FAILED. -/
def mGrant : Meaning where
  chk p _ := if Nat.land (leAt p 0 4) 0x37FFF = leAt p 0 4 then none else some .badField
  eff _ _ p b :=
    let asked := leAt p 0 4
    let allowed := Nat.lor 1 (grantable b)
    let b := b.setGrants (Nat.lor (b.word rHIF_GRANT) (Nat.land asked allowed))
    let now := toLE 4 (b.word rHIF_GRANT)
    (if Nat.land asked (Nat.lor allowed (b.word rHIF_GRANT)) = asked then ok now else failedWith .notInMode now, b)

/-- ROLLCALL_QUERY (R69): the verdict on the write described, its other fields as they would stand; a write of 0, or of 1 to an
enable that reads 1, needs no check. Nothing is stored. -/
def mRollcallQuery : Meaning where
  chk p _ := if isEnable (leAt p 0 4) then none else some .badField
  eff _ _ p b :=
    let a := leAt p 0 4
    let v := leAt p 4 4
    let r := if bit v 31 && !enabled b a then verdict a (storeWord a v b) else none
    (.reply 0 (r.getD .ok) [], b)

/-! ### The meaning of every opcode (R65) -/

def meanings0 : List (Nat × Meaning) := [
  (0x0000, mPing),
  (0x0001, mGetInfo),
  (0x0003, mPostEvents),
  (0x0004, mGrant),
  (0x0005, mRollcallQuery),
  (0x0006, mReset),
  (0x0100, mPatchWrite),
  (0x0101, mPatchLoad),
  (0x0102, mClassSet),
  (0x0103, mClassEnable),
  (0x0104, mRuleWrite),
  (0x0105, mSetReserve),
  (0x0106, mPatchSwap),
  (0x0140, mSetTuning),
  (0x0141, mSetTuningTable),
  (0x0142, mSetNoiseSeed),
  (0x0200, mModWrite),
  (0x0201, mModWriteNote),
  (0x0202, mSetHparam),
  (0x0203, mSetTempo),
  (0x0204, mSetGlobalLfo),
  (0x0205, mSetSmooth),
  (0x0300, mTableDefine),
  (0x0301, mTableBuild),
  (0x0302, mTableCommit),
  (0x0303, mTableFree),
  (0x0304, mTableStatus),
  (0x0400, mLibrarySet),
  (0x0401, mLibraryLoad),
  (0x0402, mStreamConfig),
  (0x0403, mStreamEnable),
  (0x0410, mSampleMapBegin),
  (0x0411, mSampleMapZones),
  (0x0412, mSampleMapSeal),
  (0x0413, mSampleMapFree),
  (0x0500, mBdspLoadBegin)]

def meanings1 : List (Nat × Meaning) := [
  (0x0501, mBdspLoadProg),
  (0x0502, mBdspLoadEnd),
  (0x0503, mBdspWriteData),
  (0x0504, mBdspReadData),
  (0x0505, mBdspRun),
  (0x0506, mBdspSetParam),
  (0x0507, mBdspSetLine),
  (0x0508, mBdspStatus),
  (0x0600, mSlateHandover),
  (0x0601, mSlatePin),
  (0x0602, mSlateEscort),
  (0x0603, mSlateSetCommons),
  (0x0604, mSlateStatus),
  (0x0700, mSerConfig),
  (0x0701, mSerSend),
  (0x0702, mUsbEnable),
  (0x0703, mUsbSendMidi),
  (0x0704, mSerUsbStatus),
  (0x0800, mNetConfig),
  (0x0801, mNetFilterAdd),
  (0x0802, mNetFilterRemove),
  (0x0803, mNetSetHash),
  (0x0804, mNetPtpConfig),
  (0x0805, mNetSendEvents),
  (0x0806, mNetStatus),
  (0x0900, mTideGet),
  (0x0901, mTideArm),
  (0x0902, mTideSetPost),
  (0x0903, mTideSetCapture),
  (0x0904, mTioSet),
  (0x0905, mBellSet),
  (0x0A00, mClockSetRef),
  (0x0A01, mClockRestore),
  (0x0A02, mClockStatus),
  (0x0A03, mMemConfig),
  (0x0A10, mPowerSet)]

def meanings2 : List (Nat × Meaning) := [
  (0x0A11, mPowerStatus),
  (0x0B00, mDacConfig),
  (0x0B01, mDacSetRange),
  (0x0B02, mDacLoad),
  (0x0B03, mDacSetGroup),
  (0x0B04, mPortConfig),
  (0x0B05, mAoutStatus),
  (0x0B80, mMixSetOut),
  (0x0B81, mMixSetLive),
  (0x0B82, mMixSetReturn),
  (0x0B83, mMixSetCtrl),
  (0x0B84, mMixGetStat),
  (0x0C00, mFerrySetRole),
  (0x0C01, mFerryBoard),
  (0x0C03, mFerryHash),
  (0x0C04, mFerryStatus),
  (0x0D00, mBistStart),
  (0x0D01, mBistResult),
  (0x0D02, mBgTestSet),
  (0x0D03, mMonConfig),
  (0x0D04, mMonRead),
  (0x0D05, mLaneLoad),
  (0x0D06, mJtagChallenge),
  (0x0D07, mJtagUnlock),
  (0x0E00, mSetSched),
  (0x0E01, mSetTrace),
  (0x0E02, mGetSchedStat),
  (0x0F00, mUpdateBegin),
  (0x0F01, mUpdateData),
  (0x0F02, mUpdateEnd),
  (0x0F03, mUpdateActivate),
  (0x0F04, mUpdateCancel),
  (0x0F05, mUpdateStatus),
  (0x0F10, mBootWrite),
  (0x0F11, mBootRun)]

/-- The meaning of an opcode. SET_MODE and FERRY_LAND choose their boundary themselves and stand apart. -/
def meaningOf (op : Nat) : Option Meaning := (meanings0 ++ meanings1 ++ meanings2).lookup op

/-- A command taken, whatever its opcode (R61, R65). -/
def runCommand (op : Nat) (c : Cmd) (b : Block) : Block :=
  if op = 0x0002 then setMode c b
  else if op = 0x0C02 then ferryLand c b
  else
    match meaningOf op with
    | some m => command op m c b
    | none => b.finish { op := op, tag := c.tag.toNat, noReply := c.noReply, late := false, gen := b.proc.gen } b.now false
        (refusedWith .badOpcode)

/-! ### Taking a command (R59, R61) -/

/-- The header of the command in a mailbox. -/
def mbxHeader (b : Block) (n : Nat) : List Byte := b.getMbx (n * 0x100) 16

/-- The FLAGS of a header. -/
def headerFlags (h : List Byte) : Nat := leAt h 6 2

/-- The mailbox whose command is taken next: URGENT ones first, then in order of ringing (R61); the boot ROM serves MB0
alone (R546). -/
def nextRung (b : Block) : Option Nat :=
  if b.serving then
    match b.proc.rung.find? (fun n => bit (headerFlags (mbxHeader b n)) 1) with
    | some n => some n
    | none => b.proc.rung.head?
  else if b.romServing then b.proc.rung.find? (· == 0)
  else none

/-- What is wrong with a header itself (R59, R61). -/
def headerRefusal (b : Block) (h : List Byte) : Option Reason :=
  let op := leAt h 0 2
  if (cmdInfo op).isNone || (!b.serving && !romAccepts op) then some .badOpcode
  else if 240 < leAt h 4 2 then some .badLength
  else if headerFlags h / 8 ≠ 0 || leAt h 14 2 ≠ 0 then some .badField
  else none

/-- The command that a mailbox holds. -/
def mbxCommand (b : Block) (n : Nat) (h : List Byte) : Cmd :=
  let f := headerFlags h
  { tag := BitVec.ofNat 16 (leAt h 2 2), noReply := bit f 0, urgent := bit f 1, due := bit f 2
    dueTime := BitVec.ofNat 48 (leAt h 8 6), payload := b.getMbx (n * 0x100 + 16) (leAt h 4 2) }

/-- COMMAND_TAKE (R57, R61, R62): the Proctor takes the next command and returns its mailbox to the host; none while the
reply queue is full. -/
def commandTake (b : Block) : Block :=
  if !b.takes then b
  else match nextRung b with
  | none => b
  | some n =>
    let h := mbxHeader b n
    let c := mbxCommand b n h
    let b := { b with proc := { b.proc with rung := b.proc.rung.filter (· != n) } }
    let b := b.wr fHIF_DOORBELL_IN_RING (putBits (b.rd fHIF_DOORBELL_IN_RING) n n 0)
    match headerRefusal b h with
    | some r =>
      b.finish { op := leAt h 0 2, tag := c.tag.toNat, noReply := c.noReply, late := false, gen := b.proc.gen } b.now false
        (refusedWith r)
    | none => runCommand (leAt h 0 2) c b

/-! ### Commands and mirrored entries at their boundary (R64, R504) -/

/-- A command held takes effect at its boundary, and its stamp is that boundary (R64): the common checks are made again. Mod writes
that arrived before a command of their kind apply before it (R155). -/
def runHeld (h : Held) (b : Block) : Block :=
  let b := if h.tok.op = 0x0200 ∨ h.tok.op = 0x0201 then modsBefore (some h.seq) b else b
  match cmdInfo h.tok.op, meaningOf h.tok.op with
  | some i, some m =>
    match precheck i false h.payload b with
    | some r => b.finish h.tok h.at_ false (refusedWith r)
    | none => b.runMeaning m h.tok h.at_ false h.payload
  | _, _ => b

/-- The commands whose boundary has opened, in the order they were taken. -/
def heldDue (b : Block) : Block :=
  let due := b.proc.held.filter (fun h => b.hasCome h.at_)
  let b := { b with proc := { b.proc with held := b.proc.held.filter (fun h => !b.hasCome h.at_) } }
  forL due runHeld b

/-- A mirrored write or command takes effect on this device (R504); a command from the primary has no reply here. -/
def applyMirror (at_ : Nat) (e : MirrorEntry) (b : Block) : Block :=
  match e with
  | .write a v _ => applyWord b.isPrimary a.toNat v.toNat b
  | .command op p _ =>
    match meaningOf op.toNat with
    | some m => b.runMeaning m { op := op.toNat, tag := 2 ^ 16, noReply := true, late := false, gen := b.proc.gen } at_ false p
    | none => b
  | .dacCode _ _ => b

/-- The mirrored entries whose boundary has opened, in order of arrival (R504). -/
def mirrorsDue (b : Block) : Block :=
  let due := b.fry.mirrors.filter (fun e => b.hasCome e.1)
  let b := { b with fry := { b.fry with mirrors := b.fry.mirrors.filter (fun e => !b.hasCome e.1) } }
  forL due (fun e b => applyMirror e.1 e.2.1 (modsBefore (some e.2.2) b)) b

/-! ### Producers that wait (R206, R605) -/

/-- PRODUCER_ADMIT (R605): in one EVT cycle every producer that waits offers its record again, in the order laid down: timetable
releases, event-core posts, Tide posts, serial ports, network ports, whose frame has reserved its places at one time (R461);
forwarded records of the pair last (R506). -/
def producerAdmit (b : Block) : Block :=
  if !b.on dEVT then b
  else
    let b := resumeRelease b
    let b := forN 8 admitCorePost b
    let b := forN 16 admitPost b
    let b := forN 5 admitSerial b
    let b := forN 2 netFrameRelease b
    admitForwarded b

def execPing (c : Cmd) (s : State) := done (command 0x0000 mPing c) s
def execGetInfo (c : Cmd) (s : State) := done (command 0x0001 mGetInfo c) s
def execPostEvents (c : Cmd) (s : State) := done (command 0x0003 mPostEvents c) s
def execGrant (c : Cmd) (s : State) := done (command 0x0004 mGrant c) s
def execRollcallQuery (c : Cmd) (s : State) := done (command 0x0005 mRollcallQuery c) s
def execCommandTake (s : State) := done commandTake s
def execProducerAdmit (s : State) := done producerAdmit s

end Sys2Proof.Machine
end

