-- ==== Sys2Proof/Machine/Boundary.lean ====
section
/-! DEFINITION. The sample boundary: the count reaches a multiple of P, the window closes, and the work of the boundary runs in
the order of its dependences (01 R16, R17, R21 to R23; 02 R64; 05 R196, R205; 07 R266 to R286; 16 R532). -/

namespace Sys2Proof.Machine

/-- What was released for this boundary takes effect (R205): a retrigger, where the seat still sounds the note, else the layer is
seated anew (R181; DESIGN CHOICE, notes/assumptions/10.md); a direct event; or a channel event. In LISTEN a direct event joins the wake queue, counted from its DUE_TIME (R534). -/
def fireTimed (t : Timed) (b : Block) : Block :=
  match t.act with
  | .retrigger v l => journaled (if retriggers b l v then retrigger v l else seatLayer { l with due := none }) b
  | .event r came =>
    if isDirect (rType r) then
      if b.effMode = mLISTEN then holdWake r r.dueTime.toNat b else directNow r none false came.tick b
    else applyRoll r t.at_ came.seq b

/-- Everything released for a boundary that has opened, in order. -/
def timedDue (b : Block) : Block :=
  let due := b.sched.timed.filter (fun t => b.hasCome t.at_)
  let b := { b with sched := { b.sched with timed := b.sched.timed.filter (fun t => !b.hasCome t.at_) } }
  forL due fireTimed b

/-- HELD seats whose bank, as latched now, reads SUSTAIN below 0.5 have their gate fall (R196). -/
def sustainFalls (b : Block) : Block :=
  let vs := (b.voices.filter (fun e => e.2.held && decide (nth 0 (b.bankL e.2.lay.bank).cc 64 < 2 ^ 26))).map (·.1)
  forL vs (fun v b => b.modVoice v (fun x => { x with held := false, changes := x.changes ++ [.off x.relVel] })) b

/-- The TDM handover of the window that ends was missed (R518): no port began a frame between its two boundaries. -/
def handoverMissed (b : Block) : Bool := b.isPrimary && b.playing && b.tide.bound.isSome && !b.mix.handed

/-- What begins with the close of a window, once its lanes are settled: aborts and halts that wait for a boundary take
place (R74, R302). -/
def closeWindow (b : Block) : Block := haltCores (abortBoundary b)

/-- What waited for the boundary takes effect: commands, released events, and mirrored entries (R64, R205, R504). -/
def dueWork (b : Block) : Block := mirrorsDue (timedDue (heldDue b))

/-- Ports, cores and the mix bus: inputs are latched, the buses close with the cores' returns, and the words go to the ports
(R22, R266 to R286, R299, R433, R434). -/
def mixWork (b : Block) : Block :=
  usbInBoundary (aoutBoundary (bdspPost (mixBoundary (bdspPre (inputBoundary (usbOutBoundary b))))))

/-- What the opening window sees: sources latched, tables, streams, bank owners, and gates that sustain released (R126, R196,
R229 to R236, R251, R346). -/
def openWork (b : Block) : Block := sustainFalls (ownersAtBoundary (streamBoundary (tableBoundary (voiceBoundary b))))

/-- Seats that no window renders any more end a silencing at once (R74, R532). -/
def dropSilent (b : Block) : Block := dropSeats (fun v => (b.voice v).silence.isSome && !b.live v) b

/-- The rest: level monitors, references that come back, the ferry's work, and changes of mode, which come last. -/
def endWork (missed : Bool) (b : Block) : Block :=
  let b := levelBoundary (dropSilent b)
  let b := if b.clk.restoreAtBound then restoreRefs b else b
  changeBoundary (safeBoundary (ferryBoundary missed b))

/-- SAMPLE_BOUNDARY (R16): the count comes to the next multiple of P, and the boundary's work runs. -/
def sampleBoundary (b : Block) : Block :=
  if !b.tideRuns then b
  else
    let t := b.nextBound
    let b := b.advanceTo t
    let missed := handoverMissed b
    let b := closeLanes b
    let b := { b with tide := { b.tide with bound := some t } }
    endWork missed (openWork (mixWork (dueWork (closeWindow b))))

/-- RETIRING_BANKS_RETURN (R232): the boundaries until the return of a table's retiring banks come. -/
def retiringBanksReturn (t : Nat) (b : Block) : Block :=
  match (tableX b t).retire with
  | none => b
  | some (_, n) => forN n (fun _ b => sampleBoundary b) b

/-- The boundary that the command held longest waits for: the earliest in time. -/
def earliestHeld (b : Block) : Option Nat :=
  b.proc.held.foldl (fun m h =>
    match m with
    | none => some h.at_
    | some t => if dueKey b h.at_ < dueKey b t then some h.at_ else some t) none

/-- DUE_COMMAND_EFFECT (R64): the boundary of the earliest held command, where it is the next; commands whose boundary has come
take effect. -/
def dueCommandEffect (b : Block) : Block :=
  match earliestHeld b with
  | none => b
  | some t => if t = b.nextBound then sampleBoundary b else heldDue b

/-- MODE_CHANGE (R532): the boundary C of a change that is taken, once its domains are on; the next boundary is C where it is at
or after the due time. -/
def modeChange (b : Block) : Block :=
  if b.pwr.changes.any (fun c => changeReady b c && (b.hasCome c.due || b.nextBound == b.boundAt c.due)) then sampleBoundary b
  else b

def execSampleBoundary (s : State) := done sampleBoundary s
def execRetiringBanksReturn (table : Nat) (s : State) :=
  doneIf (Instr.wf (.retiringBanksReturn table)) (retiringBanksReturn table) s
def execDueCommandEffect (s : State) := done dueCommandEffect s
def execModeChange (s : State) := done modeChange s

end Sys2Proof.Machine
end

