-- ==== Sys2Proof/Machine/Dispatch.lean ====
section
/-! DEFINITION. One arm per command, each a direct call of its meaning. -/

namespace Sys2Proof.Machine

def exec (i : Instr) (s : State) : Host.Outcome State Fault Refusal :=
  match i with
  | .sampleBoundary => Sys2Proof.Machine.execSampleBoundary s
  | .slotStart lane => Sys2Proof.Machine.execSlotStart lane s
  | .slotComplete lane => Sys2Proof.Machine.execSlotComplete lane s
  | .tdmFrameStart => Sys2Proof.Machine.execTdmFrameStart s
  | .retiringBanksReturn table => Sys2Proof.Machine.execRetiringBanksReturn table s
  | .write addr words partialBytes => Sys2Proof.Machine.execWrite addr words partialBytes s
  | .read addr words hsckPs => Sys2Proof.Machine.execRead addr words hsckPs s
  | .readStatus count => Sys2Proof.Machine.execReadStatus count s
  | .readId count => Sys2Proof.Machine.execReadId count s
  | .portReset => Sys2Proof.Machine.execPortReset s
  | .badOpcode op => Sys2Proof.Machine.execBadOpcode op s
  | .hcsnRise => Sys2Proof.Machine.execHcsnRise s
  | .writeRetire => Sys2Proof.Machine.execWriteRetire s
  | .i2cWrite target addr words partialBytes => Sys2Proof.Machine.execI2cWrite target addr words partialBytes s
  | .i2cRead target addr words => Sys2Proof.Machine.execI2cRead target addr words s
  | .registerWrite addr value => Sys2Proof.Machine.execRegisterWrite addr value s
  | .lpddrWindowAccess addr value => Sys2Proof.Machine.execLpddrWindowAccess addr value s
  | .slateWindowWrite addr value portA => Sys2Proof.Machine.execSlateWindowWrite addr value portA s
  | .mailboxWrite addr value => Sys2Proof.Machine.execMailboxWrite addr value s
  | .hifDoorbellIn value => Sys2Proof.Machine.execHifDoorbellIn value s
  | .hifDoorbellOut value => Sys2Proof.Machine.execHifDoorbellOut value s
  | .commandTake => Sys2Proof.Machine.execCommandTake s
  | .dueCommandEffect => Sys2Proof.Machine.execDueCommandEffect s
  | .ping c => Sys2Proof.Machine.execPing c s
  | .getInfo c => Sys2Proof.Machine.execGetInfo c s
  | .setMode c => Sys2Proof.Machine.execSetMode c s
  | .modeChange => Sys2Proof.Machine.execModeChange s
  | .postEvents c => Sys2Proof.Machine.execPostEvents c s
  | .grant c => Sys2Proof.Machine.execGrant c s
  | .rollcallQuery c => Sys2Proof.Machine.execRollcallQuery c s
  | .reset c => Sys2Proof.Machine.execReset c s
  | .enableWrite addr value => Sys2Proof.Machine.execEnableWrite addr value s
  | .rollcallCheck => Sys2Proof.Machine.execRollcallCheck s
  | .silenceVoices key => Sys2Proof.Machine.execSilenceVoices key s
  | .clearEvents key => Sys2Proof.Machine.execClearEvents key s
  | .stopBdsp key => Sys2Proof.Machine.execStopBdsp key s
  | .stopStreams key => Sys2Proof.Machine.execStopStreams key s
  | .muteOutputs key => Sys2Proof.Machine.execMuteOutputs key s
  | .cancelCommands key => Sys2Proof.Machine.execCancelCommands key s
  | .stopTbld key => Sys2Proof.Machine.execStopTbld key s
  | .proctorRestart key => Sys2Proof.Machine.execProctorRestart key s
  | .abortDone => Sys2Proof.Machine.execAbortDone s
  | .bootDone => Sys2Proof.Machine.execBootDone s
  | .setTuning c => Sys2Proof.Machine.execSetTuning c s
  | .setTuningTable c => Sys2Proof.Machine.execSetTuningTable c s
  | .setNoiseSeed c => Sys2Proof.Machine.execSetNoiseSeed c s
  | .voiceBeatOriginHi value => Sys2Proof.Machine.execVoiceBeatOriginHi value s
  | .modWrite c => Sys2Proof.Machine.execModWrite c s
  | .modWriteNote c => Sys2Proof.Machine.execModWriteNote c s
  | .setHparam c => Sys2Proof.Machine.execSetHparam c s
  | .setTempo c => Sys2Proof.Machine.execSetTempo c s
  | .setGlobalLfo c => Sys2Proof.Machine.execSetGlobalLfo c s
  | .setSmooth c => Sys2Proof.Machine.execSetSmooth c s
  | .noteOn r => Sys2Proof.Machine.execNoteOn r s
  | .voiceArm voice => Sys2Proof.Machine.execVoiceArm voice s
  | .handOff victim => Sys2Proof.Machine.execHandOff victim s
  | .noteOff r => Sys2Proof.Machine.execNoteOff r s
  | .polyPressure r => Sys2Proof.Machine.execPolyPressure r s
  | .noteBend r => Sys2Proof.Machine.execNoteBend r s
  | .noteCtrl r => Sys2Proof.Machine.execNoteCtrl r s
  | .controller r => Sys2Proof.Machine.execController r s
  | .channelPressure r => Sys2Proof.Machine.execChannelPressure r s
  | .pitchBend r => Sys2Proof.Machine.execPitchBend r s
  | .modWriteRecord r => Sys2Proof.Machine.execModWriteRecord r s
  | .cancel r => Sys2Proof.Machine.execCancel r s
  | .allNotesOff r => Sys2Proof.Machine.execAllNotesOff r s
  | .allSoundOff r => Sys2Proof.Machine.execAllSoundOff r s
  | .work r => Sys2Proof.Machine.execWork r s
  | .rollDispatch => Sys2Proof.Machine.execRollDispatch s
  | .handlerComplete final => Sys2Proof.Machine.execHandlerComplete final s
  | .evtcoreHang core => Sys2Proof.Machine.execEvtcoreHang core s
  | .bellTick => Sys2Proof.Machine.execBellTick s
  | .producerAdmit => Sys2Proof.Machine.execProducerAdmit s
  | .patchWrite c => Sys2Proof.Machine.execPatchWrite c s
  | .patchLoad c => Sys2Proof.Machine.execPatchLoad c s
  | .classSet c => Sys2Proof.Machine.execClassSet c s
  | .classEnable c => Sys2Proof.Machine.execClassEnable c s
  | .ruleWrite c => Sys2Proof.Machine.execRuleWrite c s
  | .setReserve c => Sys2Proof.Machine.execSetReserve c s
  | .patchSwap c => Sys2Proof.Machine.execPatchSwap c s
  | .setSched c => Sys2Proof.Machine.execSetSched c s
  | .setTrace c => Sys2Proof.Machine.execSetTrace c s
  | .getSchedStat c => Sys2Proof.Machine.execGetSchedStat c s
  | .tableDefine c => Sys2Proof.Machine.execTableDefine c s
  | .tableBuild c => Sys2Proof.Machine.execTableBuild c s
  | .buildStart => Sys2Proof.Machine.execBuildStart s
  | .buildComplete => Sys2Proof.Machine.execBuildComplete s
  | .tableCommit c => Sys2Proof.Machine.execTableCommit c s
  | .tableFree c => Sys2Proof.Machine.execTableFree c s
  | .tableStatus c => Sys2Proof.Machine.execTableStatus c s
  | .librarySet c => Sys2Proof.Machine.execLibrarySet c s
  | .libraryLoad c => Sys2Proof.Machine.execLibraryLoad c s
  | .libraryLoadDone errorAt => Sys2Proof.Machine.execLibraryLoadDone errorAt s
  | .streamConfig c => Sys2Proof.Machine.execStreamConfig c s
  | .streamEnable c => Sys2Proof.Machine.execStreamEnable c s
  | .sampleMapBegin c => Sys2Proof.Machine.execSampleMapBegin c s
  | .sampleMapZones c => Sys2Proof.Machine.execSampleMapZones c s
  | .sampleMapSeal c => Sys2Proof.Machine.execSampleMapSeal c s
  | .sealCopyDone => Sys2Proof.Machine.execSealCopyDone s
  | .sampleMapFree c => Sys2Proof.Machine.execSampleMapFree c s
  | .streamFetchIssue => Sys2Proof.Machine.execStreamFetchIssue s
  | .streamChunkArrive ecc => Sys2Proof.Machine.execStreamChunkArrive ecc s
  | .mixSetOut c => Sys2Proof.Machine.execMixSetOut c s
  | .mixSetLive c => Sys2Proof.Machine.execMixSetLive c s
  | .mixSetReturn c => Sys2Proof.Machine.execMixSetReturn c s
  | .mixSetCtrl c => Sys2Proof.Machine.execMixSetCtrl c s
  | .mixGetStat c => Sys2Proof.Machine.execMixGetStat c s
  | .mixCksumRead => Sys2Proof.Machine.execMixCksumRead s
  | .rcCounterRead meet => Sys2Proof.Machine.execRcCounterRead meet s
  | .passStart core => Sys2Proof.Machine.execPassStart core s
  | .bdspPassOverrun core => Sys2Proof.Machine.execBdspPassOverrun core s
  | .parallelWord core => Sys2Proof.Machine.execParallelWord core s
  | .jump core => Sys2Proof.Machine.execJump core s
  | .call core => Sys2Proof.Machine.execCall core s
  | .ret core => Sys2Proof.Machine.execRet core s
  | .loop core => Sys2Proof.Machine.execLoop core s
  | .endloop core => Sys2Proof.Machine.execEndloop core s
  | .ldi core => Sys2Proof.Machine.execLdi core s
  | .movr core => Sys2Proof.Machine.execMovr core s
  | .far core => Sys2Proof.Machine.execFar core s
  | .farLoadComplete core => Sys2Proof.Machine.execFarLoadComplete core s
  | .wait core => Sys2Proof.Machine.execWait core s
  | .swi core => Sys2Proof.Machine.execSwi core s
  | .rti core => Sys2Proof.Machine.execRti core s
  | .sha core => Sys2Proof.Machine.execSha core s
  | .interruptTake core => Sys2Proof.Machine.execInterruptTake core s
  | .bdspIrq core value => Sys2Proof.Machine.execBdspIrq core value s
  | .bdspLoadBegin c => Sys2Proof.Machine.execBdspLoadBegin c s
  | .bdspLoadProg c => Sys2Proof.Machine.execBdspLoadProg c s
  | .bdspLoadEnd c => Sys2Proof.Machine.execBdspLoadEnd c s
  | .bdspWriteData c => Sys2Proof.Machine.execBdspWriteData c s
  | .bdspReadData c => Sys2Proof.Machine.execBdspReadData c s
  | .bdspRun c => Sys2Proof.Machine.execBdspRun c s
  | .bdspSetParam c => Sys2Proof.Machine.execBdspSetParam c s
  | .bdspSetLine c => Sys2Proof.Machine.execBdspSetLine c s
  | .bdspStatus c => Sys2Proof.Machine.execBdspStatus c s
  | .slateAccess req offset op other upset => Sys2Proof.Machine.execSlateAccess req offset op other upset s
  | .atomicAdd req offset value portB => Sys2Proof.Machine.execAtomicAdd req offset value portB s
  | .atomicSwap req offset value portB => Sys2Proof.Machine.execAtomicSwap req offset value portB s
  | .eccWriteBack portA => Sys2Proof.Machine.execEccWriteBack portA s
  | .ownerChange bank => Sys2Proof.Machine.execOwnerChange bank s
  | .slateHandover c => Sys2Proof.Machine.execSlateHandover c s
  | .slatePin c => Sys2Proof.Machine.execSlatePin c s
  | .slateEscort c => Sys2Proof.Machine.execSlateEscort c s
  | .escortTransfer portA => Sys2Proof.Machine.execEscortTransfer portA s
  | .slateSetCommons c => Sys2Proof.Machine.execSlateSetCommons c s
  | .slateStatus c => Sys2Proof.Machine.execSlateStatus c s
  | .bgSliceStart => Sys2Proof.Machine.execBgSliceStart s
  | .bgSliceRelease failed => Sys2Proof.Machine.execBgSliceRelease failed s
  | .fuseLoadDone => Sys2Proof.Machine.execFuseLoadDone s
  | .tideStart => Sys2Proof.Machine.execTideStart s
  | .tideWrap => Sys2Proof.Machine.execTideWrap s
  | .tideLoRead requester => Sys2Proof.Machine.execTideLoRead requester s
  | .tideBoundLoRead requester => Sys2Proof.Machine.execTideBoundLoRead requester s
  | .tideCmp channel => Sys2Proof.Machine.execTideCmp channel s
  | .pulseEnd pin => Sys2Proof.Machine.execPulseEnd pin s
  | .compareWrite addr value => Sys2Proof.Machine.execCompareWrite addr value s
  | .compareWriteArrive ticks => Sys2Proof.Machine.execCompareWriteArrive ticks s
  | .tioPinEdge pin level => Sys2Proof.Machine.execTioPinEdge pin level s
  | .tideCap channel => Sys2Proof.Machine.execTideCap channel s
  | .tideCapLoRead channel requester => Sys2Proof.Machine.execTideCapLoRead channel requester s
  | .bellCfg value => Sys2Proof.Machine.execBellCfg value s
  | .debugHalt => Sys2Proof.Machine.execDebugHalt s
  | .tideGet c => Sys2Proof.Machine.execTideGet c s
  | .tideArm c => Sys2Proof.Machine.execTideArm c s
  | .tideSetPost c => Sys2Proof.Machine.execTideSetPost c s
  | .tideSetCapture c => Sys2Proof.Machine.execTideSetCapture c s
  | .tioSet c => Sys2Proof.Machine.execTioSet c s
  | .bellSet c => Sys2Proof.Machine.execBellSet c s
  | .sourceProven source => Sys2Proof.Machine.execSourceProven source s
  | .activityDetectorTrip source => Sys2Proof.Machine.execActivityDetectorTrip source s
  | .monitorWindow xa xb mclk => Sys2Proof.Machine.execMonitorWindow xa xb mclk s
  | .pllHoldover pll => Sys2Proof.Machine.execPllHoldover pll s
  | .pllUnlock pll => Sys2Proof.Machine.execPllUnlock pll s
  | .pllLock pll => Sys2Proof.Machine.execPllLock pll s
  | .clkForcedSwitch pll => Sys2Proof.Machine.execClkForcedSwitch pll s
  | .ircFail => Sys2Proof.Machine.execIrcFail s
  | .cprIrcTrim value => Sys2Proof.Machine.execCprIrcTrim value s
  | .cprClkCfg value => Sys2Proof.Machine.execCprClkCfg value s
  | .clockSetRef c => Sys2Proof.Machine.execClockSetRef c s
  | .clockRestore c => Sys2Proof.Machine.execClockRestore c s
  | .clockStatus c => Sys2Proof.Machine.execClockStatus c s
  | .memConfig c => Sys2Proof.Machine.execMemConfig c s
  | .serCharacter port ch => Sys2Proof.Machine.execSerCharacter port ch s
  | .serTxCharacter port => Sys2Proof.Machine.execSerTxCharacter port s
  | .serTxdata port value => Sys2Proof.Machine.execSerTxdata port value s
  | .serRxdata port => Sys2Proof.Machine.execSerRxdata port s
  | .midiMessage port => Sys2Proof.Machine.execMidiMessage port s
  | .senseTimeout port => Sys2Proof.Machine.execSenseTimeout port s
  | .serConfig c => Sys2Proof.Machine.execSerConfig c s
  | .serSend c => Sys2Proof.Machine.execSerSend c s
  | .usbReset highSpeed => Sys2Proof.Machine.execUsbReset highSpeed s
  | .usbSuspend => Sys2Proof.Machine.execUsbSuspend s
  | .usbOutFrame samples => Sys2Proof.Machine.execUsbOutFrame samples s
  | .usbFeedback measured => Sys2Proof.Machine.execUsbFeedback measured s
  | .usbMidiPacket words => Sys2Proof.Machine.execUsbMidiPacket words s
  | .usbRateRequest hz => Sys2Proof.Machine.execUsbRateRequest hz s
  | .endpointDiscovery => Sys2Proof.Machine.execEndpointDiscovery s
  | .dfuDetach => Sys2Proof.Machine.execDfuDetach s
  | .dfuDownload bytes => Sys2Proof.Machine.execDfuDownload bytes s
  | .dfuManifest => Sys2Proof.Machine.execDfuManifest s
  | .usbEnable c => Sys2Proof.Machine.execUsbEnable c s
  | .usbSendMidi c => Sys2Proof.Machine.execUsbSendMidi c s
  | .serUsbStatus c => Sys2Proof.Machine.execSerUsbStatus c s
  | .netFrameReceive port f => Sys2Proof.Machine.execNetFrameReceive port f s
  | .netFrameRelease port => Sys2Proof.Machine.execNetFrameRelease port s
  | .netFrameTransmit port collision => Sys2Proof.Machine.execNetFrameTransmit port collision s
  | .beacon port => Sys2Proof.Machine.execBeacon port s
  | .plcaBeaconTimeout port => Sys2Proof.Machine.execPlcaBeaconTimeout port s
  | .bucketToken port => Sys2Proof.Machine.execBucketToken port s
  | .ptpSync ident est => Sys2Proof.Machine.execPtpSync ident est s
  | .followUp ident => Sys2Proof.Machine.execFollowUp ident s
  | .announce ident => Sys2Proof.Machine.execAnnounce ident s
  | .delayResp ident => Sys2Proof.Machine.execDelayResp ident s
  | .delayReq => Sys2Proof.Machine.execDelayReq s
  | .ptpLost => Sys2Proof.Machine.execPtpLost s
  | .netRate value => Sys2Proof.Machine.execNetRate value s
  | .netListenDone port conflict => Sys2Proof.Machine.execNetListenDone port conflict s
  | .netConfig c => Sys2Proof.Machine.execNetConfig c s
  | .netFilterAdd c => Sys2Proof.Machine.execNetFilterAdd c s
  | .netFilterRemove c => Sys2Proof.Machine.execNetFilterRemove c s
  | .netSetHash c => Sys2Proof.Machine.execNetSetHash c s
  | .netPtpConfig c => Sys2Proof.Machine.execNetPtpConfig c s
  | .netSendEvents c => Sys2Proof.Machine.execNetSendEvents c s
  | .netStatus c => Sys2Proof.Machine.execNetStatus c s
  | .dacStrobe value => Sys2Proof.Machine.execDacStrobe value s
  | .ldacnFall => Sys2Proof.Machine.execLdacnFall s
  | .dacDisconnect channel => Sys2Proof.Machine.execDacDisconnect channel s
  | .dacRangeWrite channel range => Sys2Proof.Machine.execDacRangeWrite channel range s
  | .dacRangeDone channel => Sys2Proof.Machine.execDacRangeDone channel s
  | .dacFault channel => Sys2Proof.Machine.execDacFault channel s
  | .tdmFrameErr port => Sys2Proof.Machine.execTdmFrameErr port s
  | .spdifLock rate nonPcm => Sys2Proof.Machine.execSpdifLock rate nonPcm s
  | .spdifUnlock => Sys2Proof.Machine.execSpdifUnlock s
  | .asrcLock pair => Sys2Proof.Machine.execAsrcLock pair s
  | .asrcUnlock pair => Sys2Proof.Machine.execAsrcUnlock pair s
  | .dacConfig c => Sys2Proof.Machine.execDacConfig c s
  | .dacSetRange c => Sys2Proof.Machine.execDacSetRange c s
  | .dacLoad c => Sys2Proof.Machine.execDacLoad c s
  | .dacSetGroup c => Sys2Proof.Machine.execDacSetGroup c s
  | .portConfig c => Sys2Proof.Machine.execPortConfig c s
  | .aoutStatus c => Sys2Proof.Machine.execAoutStatus c s
  | .ferryLinkUp => Sys2Proof.Machine.execFerryLinkUp s
  | .ferryLinkDown => Sys2Proof.Machine.execFerryLinkDown s
  | .frameReplay => Sys2Proof.Machine.execFrameReplay s
  | .event records => Sys2Proof.Machine.execEvent records s
  | .cksum boundary crc => Sys2Proof.Machine.execCksum boundary crc s
  | .status role state boundary rev release => Sys2Proof.Machine.execStatus role state boundary rev release s
  | .journal entries => Sys2Proof.Machine.execJournal entries s
  | .copy item => Sys2Proof.Machine.execCopy item s
  | .mirror entries => Sys2Proof.Machine.execMirror entries s
  | .abort func => Sys2Proof.Machine.execAbort func s
  | .land boundary => Sys2Proof.Machine.execLand boundary s
  | .align pairCount => Sys2Proof.Machine.execAlign pairCount s
  | .alignHoldDone => Sys2Proof.Machine.execAlignHoldDone s
  | .voiceSweep voice => Sys2Proof.Machine.execVoiceSweep voice s
  | .crossingTimeout => Sys2Proof.Machine.execCrossingTimeout s
  | .autoBoardRetry => Sys2Proof.Machine.execAutoBoardRetry s
  | .heartbeat => Sys2Proof.Machine.execHeartbeat s
  | .peerHeartbeatLost => Sys2Proof.Machine.execPeerHeartbeatLost s
  | .fryFaultn => Sys2Proof.Machine.execFryFaultn s
  | .outputGuard => Sys2Proof.Machine.execOutputGuard s
  | .ferrySetRole c => Sys2Proof.Machine.execFerrySetRole c s
  | .ferryBoard c => Sys2Proof.Machine.execFerryBoard c s
  | .ferryLand c => Sys2Proof.Machine.execFerryLand c s
  | .ferryHash c => Sys2Proof.Machine.execFerryHash c s
  | .ferryStatus c => Sys2Proof.Machine.execFerryStatus c s
  | .domainPowerGood domain => Sys2Proof.Machine.execDomainPowerGood domain s
  | .pdFault domain => Sys2Proof.Machine.execPdFault domain s
  | .lpddrTrained => Sys2Proof.Machine.execLpddrTrained s
  | .lpddrTrainFail => Sys2Proof.Machine.execLpddrTrainFail s
  | .thermalWarn temp => Sys2Proof.Machine.execThermalWarn temp s
  | .thermalTrip => Sys2Proof.Machine.execThermalTrip s
  | .brownoutWarn => Sys2Proof.Machine.execBrownoutWarn s
  | .wdogProctor => Sys2Proof.Machine.execWdogProctor s
  | .watchdogSecondExpiry => Sys2Proof.Machine.execWatchdogSecondExpiry s
  | .powerOnReset brownout => Sys2Proof.Machine.execPowerOnReset brownout s
  | .pornRelease ferryRole bootsel => Sys2Proof.Machine.execPornRelease ferryRole bootsel s
  | .systemReset brownout => Sys2Proof.Machine.execSystemReset brownout s
  | .powerSet c => Sys2Proof.Machine.execPowerSet c s
  | .powerStatus c => Sys2Proof.Machine.execPowerStatus c s
  | .updateBegin c => Sys2Proof.Machine.execUpdateBegin c s
  | .updateData c => Sys2Proof.Machine.execUpdateData c s
  | .updateEnd c => Sys2Proof.Machine.execUpdateEnd c s
  | .flashOperationDone error => Sys2Proof.Machine.execFlashOperationDone error s
  | .updateActivate c => Sys2Proof.Machine.execUpdateActivate c s
  | .updateCancel c => Sys2Proof.Machine.execUpdateCancel c s
  | .updateStatus c => Sys2Proof.Machine.execUpdateStatus c s
  | .bootWrite c => Sys2Proof.Machine.execBootWrite c s
  | .bootRun c => Sys2Proof.Machine.execBootRun c s
  | .bistStart c => Sys2Proof.Machine.execBistStart c s
  | .bistDone failing => Sys2Proof.Machine.execBistDone failing s
  | .bistResult c => Sys2Proof.Machine.execBistResult c s
  | .bgTestSet c => Sys2Proof.Machine.execBgTestSet c s
  | .monConfig c => Sys2Proof.Machine.execMonConfig c s
  | .monRead c => Sys2Proof.Machine.execMonRead c s
  | .laneLoad c => Sys2Proof.Machine.execLaneLoad c s
  | .jtagChallenge c => Sys2Proof.Machine.execJtagChallenge c s
  | .jtagUnlock c => Sys2Proof.Machine.execJtagUnlock c s
  | .testSnap value => Sys2Proof.Machine.execTestSnap value s
  | .challenge => Sys2Proof.Machine.execChallenge s
  | .response bytes => Sys2Proof.Machine.execResponse bytes s
  | .idcode => Sys2Proof.Machine.execIdcode s
  | .bypass => Sys2Proof.Machine.execBypass s
  | .samplePreload => Sys2Proof.Machine.execSamplePreload s
  | .extest => Sys2Proof.Machine.execExtest s
  | .eventPendingClear register meet => Sys2Proof.Machine.execEventPendingClear register meet s
  | .debugHaltRelease => Sys2Proof.Machine.execDebugHaltRelease s
  | .systemResetRelease => Sys2Proof.Machine.execSystemResetRelease s
  | .cprApllCfg value => Sys2Proof.Machine.execCprApllCfg value s
  | .cprPdOpt value => Sys2Proof.Machine.execCprPdOpt value s
  | .lineTapArrive core line tap => Sys2Proof.Machine.execLineTapArrive core line tap s
  | .tdmInputSample port slot word => Sys2Proof.Machine.execTdmInputSample port slot word s
  | .tdmSlaveFs port => Sys2Proof.Machine.execTdmSlaveFs port s
  | .spdifSubframe channel word parityBad => Sys2Proof.Machine.execSpdifSubframe channel word parityBad s
  | .usbSetConfiguration => Sys2Proof.Machine.execUsbSetConfiguration s
  | .usbSetInterface interface alt => Sys2Proof.Machine.execUsbSetInterface interface alt s
  | .usbResume => Sys2Proof.Machine.execUsbResume s
  | .usbSofTimeout => Sys2Proof.Machine.execUsbSofTimeout s
  | .usbInPacket => Sys2Proof.Machine.execUsbInPacket s
  | .ferryHashDone => Sys2Proof.Machine.execFerryHashDone s

end Sys2Proof.Machine
end

