-- ==== Sys2Proof/Laws/Bits.lean ====
section
/-! SUPPORT. Bit fields and bytes of numbers: what a field reads after a field was stored, and bytes that spell a number
(R6, R7). -/

namespace Sys2Proof.Machine

variable {w hi lo v hi' lo' n : Nat}

theorem putBits_div_lo (h : lo ≤ hi) :
    putBits w hi lo v / 2 ^ lo = w / 2 ^ (hi + 1) * 2 ^ (hi + 1 - lo) + v % 2 ^ (hi + 1 - lo) := by
  have e : (2 : Nat) ^ (hi + 1) = 2 ^ (hi + 1 - lo) * 2 ^ lo := by rw [← pow_add]; congr 1; omega
  have hl : w % 2 ^ lo < 2 ^ lo := Nat.mod_lt _ (by positivity)
  unfold putBits
  rw [show w / 2 ^ (hi + 1) * 2 ^ (hi + 1) + v % 2 ^ (hi + 1 - lo) * 2 ^ lo + w % 2 ^ lo
      = w % 2 ^ lo + (w / 2 ^ (hi + 1) * 2 ^ (hi + 1 - lo) + v % 2 ^ (hi + 1 - lo)) * 2 ^ lo by
    conv_lhs => rw [e]
    conv_rhs => rw [e]
    ring]
  rw [Nat.add_mul_div_right _ _ (by positivity), Nat.div_eq_of_lt hl, Nat.zero_add]

/-- A field reads what was stored in it. -/
theorem bitsOf_putBits_same (h : lo ≤ hi) : bitsOf (putBits w hi lo v) hi lo = v % 2 ^ (hi + 1 - lo) := by
  unfold bitsOf
  rw [putBits_div_lo h]
  simp

/-- A field stored leaves the bits below it as they were. -/
theorem putBits_mod_lo (h : lo ≤ hi) : putBits w hi lo v % 2 ^ lo = w % 2 ^ lo := by
  have e : (2 : Nat) ^ (hi + 1) = 2 ^ (hi + 1 - lo) * 2 ^ lo := by rw [← pow_add]; congr 1; omega
  unfold putBits
  rw [show w / 2 ^ (hi + 1) * 2 ^ (hi + 1) + v % 2 ^ (hi + 1 - lo) * 2 ^ lo + w % 2 ^ lo
      = w % 2 ^ lo + (w / 2 ^ (hi + 1) * 2 ^ (hi + 1 - lo) + v % 2 ^ (hi + 1 - lo)) * 2 ^ lo by
    conv_lhs => rw [e]
    conv_rhs => rw [e]
    ring]
  simp

/-- A field stored leaves the bits above it as they were. -/
theorem putBits_div_hi (h : lo ≤ hi) : putBits w hi lo v / 2 ^ (hi + 1) = w / 2 ^ (hi + 1) := by
  have e : (2 : Nat) ^ (hi + 1) = 2 ^ lo * 2 ^ (hi + 1 - lo) := by rw [← pow_add]; congr 1; omega
  have hm : v % 2 ^ (hi + 1 - lo) < 2 ^ (hi + 1 - lo) := Nat.mod_lt _ (by positivity)
  conv_lhs => rw [e, ← Nat.div_div_eq_div_mul, putBits_div_lo h]
  rw [Nat.add_comm, Nat.add_mul_div_right _ _ (by positivity), Nat.div_eq_of_lt hm, Nat.zero_add]

theorem bitsOf_mod (h : hi' < n) : bitsOf (w % 2 ^ n) hi' lo' = bitsOf w hi' lo' := by
  unfold bitsOf
  by_cases hl : lo' ≤ hi'
  · have e : (2 : Nat) ^ n = 2 ^ lo' * 2 ^ (n - lo') := by rw [← pow_add]; congr 1; omega
    rw [e, Nat.mod_mul_right_div_self]
    exact Nat.mod_mod_of_dvd _ (pow_dvd_pow 2 (by omega))
  · have e : hi' + 1 - lo' = 0 := by omega
    rw [e]; simp [Nat.mod_one]

/-- A field below the one stored reads as before. -/
theorem bitsOf_putBits_lt (h : lo ≤ hi) (h' : hi' < lo) : bitsOf (putBits w hi lo v) hi' lo' = bitsOf w hi' lo' := by
  rw [← bitsOf_mod (w := putBits w hi lo v) h', putBits_mod_lo h, bitsOf_mod h']

/-- A field above the one stored reads as before. -/
theorem bitsOf_putBits_gt (h : lo ≤ hi) (h' : hi < lo') : bitsOf (putBits w hi lo v) hi' lo' = bitsOf w hi' lo' := by
  have e : (2 : Nat) ^ lo' = 2 ^ (hi + 1) * 2 ^ (lo' - (hi + 1)) := by rw [← pow_add]; congr 1; omega
  unfold bitsOf
  rw [e, ← Nat.div_div_eq_div_mul, ← Nat.div_div_eq_div_mul, putBits_div_hi h]

theorem bitsOf_lt : bitsOf w hi lo < 2 ^ (hi + 1 - lo) := Nat.mod_lt _ (by positivity)

@[simp] theorem toLE_length : (toLE n v).length = n := by
  induction n generalizing v with
  | zero => rfl
  | succ n ih => simp [toLE, ih]

/-- The bytes of a number spell it, modulo what they can hold. -/
theorem ofLE_toLE : ofLE (toLE n v) = v % 256 ^ n := by
  induction n generalizing v with
  | zero => simp [toLE, ofLE, Nat.mod_one]
  | succ n ih =>
    simp only [toLE, ofLE, ih, BitVec.toNat_ofNat]
    rw [show (256 : Nat) ^ (n + 1) = 256 * 256 ^ n by ring, Nat.mod_mul]

end Sys2Proof.Machine
end

