-- ==== Sys2Proof/Safety.lean ====
section
/-! DEFINITION. What claims are stated with: what hardware keeps true at every moment, canonical memories, the answer of a
meaning, and the commands that run at once. -/

namespace Sys2Proof.Machine

/-- HIRQN is asserted exactly while R48 says so, HBUSY exactly while R45 to R47 say so, every held source whose condition
holds is pending (R577), and no reserved source is pending or enabled (R576). -/
def Block.Settled (b : Block) : Prop :=
  b.host.hirq = b.irqDue ∧ b.host.hbusy = b.busyDue ∧
  (∀ n, b.heldSources.getLsbD n = true → sourceMask.getLsbD n = true → b.ev.pend.getLsbD n = true) ∧
  (b.ev.pend &&& sourceMask = b.ev.pend) ∧ (b.ev.en &&& sourceMask = b.ev.en)

/-- The register file in canonical form. -/
def Block.regsWf (b : Block) : Bool := smWf regReset b.regs

/-- The command i answers NEXT on the machine b whatever waits behind it: the machine becomes b' with its levels settled, and
the queue stays as it was. -/
def Ends (i : Instr) (b b' : Block) : Prop := ∀ q, exec i { pending := q, blk := b } = .next { pending := q, blk := settle b' }

/-- The due time of a command that gives one (R59). -/
def cmdDue (c : Cmd) : Option Nat := if c.due then some c.dueTime.toNat else none

/-- What a command taken owes its sender (R60): LATE where its due time had passed (R64). -/
def cmdTok (op : Nat) (c : Cmd) (b : Block) : Tok :=
  { op := op, tag := c.tag.toNat, noReply := c.noReply, late := (cmdDue c).any b.isPast, gen := b.proc.gen }

/-- Sildacen takes a command, it meets the checks that every command meets, and no boundary is to be waited for
(R61, R62, R64, R77). -/
def Block.runsNow (b : Block) (op : Nat) (c : Cmd) : Bool :=
  b.takes && b.serving &&
  (match cmdInfo op with
   | some i => decide (precheck i c.due c.payload b = none) && !b.waits i (cmdDue c)
   | none => false)

/-- The command i, the mailbox command c of opcode op, answers NEXT on the machine b: the machine becomes b' with the
command's reply, stamped now (R60), and its levels settled, and the queue stays as it was. -/
def Replies (i : Instr) (op : Nat) (c : Cmd) (b : Block) (e : End) (b' : Block) : Prop :=
  Ends i b (b'.finish (cmdTok op c b) b.now false e)

/-- Sildacen takes a command, it meets the checks that every command meets, and it is held for a boundary, on a device that does not
forward it (R61, R64, R504). -/
def Block.mustWait (b : Block) (op : Nat) (c : Cmd) : Bool :=
  b.takes && b.serving &&
  (match cmdInfo op with
   | some i => decide (precheck i c.due c.payload b = none) && b.waits i (cmdDue c) && !(i.forwarded && b.isPrimary) &&
     ((cmdDue c).all b.isPast || decide (b.dueHeld < 256))
   | none => false)

/-- A command held for its boundary. -/
def Block.heldFor (b : Block) (op : Nat) (c : Cmd) : Block :=
  match cmdInfo op with
  | some i => b.hold (cmdTok op c b) (b.boundaryFor i (cmdDue c)) c.payload ((cmdDue c).any (fun d => !b.isPast d))
  | none => b

/-- The command i, the mailbox command c of opcode op, answers NEXT on the machine b and is held for its boundary. -/
def Waits (i : Instr) (op : Nat) (c : Cmd) (b : Block) : Prop := Ends i b (b.heldFor op c)

/-- A command held, whose checks hold again as its boundary comes (R64). -/
def Held.may (h : Held) (op : Nat) (b : Block) : Bool :=
  h.tok.op == op &&
  (match cmdInfo op with
   | some i => decide (precheck i false h.payload b = none)
   | none => false)

/-- A host word for a register or mailbox address arrives and reaches it at once: the ports serve, no earlier word waits, and its
HIF_GRANT bit is 1 (R33, R45, R47). -/
def Block.hostMay (b : Block) (a : Nat) : Bool := portsServe b && b.host.wbuf.isEmpty && granted b a

/-- The words that waited in the write buffer have retired, in their order (R45). -/
def Block.drained (b : Block) : Block := forN b.host.wbuf.length (fun _ b => writeRetire b) b

end Sys2Proof.Machine
end

