-- ==== Sys2Proof/Laws/Commands.lean ====
section
/-! SUPPORT. How meanings answer, and what the mailbox pipeline does with a command that runs at once. -/

namespace Sys2Proof.Machine

variable {b b' : Block} {op : Nat} {m : Meaning} {c : Cmd} {i : Instr} {f : Block → Block} {e : End}

/-- A row whose meaning always answers. -/
theorem ends_done (h : ∀ s, exec i s = done f s) : Ends i b (f b) := fun q => by rw [h]; rfl

/-- A row whose meaning answers for operands that name units of the part. -/
theorem ends_doneIf {ok : Bool} (h : ∀ s, exec i s = doneIf ok f s) (hw : ok = true) : Ends i b (f b) := fun q => by
  rw [h]; simp [doneIf, hw, done]

/-- A command that runs at once meets its chapter's checks, and then has its effect and its reply. -/
theorem command_runsNow (h : b.runsNow op c = true) :
    command op m c b =
      match m.chk c.payload b with
      | some r => b.finish { cmdTok op c b with late := false } b.now false (refusedWith r)
      | none => b.runMeaning m (cmdTok op c b) b.now false c.payload := by
  unfold Block.runsNow at h
  simp only [Bool.and_eq_true] at h
  obtain ⟨⟨ht, hs⟩, hi⟩ := h
  split at hi
  · rename_i i hc
    simp only [Bool.and_eq_true, decide_eq_true_eq, Bool.not_eq_true'] at hi
    obtain ⟨hp, hw⟩ := hi
    simp only [command, ht, hs, begin_, hc, hp, Bool.not_true, Bool.false_eq_true, if_false, if_true]
    cases hm : m.chk c.payload b with
    | some r => rfl
    | none =>
      simp only [cmdDue] at hw
      simp [hw, cmdTok, cmdDue]
  · simp at hi

/-- A command that runs at once and meets its chapter's checks. -/
theorem command_meets (h : b.runsNow op c = true) (hc : m.chk c.payload b = none) :
    command op m c b =
      (m.eff (cmdTok op c b) b.now c.payload b).2.finish (cmdTok op c b) b.now false
        (m.eff (cmdTok op c b) b.now c.payload b).1 := by
  rw [command_runsNow h, hc]
  simp [Block.runMeaning, hc]

/-- The answer of a command row whose command runs at once and meets its chapter's checks. -/
theorem replies_of_meets (h : ∀ s, exec i s = done (command op m c) s) (hr : b.runsNow op c = true)
    (hc : m.chk c.payload b = none) (he : m.eff (cmdTok op c b) b.now c.payload b = (e, b')) : Replies i op c b e b' := by
  intro q
  rw [h, done, command_meets hr hc, he]

/-- The answer of a command row without checks of its own. -/
theorem replies_of_plain {eff : List Byte → Block → End × Block} (h : ∀ s, exec i s = done (command op (plain eff) c) s)
    (hr : b.runsNow op c = true) : Replies i op c b (eff c.payload b).1 (eff c.payload b).2 :=
  replies_of_meets h hr rfl rfl

/-- A due time that has not passed. -/
theorem isSome_and_not_any (o : Option Nat) (f : Nat → Bool) : (o.isSome && !o.any f) = o.any (fun d => !f d) := by
  cases o <;> rfl

theorem any_not_of_all {o : Option Nat} {f : Nat → Bool} (h : o.all f = true) : (o.any fun d => !f d) = false := by
  cases o <;> simp_all

/-- A command that meets all checks and is not forwarded is held for its boundary. -/
theorem begin_holds {ci : CmdInfo} (hi : cmdInfo op = some ci) (hp : precheck ci c.due c.payload b = none)
    (hc : m.chk c.payload b = none) (hw : b.waits ci (cmdDue c) = true) (hf : (ci.forwarded && b.isPrimary) = false)
    (hn : ((cmdDue c).any (fun d => !b.isPast d) && decide (256 ≤ b.dueHeld)) = false) : begin_ op m c b = b.heldFor op c := by
  unfold cmdDue at hw hn
  simp only [begin_, hi, hp, hc]
  rw [if_pos hw, isSome_and_not_any, hn, if_neg (by decide), if_neg (by simp [hf])]
  simp only [Block.heldFor, hi, cmdTok, cmdDue]

/-- The answer of a command row whose command meets its checks and must wait. -/
theorem waits_of_meets (h : ∀ s, exec i s = done (command op m c) s) (hw : b.mustWait op c = true)
    (hc : m.chk c.payload b = none) : Waits i op c b := by
  intro q
  unfold Block.mustWait at hw
  simp only [Bool.and_eq_true] at hw
  obtain ⟨⟨ht, hs⟩, hi⟩ := hw
  split at hi
  · rename_i ci hci
    simp only [Bool.and_eq_true, decide_eq_true_eq, Bool.not_eq_true', Bool.or_eq_true] at hi
    obtain ⟨⟨⟨hp, hw⟩, hf⟩, hn⟩ := hi
    have hn' : ((cmdDue c).any (fun d => !b.isPast d) && decide (256 ≤ b.dueHeld)) = false := by
      rcases hn with hn | hn
      · rw [any_not_of_all hn]; rfl
      · rw [decide_eq_false (by omega), Bool.and_false]
    have e : command op m c b = b.heldFor op c := by
      unfold command
      rw [if_neg (by simp [ht]), if_pos hs, begin_holds hci hp hc hw hf hn']
    rw [h, done, e]
  · simp at hi

/-- A held command whose checks hold again has its effect at its boundary. -/
theorem runHeld_meets {h : Held} (hm : meaningOf op = some m) (hmay : h.may op b = true) (h2 : op ≠ 0x0200) (h3 : op ≠ 0x0201)
    (hc : m.chk h.payload b = none) (he : m.eff h.tok h.at_ h.payload b = (e, b')) :
    runHeld h b = b'.finish h.tok h.at_ false e := by
  unfold Held.may at hmay
  simp only [Bool.and_eq_true, beq_iff_eq] at hmay
  obtain ⟨ho, hi⟩ := hmay
  split at hi
  · rename_i ci hci
    unfold runHeld
    rw [if_neg (by rw [ho]; simp [h2, h3])]
    simp only [ho, hci, hm, of_decide_eq_true hi, Block.runMeaning, hc, ite_self, he]
  · simp at hi

/-- A held mod write has its effect behind the mod writes of events that came before it. -/
theorem runHeld_mod {h : Held} (hm : meaningOf op = some m) (h2 : op = 0x0200 ∨ op = 0x0201)
    (hmay : h.may op (modsBefore (some h.seq) b) = true) (hc : m.chk h.payload (modsBefore (some h.seq) b) = none)
    (he : m.eff h.tok h.at_ h.payload (modsBefore (some h.seq) b) = (e, b')) :
    runHeld h b = b'.finish h.tok h.at_ false e := by
  unfold Held.may at hmay
  simp only [Bool.and_eq_true, beq_iff_eq] at hmay
  obtain ⟨ho, hi⟩ := hmay
  split at hi
  · rename_i ci hci
    unfold runHeld
    rw [if_pos (by rw [ho]; exact h2)]
    simp only [ho, hci, hm, of_decide_eq_true hi, Block.runMeaning, hc, ite_self, he]
  · simp at hi

end Sys2Proof.Machine
end

