-- ==== Sys2Proof/Laws/HostWords.lean ====
section
/-! SUPPORT. What a granted host word for a register of a block comes to. -/

namespace Sys2Proof.Machine

variable {b : Block} {a : Nat}

/-- A word for a register of a block, granted, that finds the write buffer empty is discarded for no reason. -/
theorem arrivalError_none (hm : b.hostMay a = true) (h1 : 0x10000 ≤ a) (h2 : a < 0xF0000) : arrivalError a b = none := by
  simp only [Block.hostMay, Bool.and_eq_true, List.isEmpty_iff] at hm
  have h3 : ¬ a < 0x2000 := by omega
  have h4 : ¬ 0x80000000 ≤ a := by omega
  simp [arrivalError, hm.2, unmapped, notHosts, h3, h4, hm.1.2]

/-- A granted word for a register of a block, on a device that does not forward it, is written there. -/
theorem hostWord_writes {addr v : Word} (ha : addr.toNat / 4 * 4 = a) (hm : b.hostMay a = true) (h1 : 0x10000 ≤ a)
    (h2 : a < 0xF0000) (hp : (b.isPrimary && isMirrored a) = false) :
    hostWord addr v b = if isMirrored a then logJournal a v.toNat (writeReg a v.toNat b) else writeReg a v.toNat b := by
  have he := arrivalError_none hm h1 h2
  simp only [Block.hostMay, Bool.and_eq_true, List.isEmpty_iff] at hm
  have h3 : ¬ a < 0x1000 := by omega
  have h4 : ¬ a < 0x2000 := by omega
  have h5 : ¬ 0x80000000 ≤ a := by omega
  have h6 : ¬ 0x02000000 ≤ a := by omega
  simp [hostWord, hostWordWith, hm.1.1, ha, he, retireWord, hm.1.2, forN, hm.2, h3, h4, h5, h6, takeWord, hp, applyWord]

/-- The same of a register named by its number. -/
theorem hostReg_writes {v : Word} (hm : b.hostMay a = true) (h1 : 0x10000 ≤ a) (h2 : a < 0xF0000) (h4 : a % 4 = 0)
    (hp : (b.isPrimary && isMirrored a) = false) :
    hostReg a v b = if isMirrored a then logJournal a v.toNat (writeReg a v.toNat b) else writeReg a v.toNat b :=
  hostWord_writes (by simp; omega) hm h1 h2 hp

/-- A granted word for a register of the HIF block. -/
theorem hostReg_hif {v : Word} (hm : b.hostMay a = true) (h : a < 0x1000) (h4 : a % 4 = 0) : hostReg a v b = writeHif a v.toNat b := by
  simp only [Block.hostMay, Bool.and_eq_true, List.isEmpty_iff] at hm
  have e : (BitVec.ofNat 32 a).toNat / 4 * 4 = a := by simp; omega
  have h1 : ¬ 0x80000000 ≤ a := by omega
  have h2 : ¬ 0x1000 ≤ a := by omega
  have he : arrivalError a b = none := by simp [arrivalError, hm.2, unmapped, notHosts, h1, h2, hm.1.2]
  simp only [hostReg, hostWord, hostWordWith, hm.1.1, e, he, hm.1.2, forN, retireWord, hm.2, h, Bool.not_true, Bool.false_eq_true,
    if_false, if_true, List.length_nil, List.range_zero, List.foldl_nil]

/-- A word for a register without a roll-called enable. -/
theorem writeReg_plain {v : Nat} (h : isEnable a = false) : writeReg a v b = restartCheck a (storeWord a v b) := by
  simp [writeReg, h]

/-- A granted word for a register of a block that is not mirrored and has no enable. -/
theorem hostReg_plain {v : Word} (hm : b.hostMay a = true) (h1 : 0x10000 ≤ a) (h2 : a < 0xF0000) (h4 : a % 4 = 0)
    (hi : isMirrored a = false) (he : isEnable a = false) : hostReg a v b = restartCheck a (storeWord a v.toNat b) := by
  rw [hostReg_writes hm h1 h2 h4 (by rw [hi, Bool.and_false]), hi, writeReg_plain he]; rfl

end Sys2Proof.Machine
end

