-- ==== Sys2Proof/Laws/Maps.lean ====
section
/-! SUPPORT. Sparse maps: reading after a write, and the canonical form that every write keeps. -/

namespace Sys2Proof.Machine

variable {α : Type} [DecidableEq α] {d : Nat → α} {m : List (Nat × α)} {k j a : Nat} {v x : α}

/-! ### Reading after a write -/

omit [DecidableEq α] in
theorem smGet_erase_same : smGet d (smErase m k) k = d k := by
  induction m with
  | nil => rfl
  | cons e m ih =>
    obtain ⟨a, x⟩ := e
    by_cases h : a = k
    · subst h; simpa [smErase] using ih
    · have : ((a, x).1 != k) = true := by simpa using h
      simp only [smErase, List.filter_cons, this, if_true, smGet, if_neg h]
      simpa [smErase] using ih

omit [DecidableEq α] in
theorem smGet_erase_ne (h : j ≠ k) : smGet d (smErase m k) j = smGet d m j := by
  induction m with
  | nil => rfl
  | cons e m ih =>
    obtain ⟨a, x⟩ := e
    by_cases ha : a = k
    · subst ha
      simp [smErase, smGet, Ne.symm h] at ih ⊢
      exact ih
    · have : ((a, x).1 != k) = true := by simpa using ha
      simp only [smErase, List.filter_cons, this, if_true, smGet]
      split
      · rfl
      · simpa [smErase] using ih

omit [DecidableEq α] in
theorem smGet_insert_same (h : ∀ e ∈ m, e.1 ≠ k) : smGet d (smInsert m k v) k = v := by
  induction m with
  | nil => simp [smInsert, smGet]
  | cons e m ih =>
    obtain ⟨a, x⟩ := e
    have ha : a ≠ k := h (a, x) (by simp)
    simp only [smInsert]
    split
    · simp [smGet]
    · simp only [smGet, if_neg ha]
      exact ih (fun e he => h e (by simp [he]))

omit [DecidableEq α] in
theorem smGet_insert_ne (h : j ≠ k) : smGet d (smInsert m k v) j = smGet d m j := by
  induction m with
  | nil => simp [smInsert, smGet, Ne.symm h]
  | cons e m ih =>
    obtain ⟨a, x⟩ := e
    simp only [smInsert]
    split
    · simp [smGet, Ne.symm h]
    · simp only [smGet, ih]

omit [DecidableEq α] in
theorem mem_erase {e : Nat × α} (h : e ∈ smErase m k) : e.1 ≠ k ∧ e ∈ m := by
  simp [smErase] at h; exact ⟨h.2, h.1⟩

/-- A key that was written reads the value written. -/
@[simp] theorem smGet_set_same : smGet d (smSet d m k v) k = v := by
  unfold smSet
  split
  · rename_i h; rw [smGet_erase_same, h]
  · exact smGet_insert_same (fun e he => (mem_erase he).1)

/-- A write leaves every other key as it was. -/
theorem smGet_set_ne (h : j ≠ k) : smGet d (smSet d m k v) j = smGet d m j := by
  unfold smSet
  split
  · exact smGet_erase_ne h
  · rw [smGet_insert_ne h, smGet_erase_ne h]

/-! ### The canonical form -/

/-- Every key lies at or above a bound. -/
def smFrom (n : Nat) (m : List (Nat × α)) : Prop := ∀ e ∈ m, n ≤ e.1

/-- The canonical form, unfolded by one entry. -/
theorem smWf_cons : smWf d ((a, x) :: m) = true ↔ x ≠ d a ∧ smFrom (a + 1) m ∧ smWf d m = true := by
  induction m generalizing a x with
  | nil => simp [smWf, smFrom]
  | cons e m ih =>
    obtain ⟨b, y⟩ := e
    rw [smWf, Bool.and_eq_true, Bool.and_eq_true, decide_eq_true_iff, decide_eq_true_iff, ih]
    constructor
    · rintro ⟨⟨hx, hab⟩, hy, hm, hw⟩
      refine ⟨hx, ?_, hy, hm, hw⟩
      intro e he
      rcases List.mem_cons.mp he with rfl | he
      · exact hab
      · have := hm e he; omega
    · rintro ⟨hx, hf, hy, hm, hw⟩
      exact ⟨⟨hx, hf (b, y) (by simp)⟩, hy, hm, hw⟩

omit [DecidableEq α] in
theorem smFrom_erase (h : smFrom a m) : smFrom a (smErase m k) := fun e he => h e (mem_erase he).2

theorem smWf_erase (h : smWf d m = true) : smWf d (smErase m k) = true := by
  induction m with
  | nil => rfl
  | cons e m ih =>
    obtain ⟨a, x⟩ := e
    rw [smWf_cons] at h
    by_cases ha : a = k
    · subst ha; simpa [smErase] using ih h.2.2
    · have e1 : smErase ((a, x) :: m) k = (a, x) :: smErase m k := by simp [smErase, ha]
      rw [e1, smWf_cons]
      exact ⟨h.1, smFrom_erase h.2.1, ih h.2.2⟩

/-- Entries taken out leave the form canonical. -/
theorem smWf_filter (q : Nat × α → Bool) (h : smWf d m = true) : smWf d (m.filter q) = true := by
  induction m with
  | nil => rfl
  | cons e m ih =>
    obtain ⟨a, x⟩ := e
    rw [smWf_cons] at h
    rw [List.filter_cons]
    split
    · rw [smWf_cons]
      exact ⟨h.1, fun e he => h.2.1 e (List.mem_of_mem_filter he), ih h.2.2⟩
    · exact ih h.2.2

omit [DecidableEq α] in
theorem smFrom_insert {n : Nat} (hn : n ≤ k) (h : smFrom n m) : smFrom n (smInsert m k v) := by
  induction m with
  | nil => intro e he; simp [smInsert] at he; subst he; exact hn
  | cons e m ih =>
    obtain ⟨a, x⟩ := e
    have ha : n ≤ a := h (a, x) (by simp)
    have hm : smFrom n m := fun e he => h e (by simp [he])
    simp only [smInsert]
    split
    · intro e he
      rcases List.mem_cons.mp he with rfl | he
      · exact hn
      · exact h e he
    · intro e he
      rcases List.mem_cons.mp he with rfl | he
      · exact ha
      · exact ih hm e he

theorem smWf_insert (hv : v ≠ d k) (hk : ∀ e ∈ m, e.1 ≠ k) (h : smWf d m = true) : smWf d (smInsert m k v) = true := by
  induction m with
  | nil => simp [smInsert, smWf, hv]
  | cons e m ih =>
    obtain ⟨a, x⟩ := e
    have hw := smWf_cons.mp h
    have ha : a ≠ k := hk (a, x) (by simp)
    simp only [smInsert]
    split
    · rename_i hlt
      rw [smWf_cons]
      refine ⟨hv, ?_, h⟩
      intro e he
      rcases List.mem_cons.mp he with rfl | he
      · exact hlt
      · have := hw.2.1 e he; omega
    · rw [smWf_cons]
      refine ⟨hw.1, smFrom_insert (by omega) hw.2.1, ih (fun e he => hk e (by simp [he])) hw.2.2⟩

/-- A write keeps the canonical form. -/
theorem smWf_set (h : smWf d m = true) : smWf d (smSet d m k v) = true := by
  unfold smSet
  split
  · exact smWf_erase h
  · rename_i hv
    exact smWf_insert hv (fun e he => (mem_erase he).1) (smWf_erase h)

/-- Writing consecutive entries keeps the canonical form. -/
theorem smWf_writeAll (vs : List α) (h : smWf d m = true) : smWf d (smWriteAll d m k vs) = true := by
  induction vs generalizing m k with
  | nil => exact h
  | cons v vs ih => exact ih (smWf_set h)

/-- Consecutive entries written leave every key below them as it was. -/
theorem smGet_writeAll_lt (vs : List α) (h : j < k) : smGet d (smWriteAll d m k vs) j = smGet d m j := by
  induction vs generalizing m k with
  | nil => rfl
  | cons v vs ih =>
    show smGet d (smWriteAll d (smSet d m k v) (k + 1) vs) j = _
    rw [ih (by omega), smGet_set_ne (by omega)]

/-- Consecutive entries written leave every key above them as it was. -/
theorem smGet_writeAll_ge (vs : List α) (h : k + vs.length ≤ j) : smGet d (smWriteAll d m k vs) j = smGet d m j := by
  induction vs generalizing m k with
  | nil => rfl
  | cons v vs ih =>
    show smGet d (smWriteAll d (smSet d m k v) (k + 1) vs) j = _
    simp only [List.length_cons] at h
    rw [ih (by omega), smGet_set_ne (by omega)]

/-- Consecutive entries written read the values written. -/
theorem smRange_writeAll (vs : List α) : smRange d (smWriteAll d m k vs) k vs.length = vs := by
  induction vs generalizing m k with
  | nil => rfl
  | cons v vs ih =>
    show smGet d (smWriteAll d (smSet d m k v) (k + 1) vs) k :: smRange d (smWriteAll d (smSet d m k v) (k + 1) vs) (k + 1) vs.length = _
    rw [ih, smGet_writeAll_lt vs (by omega), smGet_set_same]

end Sys2Proof.Machine
end

