-- ==== Sys2Proof/Laws/State.lean ====
section
/-! SUPPORT. What each update of the machine leaves as it was: one lemma for each field and each shared operation, so that no
proof unfolds a record update. -/

namespace Sys2Proof.Machine

variable (b : Block)

/-! ### A register word -/

@[simp] theorem Block.setWord_free (a v : Nat) : (b.setWord a v).free = b.free := rfl
@[simp] theorem Block.setWord_ev (a v : Nat) : (b.setWord a v).ev = b.ev := rfl
@[simp] theorem Block.setWord_host (a v : Nat) : (b.setWord a v).host = b.host := rfl
@[simp] theorem Block.setWord_proc (a v : Nat) : (b.setWord a v).proc = b.proc := rfl
@[simp] theorem Block.setWord_tide (a v : Nat) : (b.setWord a v).tide = b.tide := rfl
@[simp] theorem Block.setWord_clk (a v : Nat) : (b.setWord a v).clk = b.clk := rfl
@[simp] theorem Block.setWord_pwr (a v : Nat) : (b.setWord a v).pwr = b.pwr := rfl
@[simp] theorem Block.setWord_slate (a v : Nat) : (b.setWord a v).slate = b.slate := rfl
@[simp] theorem Block.setWord_voices (a v : Nat) : (b.setWord a v).voices = b.voices := rfl
@[simp] theorem Block.setWord_lanes (a v : Nat) : (b.setWord a v).lanes = b.lanes := rfl
@[simp] theorem Block.setWord_glob (a v : Nat) : (b.setWord a v).glob = b.glob := rfl
@[simp] theorem Block.setWord_sched (a v : Nat) : (b.setWord a v).sched = b.sched := rfl
@[simp] theorem Block.setWord_store (a v : Nat) : (b.setWord a v).store = b.store := rfl
@[simp] theorem Block.setWord_fry (a v : Nat) : (b.setWord a v).fry = b.fry := rfl
@[simp] theorem Block.setWord_tst (a v : Nat) : (b.setWord a v).tst = b.tst := rfl
@[simp] theorem Block.setWord_mix (a v : Nat) : (b.setWord a v).mix = b.mix := rfl
@[simp] theorem Block.setWord_aout (a v : Nat) : (b.setWord a v).aout = b.aout := rfl
@[simp] theorem Block.setWord_ser (a v : Nat) : (b.setWord a v).ser = b.ser := rfl
@[simp] theorem Block.setWord_usb (a v : Nat) : (b.setWord a v).usb = b.usb := rfl
@[simp] theorem Block.setWord_bdsp (a v : Nat) : (b.setWord a v).bdsp = b.bdsp := rfl
@[simp] theorem Block.setWord_net (a v : Nat) : (b.setWord a v).net = b.net := rfl
@[simp] theorem Block.setWord_ptp (a v : Nat) : (b.setWord a v).ptp = b.ptp := rfl

/-! ### A register field -/

@[simp] theorem Block.wr_free (f : Fld) (v : Nat) : (b.wr f v).free = b.free := rfl
@[simp] theorem Block.wr_ev (f : Fld) (v : Nat) : (b.wr f v).ev = b.ev := rfl
@[simp] theorem Block.wr_host (f : Fld) (v : Nat) : (b.wr f v).host = b.host := rfl
@[simp] theorem Block.wr_proc (f : Fld) (v : Nat) : (b.wr f v).proc = b.proc := rfl
@[simp] theorem Block.wr_tide (f : Fld) (v : Nat) : (b.wr f v).tide = b.tide := rfl
@[simp] theorem Block.wr_clk (f : Fld) (v : Nat) : (b.wr f v).clk = b.clk := rfl
@[simp] theorem Block.wr_pwr (f : Fld) (v : Nat) : (b.wr f v).pwr = b.pwr := rfl
@[simp] theorem Block.wr_slate (f : Fld) (v : Nat) : (b.wr f v).slate = b.slate := rfl
@[simp] theorem Block.wr_voices (f : Fld) (v : Nat) : (b.wr f v).voices = b.voices := rfl
@[simp] theorem Block.wr_lanes (f : Fld) (v : Nat) : (b.wr f v).lanes = b.lanes := rfl
@[simp] theorem Block.wr_glob (f : Fld) (v : Nat) : (b.wr f v).glob = b.glob := rfl
@[simp] theorem Block.wr_sched (f : Fld) (v : Nat) : (b.wr f v).sched = b.sched := rfl
@[simp] theorem Block.wr_store (f : Fld) (v : Nat) : (b.wr f v).store = b.store := rfl
@[simp] theorem Block.wr_fry (f : Fld) (v : Nat) : (b.wr f v).fry = b.fry := rfl
@[simp] theorem Block.wr_tst (f : Fld) (v : Nat) : (b.wr f v).tst = b.tst := rfl
@[simp] theorem Block.wr_mix (f : Fld) (v : Nat) : (b.wr f v).mix = b.mix := rfl
@[simp] theorem Block.wr_aout (f : Fld) (v : Nat) : (b.wr f v).aout = b.aout := rfl
@[simp] theorem Block.wr_ser (f : Fld) (v : Nat) : (b.wr f v).ser = b.ser := rfl
@[simp] theorem Block.wr_usb (f : Fld) (v : Nat) : (b.wr f v).usb = b.usb := rfl
@[simp] theorem Block.wr_bdsp (f : Fld) (v : Nat) : (b.wr f v).bdsp = b.bdsp := rfl
@[simp] theorem Block.wr_net (f : Fld) (v : Nat) : (b.wr f v).net = b.net := rfl
@[simp] theorem Block.wr_ptp (f : Fld) (v : Nat) : (b.wr f v).ptp = b.ptp := rfl

/-! ### A one-bit field -/

@[simp] theorem Block.wrB_free (f : Fld) (v : Bool) : (b.wrB f v).free = b.free := rfl
@[simp] theorem Block.wrB_ev (f : Fld) (v : Bool) : (b.wrB f v).ev = b.ev := rfl
@[simp] theorem Block.wrB_host (f : Fld) (v : Bool) : (b.wrB f v).host = b.host := rfl
@[simp] theorem Block.wrB_proc (f : Fld) (v : Bool) : (b.wrB f v).proc = b.proc := rfl
@[simp] theorem Block.wrB_tide (f : Fld) (v : Bool) : (b.wrB f v).tide = b.tide := rfl
@[simp] theorem Block.wrB_clk (f : Fld) (v : Bool) : (b.wrB f v).clk = b.clk := rfl
@[simp] theorem Block.wrB_pwr (f : Fld) (v : Bool) : (b.wrB f v).pwr = b.pwr := rfl
@[simp] theorem Block.wrB_slate (f : Fld) (v : Bool) : (b.wrB f v).slate = b.slate := rfl
@[simp] theorem Block.wrB_voices (f : Fld) (v : Bool) : (b.wrB f v).voices = b.voices := rfl
@[simp] theorem Block.wrB_lanes (f : Fld) (v : Bool) : (b.wrB f v).lanes = b.lanes := rfl
@[simp] theorem Block.wrB_glob (f : Fld) (v : Bool) : (b.wrB f v).glob = b.glob := rfl
@[simp] theorem Block.wrB_sched (f : Fld) (v : Bool) : (b.wrB f v).sched = b.sched := rfl
@[simp] theorem Block.wrB_store (f : Fld) (v : Bool) : (b.wrB f v).store = b.store := rfl
@[simp] theorem Block.wrB_fry (f : Fld) (v : Bool) : (b.wrB f v).fry = b.fry := rfl
@[simp] theorem Block.wrB_tst (f : Fld) (v : Bool) : (b.wrB f v).tst = b.tst := rfl
@[simp] theorem Block.wrB_mix (f : Fld) (v : Bool) : (b.wrB f v).mix = b.mix := rfl
@[simp] theorem Block.wrB_aout (f : Fld) (v : Bool) : (b.wrB f v).aout = b.aout := rfl
@[simp] theorem Block.wrB_ser (f : Fld) (v : Bool) : (b.wrB f v).ser = b.ser := rfl
@[simp] theorem Block.wrB_usb (f : Fld) (v : Bool) : (b.wrB f v).usb = b.usb := rfl
@[simp] theorem Block.wrB_bdsp (f : Fld) (v : Bool) : (b.wrB f v).bdsp = b.bdsp := rfl
@[simp] theorem Block.wrB_net (f : Fld) (v : Bool) : (b.wrB f v).net = b.net := rfl
@[simp] theorem Block.wrB_ptp (f : Fld) (v : Bool) : (b.wrB f v).ptp = b.ptp := rfl

/-! ### A fresh free number -/

@[simp] theorem Block.fresh_regs (k : Nat) : ((b.fresh k).2).regs = b.regs := rfl
@[simp] theorem Block.fresh_ev (k : Nat) : ((b.fresh k).2).ev = b.ev := rfl
@[simp] theorem Block.fresh_host (k : Nat) : ((b.fresh k).2).host = b.host := rfl
@[simp] theorem Block.fresh_proc (k : Nat) : ((b.fresh k).2).proc = b.proc := rfl
@[simp] theorem Block.fresh_tide (k : Nat) : ((b.fresh k).2).tide = b.tide := rfl
@[simp] theorem Block.fresh_clk (k : Nat) : ((b.fresh k).2).clk = b.clk := rfl
@[simp] theorem Block.fresh_pwr (k : Nat) : ((b.fresh k).2).pwr = b.pwr := rfl
@[simp] theorem Block.fresh_slate (k : Nat) : ((b.fresh k).2).slate = b.slate := rfl
@[simp] theorem Block.fresh_voices (k : Nat) : ((b.fresh k).2).voices = b.voices := rfl
@[simp] theorem Block.fresh_lanes (k : Nat) : ((b.fresh k).2).lanes = b.lanes := rfl
@[simp] theorem Block.fresh_glob (k : Nat) : ((b.fresh k).2).glob = b.glob := rfl
@[simp] theorem Block.fresh_sched (k : Nat) : ((b.fresh k).2).sched = b.sched := rfl
@[simp] theorem Block.fresh_store (k : Nat) : ((b.fresh k).2).store = b.store := rfl
@[simp] theorem Block.fresh_fry (k : Nat) : ((b.fresh k).2).fry = b.fry := rfl
@[simp] theorem Block.fresh_tst (k : Nat) : ((b.fresh k).2).tst = b.tst := rfl
@[simp] theorem Block.fresh_mix (k : Nat) : ((b.fresh k).2).mix = b.mix := rfl
@[simp] theorem Block.fresh_aout (k : Nat) : ((b.fresh k).2).aout = b.aout := rfl
@[simp] theorem Block.fresh_ser (k : Nat) : ((b.fresh k).2).ser = b.ser := rfl
@[simp] theorem Block.fresh_usb (k : Nat) : ((b.fresh k).2).usb = b.usb := rfl
@[simp] theorem Block.fresh_bdsp (k : Nat) : ((b.fresh k).2).bdsp = b.bdsp := rfl
@[simp] theorem Block.fresh_net (k : Nat) : ((b.fresh k).2).net = b.net := rfl
@[simp] theorem Block.fresh_ptp (k : Nat) : ((b.fresh k).2).ptp = b.ptp := rfl

/-! ### A fresh free word -/

@[simp] theorem Block.freshWord_regs : (b.freshWord.2).regs = b.regs := rfl
@[simp] theorem Block.freshWord_ev : (b.freshWord.2).ev = b.ev := rfl
@[simp] theorem Block.freshWord_host : (b.freshWord.2).host = b.host := rfl
@[simp] theorem Block.freshWord_proc : (b.freshWord.2).proc = b.proc := rfl
@[simp] theorem Block.freshWord_tide : (b.freshWord.2).tide = b.tide := rfl
@[simp] theorem Block.freshWord_clk : (b.freshWord.2).clk = b.clk := rfl
@[simp] theorem Block.freshWord_pwr : (b.freshWord.2).pwr = b.pwr := rfl
@[simp] theorem Block.freshWord_slate : (b.freshWord.2).slate = b.slate := rfl
@[simp] theorem Block.freshWord_voices : (b.freshWord.2).voices = b.voices := rfl
@[simp] theorem Block.freshWord_lanes : (b.freshWord.2).lanes = b.lanes := rfl
@[simp] theorem Block.freshWord_glob : (b.freshWord.2).glob = b.glob := rfl
@[simp] theorem Block.freshWord_sched : (b.freshWord.2).sched = b.sched := rfl
@[simp] theorem Block.freshWord_store : (b.freshWord.2).store = b.store := rfl
@[simp] theorem Block.freshWord_fry : (b.freshWord.2).fry = b.fry := rfl
@[simp] theorem Block.freshWord_tst : (b.freshWord.2).tst = b.tst := rfl
@[simp] theorem Block.freshWord_mix : (b.freshWord.2).mix = b.mix := rfl
@[simp] theorem Block.freshWord_aout : (b.freshWord.2).aout = b.aout := rfl
@[simp] theorem Block.freshWord_ser : (b.freshWord.2).ser = b.ser := rfl
@[simp] theorem Block.freshWord_usb : (b.freshWord.2).usb = b.usb := rfl
@[simp] theorem Block.freshWord_bdsp : (b.freshWord.2).bdsp = b.bdsp := rfl
@[simp] theorem Block.freshWord_net : (b.freshWord.2).net = b.net := rfl
@[simp] theorem Block.freshWord_ptp : (b.freshWord.2).ptp = b.ptp := rfl

/-! ### Mailbox bytes -/

@[simp] theorem Block.putMbx_free (o : Nat) (bs : List Byte) : (b.putMbx o bs).free = b.free := rfl
@[simp] theorem Block.putMbx_regs (o : Nat) (bs : List Byte) : (b.putMbx o bs).regs = b.regs := rfl
@[simp] theorem Block.putMbx_ev (o : Nat) (bs : List Byte) : (b.putMbx o bs).ev = b.ev := rfl
@[simp] theorem Block.putMbx_host (o : Nat) (bs : List Byte) : (b.putMbx o bs).host = b.host := rfl
@[simp] theorem Block.putMbx_tide (o : Nat) (bs : List Byte) : (b.putMbx o bs).tide = b.tide := rfl
@[simp] theorem Block.putMbx_clk (o : Nat) (bs : List Byte) : (b.putMbx o bs).clk = b.clk := rfl
@[simp] theorem Block.putMbx_pwr (o : Nat) (bs : List Byte) : (b.putMbx o bs).pwr = b.pwr := rfl
@[simp] theorem Block.putMbx_slate (o : Nat) (bs : List Byte) : (b.putMbx o bs).slate = b.slate := rfl
@[simp] theorem Block.putMbx_voices (o : Nat) (bs : List Byte) : (b.putMbx o bs).voices = b.voices := rfl
@[simp] theorem Block.putMbx_lanes (o : Nat) (bs : List Byte) : (b.putMbx o bs).lanes = b.lanes := rfl
@[simp] theorem Block.putMbx_glob (o : Nat) (bs : List Byte) : (b.putMbx o bs).glob = b.glob := rfl
@[simp] theorem Block.putMbx_sched (o : Nat) (bs : List Byte) : (b.putMbx o bs).sched = b.sched := rfl
@[simp] theorem Block.putMbx_store (o : Nat) (bs : List Byte) : (b.putMbx o bs).store = b.store := rfl
@[simp] theorem Block.putMbx_fry (o : Nat) (bs : List Byte) : (b.putMbx o bs).fry = b.fry := rfl
@[simp] theorem Block.putMbx_tst (o : Nat) (bs : List Byte) : (b.putMbx o bs).tst = b.tst := rfl
@[simp] theorem Block.putMbx_mix (o : Nat) (bs : List Byte) : (b.putMbx o bs).mix = b.mix := rfl
@[simp] theorem Block.putMbx_aout (o : Nat) (bs : List Byte) : (b.putMbx o bs).aout = b.aout := rfl
@[simp] theorem Block.putMbx_ser (o : Nat) (bs : List Byte) : (b.putMbx o bs).ser = b.ser := rfl
@[simp] theorem Block.putMbx_usb (o : Nat) (bs : List Byte) : (b.putMbx o bs).usb = b.usb := rfl
@[simp] theorem Block.putMbx_bdsp (o : Nat) (bs : List Byte) : (b.putMbx o bs).bdsp = b.bdsp := rfl
@[simp] theorem Block.putMbx_net (o : Nat) (bs : List Byte) : (b.putMbx o bs).net = b.net := rfl
@[simp] theorem Block.putMbx_ptp (o : Nat) (bs : List Byte) : (b.putMbx o bs).ptp = b.ptp := rfl

/-! ### LPDDR5 bytes -/

@[simp] theorem Block.setLpddr_free (o : Nat) (bs : List Byte) : (b.setLpddr o bs).free = b.free := rfl
@[simp] theorem Block.setLpddr_regs (o : Nat) (bs : List Byte) : (b.setLpddr o bs).regs = b.regs := rfl
@[simp] theorem Block.setLpddr_ev (o : Nat) (bs : List Byte) : (b.setLpddr o bs).ev = b.ev := rfl
@[simp] theorem Block.setLpddr_host (o : Nat) (bs : List Byte) : (b.setLpddr o bs).host = b.host := rfl
@[simp] theorem Block.setLpddr_proc (o : Nat) (bs : List Byte) : (b.setLpddr o bs).proc = b.proc := rfl
@[simp] theorem Block.setLpddr_tide (o : Nat) (bs : List Byte) : (b.setLpddr o bs).tide = b.tide := rfl
@[simp] theorem Block.setLpddr_clk (o : Nat) (bs : List Byte) : (b.setLpddr o bs).clk = b.clk := rfl
@[simp] theorem Block.setLpddr_pwr (o : Nat) (bs : List Byte) : (b.setLpddr o bs).pwr = b.pwr := rfl
@[simp] theorem Block.setLpddr_voices (o : Nat) (bs : List Byte) : (b.setLpddr o bs).voices = b.voices := rfl
@[simp] theorem Block.setLpddr_lanes (o : Nat) (bs : List Byte) : (b.setLpddr o bs).lanes = b.lanes := rfl
@[simp] theorem Block.setLpddr_glob (o : Nat) (bs : List Byte) : (b.setLpddr o bs).glob = b.glob := rfl
@[simp] theorem Block.setLpddr_sched (o : Nat) (bs : List Byte) : (b.setLpddr o bs).sched = b.sched := rfl
@[simp] theorem Block.setLpddr_store (o : Nat) (bs : List Byte) : (b.setLpddr o bs).store = b.store := rfl
@[simp] theorem Block.setLpddr_fry (o : Nat) (bs : List Byte) : (b.setLpddr o bs).fry = b.fry := rfl
@[simp] theorem Block.setLpddr_tst (o : Nat) (bs : List Byte) : (b.setLpddr o bs).tst = b.tst := rfl
@[simp] theorem Block.setLpddr_mix (o : Nat) (bs : List Byte) : (b.setLpddr o bs).mix = b.mix := rfl
@[simp] theorem Block.setLpddr_aout (o : Nat) (bs : List Byte) : (b.setLpddr o bs).aout = b.aout := rfl
@[simp] theorem Block.setLpddr_ser (o : Nat) (bs : List Byte) : (b.setLpddr o bs).ser = b.ser := rfl
@[simp] theorem Block.setLpddr_usb (o : Nat) (bs : List Byte) : (b.setLpddr o bs).usb = b.usb := rfl
@[simp] theorem Block.setLpddr_bdsp (o : Nat) (bs : List Byte) : (b.setLpddr o bs).bdsp = b.bdsp := rfl
@[simp] theorem Block.setLpddr_net (o : Nat) (bs : List Byte) : (b.setLpddr o bs).net = b.net := rfl
@[simp] theorem Block.setLpddr_ptp (o : Nat) (bs : List Byte) : (b.setLpddr o bs).ptp = b.ptp := rfl

/-! ### What a port drives -/

@[simp] theorem Block.drive_free (bs : List Byte) : (b.drive bs).free = b.free := rfl
@[simp] theorem Block.drive_regs (bs : List Byte) : (b.drive bs).regs = b.regs := rfl
@[simp] theorem Block.drive_ev (bs : List Byte) : (b.drive bs).ev = b.ev := rfl
@[simp] theorem Block.drive_proc (bs : List Byte) : (b.drive bs).proc = b.proc := rfl
@[simp] theorem Block.drive_tide (bs : List Byte) : (b.drive bs).tide = b.tide := rfl
@[simp] theorem Block.drive_clk (bs : List Byte) : (b.drive bs).clk = b.clk := rfl
@[simp] theorem Block.drive_pwr (bs : List Byte) : (b.drive bs).pwr = b.pwr := rfl
@[simp] theorem Block.drive_slate (bs : List Byte) : (b.drive bs).slate = b.slate := rfl
@[simp] theorem Block.drive_voices (bs : List Byte) : (b.drive bs).voices = b.voices := rfl
@[simp] theorem Block.drive_lanes (bs : List Byte) : (b.drive bs).lanes = b.lanes := rfl
@[simp] theorem Block.drive_glob (bs : List Byte) : (b.drive bs).glob = b.glob := rfl
@[simp] theorem Block.drive_sched (bs : List Byte) : (b.drive bs).sched = b.sched := rfl
@[simp] theorem Block.drive_store (bs : List Byte) : (b.drive bs).store = b.store := rfl
@[simp] theorem Block.drive_fry (bs : List Byte) : (b.drive bs).fry = b.fry := rfl
@[simp] theorem Block.drive_tst (bs : List Byte) : (b.drive bs).tst = b.tst := rfl
@[simp] theorem Block.drive_mix (bs : List Byte) : (b.drive bs).mix = b.mix := rfl
@[simp] theorem Block.drive_aout (bs : List Byte) : (b.drive bs).aout = b.aout := rfl
@[simp] theorem Block.drive_ser (bs : List Byte) : (b.drive bs).ser = b.ser := rfl
@[simp] theorem Block.drive_usb (bs : List Byte) : (b.drive bs).usb = b.usb := rfl
@[simp] theorem Block.drive_bdsp (bs : List Byte) : (b.drive bs).bdsp = b.bdsp := rfl
@[simp] theorem Block.drive_net (bs : List Byte) : (b.drive bs).net = b.net := rfl
@[simp] theorem Block.drive_ptp (bs : List Byte) : (b.drive bs).ptp = b.ptp := rfl

/-! ### Levels and held sources -/

@[simp] theorem settle_free : (settle b).free = b.free := rfl
@[simp] theorem settle_regs : (settle b).regs = b.regs := rfl
@[simp] theorem settle_proc : (settle b).proc = b.proc := rfl
@[simp] theorem settle_tide : (settle b).tide = b.tide := rfl
@[simp] theorem settle_clk : (settle b).clk = b.clk := rfl
@[simp] theorem settle_pwr : (settle b).pwr = b.pwr := rfl
@[simp] theorem settle_slate : (settle b).slate = b.slate := rfl
@[simp] theorem settle_voices : (settle b).voices = b.voices := rfl
@[simp] theorem settle_lanes : (settle b).lanes = b.lanes := rfl
@[simp] theorem settle_glob : (settle b).glob = b.glob := rfl
@[simp] theorem settle_sched : (settle b).sched = b.sched := rfl
@[simp] theorem settle_store : (settle b).store = b.store := rfl
@[simp] theorem settle_fry : (settle b).fry = b.fry := rfl
@[simp] theorem settle_tst : (settle b).tst = b.tst := rfl
@[simp] theorem settle_mix : (settle b).mix = b.mix := rfl
@[simp] theorem settle_aout : (settle b).aout = b.aout := rfl
@[simp] theorem settle_ser : (settle b).ser = b.ser := rfl
@[simp] theorem settle_usb : (settle b).usb = b.usb := rfl
@[simp] theorem settle_bdsp : (settle b).bdsp = b.bdsp := rfl
@[simp] theorem settle_net : (settle b).net = b.net := rfl
@[simp] theorem settle_ptp : (settle b).ptp = b.ptp := rfl

/-! ### An event raised -/

@[simp] theorem Block.raise_free (n : Nat) : (b.raise n).free = b.free := by unfold Block.raise; dsimp only; split <;> rfl
@[simp] theorem Block.raise_regs (n : Nat) : (b.raise n).regs = b.regs := by unfold Block.raise; dsimp only; split <;> rfl
@[simp] theorem Block.raise_host (n : Nat) : (b.raise n).host = b.host := by unfold Block.raise; dsimp only; split <;> rfl
@[simp] theorem Block.raise_tide (n : Nat) : (b.raise n).tide = b.tide := by unfold Block.raise; dsimp only; split <;> rfl
@[simp] theorem Block.raise_clk (n : Nat) : (b.raise n).clk = b.clk := by unfold Block.raise; dsimp only; split <;> rfl
@[simp] theorem Block.raise_pwr (n : Nat) : (b.raise n).pwr = b.pwr := by unfold Block.raise; dsimp only; split <;> rfl
@[simp] theorem Block.raise_slate (n : Nat) : (b.raise n).slate = b.slate := by unfold Block.raise; dsimp only; split <;> rfl
@[simp] theorem Block.raise_voices (n : Nat) : (b.raise n).voices = b.voices := by unfold Block.raise; dsimp only; split <;> rfl
@[simp] theorem Block.raise_lanes (n : Nat) : (b.raise n).lanes = b.lanes := by unfold Block.raise; dsimp only; split <;> rfl
@[simp] theorem Block.raise_glob (n : Nat) : (b.raise n).glob = b.glob := by unfold Block.raise; dsimp only; split <;> rfl
@[simp] theorem Block.raise_sched (n : Nat) : (b.raise n).sched = b.sched := by unfold Block.raise; dsimp only; split <;> rfl
@[simp] theorem Block.raise_store (n : Nat) : (b.raise n).store = b.store := by unfold Block.raise; dsimp only; split <;> rfl
@[simp] theorem Block.raise_fry (n : Nat) : (b.raise n).fry = b.fry := by unfold Block.raise; dsimp only; split <;> rfl
@[simp] theorem Block.raise_tst (n : Nat) : (b.raise n).tst = b.tst := by unfold Block.raise; dsimp only; split <;> rfl
@[simp] theorem Block.raise_mix (n : Nat) : (b.raise n).mix = b.mix := by unfold Block.raise; dsimp only; split <;> rfl
@[simp] theorem Block.raise_aout (n : Nat) : (b.raise n).aout = b.aout := by unfold Block.raise; dsimp only; split <;> rfl
@[simp] theorem Block.raise_ser (n : Nat) : (b.raise n).ser = b.ser := by unfold Block.raise; dsimp only; split <;> rfl
@[simp] theorem Block.raise_usb (n : Nat) : (b.raise n).usb = b.usb := by unfold Block.raise; dsimp only; split <;> rfl
@[simp] theorem Block.raise_bdsp (n : Nat) : (b.raise n).bdsp = b.bdsp := by unfold Block.raise; dsimp only; split <;> rfl
@[simp] theorem Block.raise_net (n : Nat) : (b.raise n).net = b.net := by unfold Block.raise; dsimp only; split <;> rfl
@[simp] theorem Block.raise_ptp (n : Nat) : (b.raise n).ptp = b.ptp := by unfold Block.raise; dsimp only; split <;> rfl

/-! ### What raising an event touches -/

@[simp] theorem Block.raise_en (n : Nat) : (b.raise n).ev.en = b.ev.en := by unfold Block.raise; dsimp only; split <;> rfl
@[simp] theorem Block.raise_pend (n : Nat) : (b.raise n).ev.pend = b.ev.pend ||| BitVec.ofNat 224 (2 ^ n) := by
  unfold Block.raise; dsimp only; split <;> rfl
@[simp] theorem Block.raise_word (n a : Nat) : (b.raise n).word a = b.word a := by simp [Block.word]
@[simp] theorem Block.raise_rd (n : Nat) (f : Fld) : (b.raise n).rd f = b.rd f := by simp [Block.rd]
@[simp] theorem Block.raise_flag (n : Nat) (f : Fld) : (b.raise n).flag f = b.flag f := by simp [Block.flag]

/-- An event raised is pending. -/
theorem Block.raise_pending {n : Nat} (h : n < 224) : (b.raise n).ev.pend.getLsbD n = true := by
  rw [Block.raise_pend, BitVec.getLsbD_or, BitVec.getLsbD_ofNat, Nat.testBit_two_pow_self]
  simp [h]

/-- What was pending stays pending where another event is raised. -/
theorem Block.raise_keeps {n k : Nat} (h : b.ev.pend.getLsbD k = true) : (b.raise n).ev.pend.getLsbD k = true := by
  rw [Block.raise_pend, BitVec.getLsbD_or, h, Bool.true_or]

/-! ### Registers read back -/

/-- A register word reads the value stored, modulo 2^32. -/
@[simp] theorem Block.setWord_word_same (a v : Nat) : (b.setWord a v).word a = v % 2 ^ 32 := by
  simp [Block.word, Block.setWord, smGet_set_same]

/-- Every other register word is untouched. -/
theorem Block.setWord_word_ne {a a' : Nat} (v : Nat) (h : a' ≠ a) : (b.setWord a v).word a' = b.word a' := by
  simp [Block.word, Block.setWord, smGet_set_ne h]

theorem Block.word_lt (a : Nat) : b.word a < 2 ^ 32 := (smGet regReset b.regs a).isLt

/-- A field stored leaves every other register as it was. -/
theorem Block.wr_word_ne {a : Nat} {f : Fld} (v : Nat) (h : a ≠ f.addr) : (b.wr f v).word a = b.word a :=
  Block.setWord_word_ne b _ h

/-- A field reads what was stored in it. -/
theorem Block.wr_rd_same {f : Fld} (v : Nat) (h : f.lo ≤ f.hi) (h' : f.hi < 32) :
    (b.wr f v).rd f = v % 2 ^ (f.hi + 1 - f.lo) := by
  simp only [Block.rd, Block.wr, Block.setWord_word_same]
  rw [bitsOf_mod h', bitsOf_putBits_same h]

/-- A field of another register, or beside the bits stored, reads as before. -/
theorem Block.wr_rd_other {f g : Fld} (v : Nat) (hf : f.lo ≤ f.hi) (h' : f.hi < 32)
    (h : g.addr ≠ f.addr ∨ g.hi < f.lo ∨ (f.hi < g.lo ∧ g.hi < 32)) : (b.wr f v).rd g = b.rd g := by
  by_cases e : g.addr = f.addr
  · rcases h with h | h | h
    · exact absurd e h
    · simp only [Block.rd, Block.wr, e, Block.setWord_word_same]
      rw [bitsOf_mod (by omega), bitsOf_putBits_lt hf h]
    · simp only [Block.rd, Block.wr, e, Block.setWord_word_same]
      rw [bitsOf_mod h.2, bitsOf_putBits_gt hf h.1]
  · simp only [Block.rd, Block.wr, Block.setWord_word_ne b _ e]

/-! ### A port error -/

theorem wrAll_keeps {α : Type} (p : Block → α) (h : ∀ (b : Block) f v, p (b.wr f v) = p b) (l : List Fld) (b : Block) :
    p (l.foldl (fun b f => b.wr f 1) b) = p b := by
  induction l generalizing b with
  | nil => rfl
  | cons f l ih => rw [List.foldl_cons, ih, h]

/-- A port error touches registers, pending events and the Proctor's queue of them only. -/
theorem Block.hostErr_keeps {α : Type} (p : Block → α) (h : ∀ (b : Block) f v, p (b.wr f v) = p b)
    (hr : ∀ (b : Block) n, p (b.raise n) = p b) (b : Block) (l : List Fld) (a : Option Nat) : p (b.hostErr l a) = p b := by
  unfold Block.hostErr
  generalize (match a with | some a => a / 4 * 4 | none => 0xFFFFFFFF) = v
  dsimp only
  rw [hr, wrAll_keeps p h]
  by_cases e : b.word rHIF_HOST_STAT = 0
  · rw [if_pos e, h]
  · rw [if_neg e]

@[simp] theorem Block.hostErr_free (l : List Fld) (a : Option Nat) : (b.hostErr l a).free = b.free :=
  Block.hostErr_keeps (·.free) (fun _ _ _ => rfl) (fun _ _ => by simp) b l a
@[simp] theorem Block.hostErr_host (l : List Fld) (a : Option Nat) : (b.hostErr l a).host = b.host :=
  Block.hostErr_keeps (·.host) (fun _ _ _ => rfl) (fun _ _ => by simp) b l a
@[simp] theorem Block.hostErr_tide (l : List Fld) (a : Option Nat) : (b.hostErr l a).tide = b.tide :=
  Block.hostErr_keeps (·.tide) (fun _ _ _ => rfl) (fun _ _ => by simp) b l a
@[simp] theorem Block.hostErr_clk (l : List Fld) (a : Option Nat) : (b.hostErr l a).clk = b.clk :=
  Block.hostErr_keeps (·.clk) (fun _ _ _ => rfl) (fun _ _ => by simp) b l a
@[simp] theorem Block.hostErr_pwr (l : List Fld) (a : Option Nat) : (b.hostErr l a).pwr = b.pwr :=
  Block.hostErr_keeps (·.pwr) (fun _ _ _ => rfl) (fun _ _ => by simp) b l a
@[simp] theorem Block.hostErr_slate (l : List Fld) (a : Option Nat) : (b.hostErr l a).slate = b.slate :=
  Block.hostErr_keeps (·.slate) (fun _ _ _ => rfl) (fun _ _ => by simp) b l a
@[simp] theorem Block.hostErr_voices (l : List Fld) (a : Option Nat) : (b.hostErr l a).voices = b.voices :=
  Block.hostErr_keeps (·.voices) (fun _ _ _ => rfl) (fun _ _ => by simp) b l a
@[simp] theorem Block.hostErr_lanes (l : List Fld) (a : Option Nat) : (b.hostErr l a).lanes = b.lanes :=
  Block.hostErr_keeps (·.lanes) (fun _ _ _ => rfl) (fun _ _ => by simp) b l a
@[simp] theorem Block.hostErr_glob (l : List Fld) (a : Option Nat) : (b.hostErr l a).glob = b.glob :=
  Block.hostErr_keeps (·.glob) (fun _ _ _ => rfl) (fun _ _ => by simp) b l a
@[simp] theorem Block.hostErr_sched (l : List Fld) (a : Option Nat) : (b.hostErr l a).sched = b.sched :=
  Block.hostErr_keeps (·.sched) (fun _ _ _ => rfl) (fun _ _ => by simp) b l a
@[simp] theorem Block.hostErr_store (l : List Fld) (a : Option Nat) : (b.hostErr l a).store = b.store :=
  Block.hostErr_keeps (·.store) (fun _ _ _ => rfl) (fun _ _ => by simp) b l a
@[simp] theorem Block.hostErr_fry (l : List Fld) (a : Option Nat) : (b.hostErr l a).fry = b.fry :=
  Block.hostErr_keeps (·.fry) (fun _ _ _ => rfl) (fun _ _ => by simp) b l a
@[simp] theorem Block.hostErr_tst (l : List Fld) (a : Option Nat) : (b.hostErr l a).tst = b.tst :=
  Block.hostErr_keeps (·.tst) (fun _ _ _ => rfl) (fun _ _ => by simp) b l a
@[simp] theorem Block.hostErr_mix (l : List Fld) (a : Option Nat) : (b.hostErr l a).mix = b.mix :=
  Block.hostErr_keeps (·.mix) (fun _ _ _ => rfl) (fun _ _ => by simp) b l a
@[simp] theorem Block.hostErr_aout (l : List Fld) (a : Option Nat) : (b.hostErr l a).aout = b.aout :=
  Block.hostErr_keeps (·.aout) (fun _ _ _ => rfl) (fun _ _ => by simp) b l a
@[simp] theorem Block.hostErr_ser (l : List Fld) (a : Option Nat) : (b.hostErr l a).ser = b.ser :=
  Block.hostErr_keeps (·.ser) (fun _ _ _ => rfl) (fun _ _ => by simp) b l a
@[simp] theorem Block.hostErr_usb (l : List Fld) (a : Option Nat) : (b.hostErr l a).usb = b.usb :=
  Block.hostErr_keeps (·.usb) (fun _ _ _ => rfl) (fun _ _ => by simp) b l a
@[simp] theorem Block.hostErr_bdsp (l : List Fld) (a : Option Nat) : (b.hostErr l a).bdsp = b.bdsp :=
  Block.hostErr_keeps (·.bdsp) (fun _ _ _ => rfl) (fun _ _ => by simp) b l a
@[simp] theorem Block.hostErr_net (l : List Fld) (a : Option Nat) : (b.hostErr l a).net = b.net :=
  Block.hostErr_keeps (·.net) (fun _ _ _ => rfl) (fun _ _ => by simp) b l a
@[simp] theorem Block.hostErr_ptp (l : List Fld) (a : Option Nat) : (b.hostErr l a).ptp = b.ptp :=
  Block.hostErr_keeps (·.ptp) (fun _ _ _ => rfl) (fun _ _ => by simp) b l a

end Sys2Proof.Machine
end

