-- ==== Sys2Proof/Laws/Settle.lean ====
section
/-! SUPPORT. What hardware keeps true at every moment holds of every machine that a meaning answers. -/

namespace Sys2Proof.Machine

variable (b : Block)

theorem settle_pend : (settle b).ev.pend = (b.ev.pend ||| b.heldSources) &&& sourceMask := rfl
theorem settle_en : (settle b).ev.en = b.ev.en &&& sourceMask := rfl
theorem settle_hbusy : (settle b).host.hbusy = b.busyDue := rfl
@[simp] theorem settle_wbuf : (settle b).host.wbuf = b.host.wbuf := rfl
@[simp] theorem settle_txn : (settle b).host.txn = b.host.txn := rfl
@[simp] theorem settle_ready : (settle b).host.ready = b.host.ready := rfl
@[simp] theorem settle_out : (settle b).host.out = b.host.out := rfl
@[simp] theorem settle_word (a : Nat) : (settle b).word a = b.word a := rfl
@[simp] theorem settle_rd (f : Fld) : (settle b).rd f = b.rd f := rfl
@[simp] theorem settle_flag (f : Fld) : (settle b).flag f = b.flag f := rfl
@[simp] theorem settle_heldSources : (settle b).heldSources = b.heldSources := rfl
@[simp] theorem settle_busyDue : (settle b).busyDue = b.busyDue := rfl

/-- A machine at its levels is settled. -/
theorem settled_settle : (settle b).Settled := by
  refine ⟨rfl, rfl, ?_, ?_, ?_⟩
  · intro n hn hm
    rw [settle_pend, BitVec.getLsbD_and, BitVec.getLsbD_or, ← settle_heldSources, hn, hm]
    simp
  · rw [settle_pend, BitVec.and_assoc, BitVec.and_self]
  · rw [settle_en, BitVec.and_assoc, BitVec.and_self]

end Sys2Proof.Machine
end

