-- ==== Sys2Proof/Certificates/Slice0/Obligations.lean ====
section
/-! DEFINITION. The statements for the provers: what the rules of spec/ say of every family of commands and every kind of
state. `Ends i b b'` and `Replies i op c b e b'` (Sys2Proof/Safety.lean) say that `exec` answers NEXT, and the whole machine it
answers, so that each such statement is a command's result, its completion and its frame in one. -/

open Sys2Proof Sys2Proof.Machine

/-! ### The queue and every command -/

/-- A step takes the command at the front of the queue and answers what it does on the machine with the queue's rest; on an
empty queue the Tide ticks once where it runs (the model's choice, notes/assumptions/6.md), and the queue stays empty. -/
def Obligations.StepTakesTheFrontCommand : Prop :=
  (∀ (c : Instr) (q : List Instr) (b : Block),
    step { pending := c :: q, blk := b } = exec c { pending := q, blk := b }) ∧
  (∀ b : Block, b.tideRuns = true →
    step { pending := [], blk := b } = .next { pending := [], blk := settle (b.advanceTo ((b.now + 1) % tideMod)) }) ∧
  (∀ b : Block, b.tideRuns = false → step { pending := [], blk := b } = .next { pending := [], blk := settle b })

/-- Every command whose operands name units of the part answers NEXT and leaves the queue as it was; one that names another
unit cannot occur and is refused as ill-formed (the model's choice, notes/assumptions/1.md). -/
def Obligations.EveryCommandAnswers : Prop :=
  ∀ (i : Instr) (b : Block),
    (i.wf = true → ∃ b', Ends i b b') ∧
    (i.wf = false → ∀ q, exec i { pending := q, blk := b } = .refused .illFormed)

/-- Whatever a step does from whatever state, the machine it answers has HIRQN and HBUSY at the levels of R45 to R48, every
held source pending whose condition holds (R577), and no reserved source pending or enabled (R576). -/
def Obligations.EveryStepKeepsLevelsAndHeldSources : Prop :=
  ∀ s t : State, step s = .next t → t.blk.Settled

/-- The machine right after a power-on reset: the Tide stands at 0 with epoch 0, HIRQN is released and HBUSY asserted, the
port accepts nothing, the mode is BOOT, no event is pending, the write buffer is empty, every listed register is at its reset
value, the queue is empty; and the levels and held sources are as hardware keeps them. -/
def Obligations.ResetLeaves : Prop :=
  let b := State.reset.blk
  State.reset.pending = [] ∧ b.now = 0 ∧ b.tide.epoch = 0 ∧ b.tideRuns = false ∧ b.host.hirq = false ∧ b.host.hbusy = true ∧
  b.host.ready = false ∧ b.mode = mBOOT ∧ b.ev.pend = 0 ∧ b.ev.en = 0 ∧ b.host.wbuf = [] ∧
  (∀ a, b.word a = (regReset a).toNat) ∧ b.regsWf = true ∧ b.Settled

/-! ### Registers and memories -/

/-- A host write to a register as its fields' access codes say (R9, R12): each RW field takes the new bits where it lists them
and else keeps its own, W1C clears where 1 is written, W1S sets, and RO, WO and RC fields keep the stored bits; every other
register is untouched. -/
def Obligations.RegisterWriteFollowsAccessCodes : Prop :=
  ∀ (b : Block) (a v : Nat) (r : RegDef) (i : Nat), regAt a = some (r, i) → v < 2 ^ 32 →
    (∀ f ∈ r.fields,
      let o := bitsOf (b.word a) f.hi f.lo
      let n := bitsOf v f.hi f.lo
      bitsOf ((b.put a v).word a) f.hi f.lo =
        (match f.acc with
         | .rw => if f.allows n then n else o
         | .w1c => Nat.xor (Nat.lor o n) n
         | .w1s => Nat.lor o n
         | .ro | .wo | .rc => o)) ∧
    (∀ a', a' ≠ a → (b.put a v).word a' = b.word a')

/-- A register field holds what was stored in it, modulo its width; the register's other fields and every other register keep
their values. -/
def Obligations.FieldHoldsWhatWasStored : Prop :=
  ∀ (b : Block) (f : Fld) (v : Nat), f.lo ≤ f.hi → f.hi < 32 →
    (b.wr f v).rd f = v % 2 ^ (f.hi + 1 - f.lo) ∧
    (∀ g : Fld, (g.addr ≠ f.addr ∨ g.hi < f.lo ∨ (f.hi < g.lo ∧ g.hi < 32)) → (b.wr f v).rd g = b.rd g)

/-- Every operation that stores to the register file, the mailboxes, slate memory, LPDDR5 or the flash keeps its canonical
form: keys strictly rising, nothing listed that an unlisted key would read. -/
def Obligations.MemoriesStayCanonical : Prop :=
  (∀ (b : Block) (a v : Nat), b.regsWf = true → (b.setWord a v).regsWf = true ∧ (b.put a v).regsWf = true) ∧
  (∀ (b : Block) (f : Fld) (v : Nat), b.regsWf = true → (b.wr f v).regsWf = true) ∧
  (∀ (b : Block) (o : Nat) (bs : List Byte), smWf (fun _ => 0) b.proc.mbx = true →
    smWf (fun _ => 0) (b.putMbx o bs).proc.mbx = true) ∧
  (∀ (b : Block) (o : Nat) (bs : List Byte), smWf (fun _ => 0) b.slate.mem = true →
    smWf (fun _ => 0) (b.setSlate o bs).slate.mem = true) ∧
  (∀ (b : Block) (o : Nat) (bs : List Byte), smWf (fun _ => 0) b.slate.lpddr = true →
    smWf (fun _ => 0) (b.setLpddr o bs).slate.lpddr = true) ∧
  (∀ (b : Block) (a n : Nat) (bs : List Byte), smWf flashErased b.pwr.flash = true →
    smWf flashErased (programFlash a bs b).pwr.flash = true ∧ smWf flashErased (eraseFlash a n b).pwr.flash = true)

/-- Slate memory and LPDDR5 read back the bytes written, and every byte outside them is untouched. -/
def Obligations.MemoryReadsBackWhatWasWritten : Prop :=
  ∀ (b : Block) (o : Nat) (bs : List Byte),
    (b.setSlate o bs).slateBytes o bs.length = bs ∧
    (∀ k, (k < o ∨ o + bs.length ≤ k) → (b.setSlate o bs).slateBytes k 1 = b.slateBytes k 1) ∧
    (b.setLpddr o bs).lpddrBytes o bs.length = bs ∧
    (∀ k, (k < o ∨ o + bs.length ≤ k) → (b.setLpddr o bs).lpddrBytes k 1 = b.lpddrBytes k 1)

/-! ### The host ports (02) -/

/-- What each transaction of the octal-SPI port does where the port accepts (R36 to R47). WRITE: the transaction opens, its
words arrive one after the other at consecutive word addresses, and a partial last word is remembered for the rise of HCSN.
READ: the words drive out, least significant byte first; too few dummy cycles leave the first word open and report
READ_UNDERRUN. READ_STATUS repeats the status byte, READ_ID repeats HIF_ID, PORT_RESET puts HIF_HOST_CFG at its reset value,
an opcode that R39 does not list sets BAD_OPCODE; the rise of HCSN ends the transaction and reports a partial word.

After a failure of the IRC (R412) the host ports serve register reads and PORT_RESET, and beside them the status byte and HIF_ID;
a WRITE, a single word and a retirement change nothing, and a read of anything but a register drives 0 (the model's choice,
notes/assumptions/45.md). -/
def Obligations.OctalSpiTransactions : Prop :=
  (∀ b : Block,
  (b.host.ready = true →
    (∀ (addr : Word) (words : List Word) (part : Nat), part < 4 → b.clk.backupOsc = false →
      let a := addr.toNat / 4 * 4
      let w := arriveAll b.host.txnNext a words (openTxn b)
      Ends (.write addr words part) b
        (if part = 0 then w
         else { w with host := { w.host with
           txn := w.host.txn.map (fun t => { t with part := some ((a + 4 * words.length) % 2 ^ 32) }) } })) ∧
    (∀ (addr : Word) (ps : Nat) (words : List SlateHit),
      let a := addr.toNat / 4 * 4
      (words = [] ∨ accessPs a ≤ (openTxn b).rd fHIF_HOST_CFG_DUMMY * ps →
        let r := hostReads 0 words a (openTxn b)
        Ends (.read addr words ps) b (r.2.drive r.1)) ∧
      (words ≠ [] → (openTxn b).rd fHIF_HOST_CFG_DUMMY * ps < accessPs a →
        let u := ((openTxn b).hostErr [fHIF_HOST_STAT_READ_UNDERRUN] (some a)).freshWord
        let r := hostReads 0 words a u.2
        Ends (.read addr words ps) b (r.2.drive (toLE 4 u.1 ++ r.1.drop 4)))) ∧
    (∀ count : Nat,
      Ends (.readStatus count) b
        ((settle (openTxn b)).drive (List.replicate count (BitVec.ofNat 8 (statusByte (settle (openTxn b)))))) ∧
      Ends (.readId count) b
        ((openTxn b).drive (List.replicate count (toLE 4 ((openTxn b).word rHIF_ID))).flatten)) ∧
    Ends .portReset b ((openTxn b).setWord rHIF_HOST_CFG 0x10) ∧
    (∀ op : Byte, op.toNat ∉ [0x02, 0x0B, 0x05, 0x9F, 0xFF] →
      Ends (.badOpcode op) b ((openTxn b).hostErr [fHIF_HOST_STAT_BAD_OPCODE] none))) ∧
  (∀ t : Txn, b.host.txn = some t →
    let b' := { b with host := { b.host with txn := none } }
    (t.part = none → Ends .hcsnRise b b') ∧
    (∀ a, t.part = some a →
      Ends .hcsnRise b (b'.hostErr [fHIF_HOST_STAT_PARTIAL_WORD, fHIF_HOST_STAT_WRITE_DISCARDED] (some a))))) ∧
  (∀ b : Block, b.host.ready = true → b.clk.backupOsc = true →
    (∀ (addr v : Word) (words : List Word) (part : Nat) (p : TwoCycles), part < 4 →
      Ends (.write addr words part) b b ∧ Ends (.registerWrite addr v) b b ∧ Ends (.mailboxWrite addr v) b b ∧
      Ends (.slateWindowWrite addr v p) b b ∧ Ends .writeRetire b b) ∧
    (∀ (addr : Word) (ps : Nat) (hit : SlateHit), isRegisterWord (addr.toNat / 4 * 4) = true →
      accessPs (addr.toNat / 4 * 4) ≤ (openTxn b).rd fHIF_HOST_CFG_DUMMY * ps →
      let r := hostRead 0 hit (addr.toNat / 4 * 4) (openTxn b)
      Ends (.read addr [hit] ps) b (r.2.drive (toLE 4 r.1))) ∧
    (∀ (addr : Word) (ps : Nat) (hit : SlateHit), isRegisterWord (addr.toNat / 4 * 4) = false →
      accessPs (addr.toNat / 4 * 4) ≤ (openTxn b).rd fHIF_HOST_CFG_DUMMY * ps →
      Ends (.read addr [hit] ps) b ((openTxn b).drive [0, 0, 0, 0])) ∧
    Ends .portReset b ((openTxn b).setWord rHIF_HOST_CFG 0x10))

/-- The host status byte (R42), as READ_STATUS drives it out: bit 7 any sticky bit in HIF_HOST_STAT, 6 ABORT_BUSY, 5 PROCTOR_RUN,
4 any HIF_DOORBELL_OUT bit, 3 READ_UNDERRUN, 2 WRITE_DISCARDED, 1 HIRQN asserted, 0 HBUSY asserted. -/
def Obligations.HostStatusByte : Prop :=
  ∀ (b : Block) (count : Nat), b.host.ready = true →
    let now := settle (openTxn b)
    ∃ s : Byte, Ends (.readStatus count) b (now.drive (List.replicate count s)) ∧
      (s.getLsbD 7 = true ↔ now.word rHIF_HOST_STAT ≠ 0) ∧
      (s.getLsbD 6 = true ↔ now.rd fHIF_STATUS_ABORT_BUSY ≠ 0) ∧
      (s.getLsbD 5 = true ↔ now.rd fHIF_STATUS_PROCTOR_RUN ≠ 0) ∧
      (s.getLsbD 4 = true ↔ now.rd fHIF_DOORBELL_OUT_READY ≠ 0) ∧
      (s.getLsbD 3 = true ↔ now.rd fHIF_HOST_STAT_READ_UNDERRUN ≠ 0) ∧
      (s.getLsbD 2 = true ↔ now.rd fHIF_HOST_STAT_WRITE_DISCARDED ≠ 0) ∧
      (s.getLsbD 1 = true ↔ now.host.hirq = true) ∧ (s.getLsbD 0 = true ↔ now.host.hbusy = true)

/-- The words of a WRITE to granted registers of the blocks enter the write buffer in order behind the words that wait, each with
its address and its transaction, while the buffer of 64 has room for them; nothing else changes but the transaction that
opens.

A word that arrives without its grant, with the buffer full, or for a mailbox that the host does not own is discarded: it sets
WRITE_DISCARDED with the bit that names its reason, captures its address where none is held, raises HOST_PORT_ERR, and never
reaches the buffer, which never grows past 64 words (R33, R45, R46, R58). -/
def Obligations.WordsEnterTheBufferOrAreReported : Prop :=
  (∀ (b : Block) (addr : Word) (words : List Word),
     portsServe b = true → b.host.txn = none →
     0x10000 ≤ addr.toNat / 4 * 4 → addr.toNat / 4 * 4 + 4 * words.length ≤ 0xF0000 →
     (∀ k < words.length, granted b (addr.toNat / 4 * 4 + 4 * k) = true) →
     b.host.wbuf.length + words.length ≤ 64 →
     Ends (.write addr words 0) b
       { b with host := { b.host with
         wbuf := b.host.wbuf ++ words.mapIdx (fun k w => ⟨addr.toNat / 4 * 4 + 4 * k, w.toNat, b.host.txnNext⟩)
         txn := some { id := b.host.txnNext, busy := false, part := none }
         txnNext := b.host.txnNext + 1, out := [] } }) ∧
  (∀ (b : Block) (a v txn : Nat),
     (b.host.wbuf.length ≤ 64 → (arrive a v txn b).host.wbuf.length ≤ 64) ∧
     (granted b a = false →
       (arrive a v txn b).flag fHIF_HOST_STAT_GRANT_VIOLATION = true ∧
       (arrive a v txn b).flag fHIF_HOST_STAT_WRITE_DISCARDED = true ∧
       (arrive a v txn b).ev.pend.getLsbD evHOST_PORT_ERR = true ∧
       (arrive a v txn b).host.wbuf = b.host.wbuf ∧
       (b.word rHIF_HOST_STAT = 0 → (arrive a v txn b).word rHIF_ERR_ADDR = a / 4 * 4 % 2 ^ 32)) ∧
     (granted b a = true → unmapped b a = false → notHosts b a = true →
       (arrive a v txn b).flag fHIF_HOST_STAT_MBX_OWNER = true ∧
       (arrive a v txn b).flag fHIF_HOST_STAT_WRITE_DISCARDED = true ∧
       (arrive a v txn b).host.wbuf = b.host.wbuf) ∧
     (granted b a = true → unmapped b a = false → notHosts b a = false → b.host.wbuf.length = 64 →
       (arrive a v txn b).flag fHIF_HOST_STAT_WRITE_DISCARDED = true ∧
       (arrive a v txn b).ev.pend.getLsbD evHOST_PORT_ERR = true ∧
       (arrive a v txn b).host.wbuf = b.host.wbuf))

/-- The I2C port, at its address (R49 to R51): the words of a write arrive at consecutive addresses while each is granted and
finds room; the first that does not is not acknowledged and ends the write; a partial last word is reported as R40 says. A
read drives the words out, least significant byte first.
When the port NACKs is the model's reading (notes/assumptions/15.md). -/
def Obligations.I2cTransactions : Prop :=
  ∀ (b : Block) (target : BitVec 7) (addr : Word),
    portsServe b = true → target.toNat = b.rd fHIF_I2C_ADDR_ADDR →
    let a := addr.toNat / 4 * 4
    (∀ (words : List Word) (part : Nat), part < 4 →
      let r := i2cWords b.host.txnNext a words
        { b with host := { b.host with txnNext := b.host.txnNext + 1, out := [], nack := false } }
      (r.1 = false → Ends (.i2cWrite target addr words part) b { r.2 with host := { r.2.host with nack := true } }) ∧
      (r.1 = true → part = 0 →
        Ends (.i2cWrite target addr words part) b { r.2 with host := { r.2.host with nack := false } }) ∧
      (r.1 = true → part ≠ 0 →
        Ends (.i2cWrite target addr words part) b
          ({ r.2 with host := { r.2.host with nack := false } }.hostErr
            [fHIF_HOST_STAT_PARTIAL_WORD, fHIF_HOST_STAT_WRITE_DISCARDED] (some ((a + 4 * words.length) % 2 ^ 32))))) ∧
    (∀ words : List SlateHit,
      let r := hostReads 1 words a { b with host := { b.host with nack := false } }
      Ends (.i2cRead target addr words) b (r.2.drive r.1))

/-- A host word that is granted takes effect at its address (R33 to R35, R45, R52 to R58, R70, R72). One that finds words waiting in
the write buffer reaches its target behind them. A word for a register of a block, on a device that is not the PRIMARY of a pair
or for a block that is not mirrored, is written there; the oldest word of the write buffer leaves it and retires. Mailbox bytes that the
host owns take the word, least significant byte first. RING bits set and ring in ascending order where they were 0; READY bits
written 1 clear, and where replies wait they move in. A write of 0 to an enable takes effect at once and ends its check, and the
check of another enable of its block starts again; a write of 1 starts its check. Pending bits written 1 clear, but for those that
hardware sets in the same cycle.
That a grant is judged again at retirement is the model's reading (notes/assumptions/28.md). -/
def Obligations.HostWordTakesEffect : Prop :=
  ∀ (b : Block) (addr v : Word),
    let a := addr.toNat / 4 * 4
    let logged (x : Block) := if isMirrored a then logJournal a v.toNat x else x
    let txn := match b.host.txn with | some t => t.id | none => b.host.txnNext
    (portsServe b = true → arrivalError a b = none →
      Ends (.registerWrite addr v) b (retireWord a v.toNat txn noMeet b.drained)) ∧
    (0x10000 ≤ a → a < 0xF0000 → b.hostMay a = true → (b.isPrimary && isMirrored a) = false →
      Ends (.registerWrite addr v) b (logged (writeReg a v.toNat b)) ∧
      (isEnable a = true → bit v.toNat 31 = false →
        let w := storeWord a v.toNat b
        (∀ c, w.proc.checks.head? = some c → c.addr = a →
          Ends (.enableWrite addr v) b (logged (writeZero a w))) ∧
        ((∀ c, w.proc.checks.head? = some c → c.addr ≠ a) →
          Ends (.enableWrite addr v) b (logged (restartCheck a (writeZero a w))))) ∧
      (isEnable a = true → bit v.toNat 31 = true → checking b a = false →
        let w := restartCheck a (storeWord a v.toNat b)
        Ends (.enableWrite addr v) b (logged (startCheck a none w.now [] w))) ∧
      (isEnable a = true → bit v.toNat 31 = true → checking b a = true →
        Ends (.enableWrite addr v) b (logged (restartCheck a (storeWord a v.toNat b))))) ∧
    (0x1000 ≤ a → a < 0x2000 → b.hostMay a = true → hostOwns b ((a - 0x1000) / 0x100) = true →
      Ends (.mailboxWrite addr v) b (b.putMbx (a - 0x1000) (toLE 4 v.toNat))) ∧
    (b.hostMay rHIF_DOORBELL_IN = true →
      let ring := b.rd fHIF_DOORBELL_IN_RING
      let new := (List.range 8).filter (fun n => bit v.toNat n && !bit ring n)
      Ends (.hifDoorbellIn v) b
        ({ b with proc := { b.proc with rung := b.proc.rung ++ new } }.wr fHIF_DOORBELL_IN_RING
          (Nat.lor ring (bitsOf v.toNat 7 0)))) ∧
    (b.hostMay rHIF_DOORBELL_OUT = true →
      let back := bitsOf v.toNat 15 8
      Ends (.hifDoorbellOut v) b
        ((b.wr fHIF_DOORBELL_OUT_READY (Nat.xor (Nat.lor (b.rd fHIF_DOORBELL_OUT_READY) back) back)).drainReplies 64)) ∧
    (∀ w ws, b.clk.backupOsc = false → b.host.ready = true → b.host.wbuf = w :: ws →
      let b1 := { b with host := { b.host with wbuf := ws } }
      let r := portAMeets w.addr b1
      Ends .writeRetire b (retireWord w.addr w.data w.txn r.1 r.2) ∧
      (w.addr < 0x02000000 ∨ 0x04000000 ≤ w.addr → r = (noMeet, b1))) ∧
    (∀ n < 7, ∀ sets : Word, b.hostMay (0x40 + 4 * n) = true →
      Ends (.eventPendingClear n ⟨v, sets⟩) b
        (forL ((List.range 32).filter (fun i => sets.getLsbD i)) (fun i b => b.raise (32 * n + i))
          { b with ev := { b.ev with pend := b.ev.pend &&& ~~~ (BitVec.ofNat 224 (v.toNat * 2 ^ (32 * n))) } }))

/-- Words for the windows, granted, on a device that is not PRIMARY and whose write buffer is empty (R35, R53, R343, R349, R350, R351):
the LPDDR window stores or reads the four bytes at the page's offset, and a store makes the library hash stale and is logged while
the wake journal runs; the slate window stores in a bank that the host may use and that no test borrows, its storage word read in
one cycle and written in the next, unless port A meets it in either. Then the word is discarded and reported, and the collision is
recorded.
The bits a refused window word sets are the model's reading (notes/assumptions/15.md). -/
def Obligations.WindowAccesses : Prop :=
  ∀ (b : Block) (addr v : Word), b.isPrimary = false → portsServe b = true → b.host.wbuf = [] →
    let a := addr.toNat / 4 * 4
    let txn := match b.host.txn with | some t => t.id | none => b.host.txnNext
    (∀ o, 0x80000000 ≤ a → lpddrAt b a = some o →
      (granted b a = true →
        Ends (.lpddrWindowAccess addr (some v)) b
          (logJournal (pairLpddr o) v.toNat (hashStale (b.setLpddr o (toLE 4 v.toNat))))) ∧
      Ends (.lpddrWindowAccess addr none) b (b.drive (toLE 4 (leAt (b.lpddrBytes o 4) 0 4)))) ∧
    (0x02000000 ≤ a → a < 0x04000000 → granted b a = true → slateMay b rqHOST (bankOf (a - 0x02000000)) = true →
      b.flag fSLATE_STAT_FUSE_DONE = true → borrowed b (bankOf (a - 0x02000000)) = false →
      let o := a - 0x02000000
      let read := checkMerge o b
      (∀ p : OtherPort, (∀ d, p ≠ .write d) →
        Ends (.slateWindowWrite addr v ⟨p, .none⟩) b (portAStore o (toLE 4 v.toNat) read) ∧
        Ends (.slateWindowWrite addr v ⟨p, .read⟩) b
          ((collision 1 o { read.freshWord.2 with slate := { read.freshWord.2.slate with readOut := read.freshWord.1 } }).discardWord
            [] a txn) ∧
        (∀ d : DWord, d.toNat ≠ mergedWord b o v.toNat →
          Ends (.slateWindowWrite addr v ⟨p, .write d⟩) b
            ((collision 0 o (portAStore (o / 8 * 8) (toLE 8 d.toNat) read)).discardWord [] a txn))) ∧
      (∀ (d : DWord) (q : OtherPort),
        Ends (.slateWindowWrite addr v ⟨.write d, q⟩) b
          ((portAStore (o / 8 * 8) (toLE 8 d.toNat) (collision 1 o b)).discardWord [] a txn)))

/-! ### Mailboxes (02 R57 to R68) -/

/-- A reply goes into the lowest free reply mailbox where none waits (R57, R62): its READY bit sets, and the mailbox holds the
16 header bytes and the payload of R60. Else it waits behind the others, and MBX_OVERFLOW is raised once while 64 wait. -/
def Obligations.ReplyReachesTheLowestFreeMailbox : Prop :=
  ∀ (b : Block) (r : Reply),
    (∀ i, b.proc.replies = [] → b.freeReply = some i →
      let b' := b.deliver r
      i < 8 ∧ bit (b.rd fHIF_DOORBELL_OUT_READY) i = false ∧
      (∀ j < i, bit (b.rd fHIF_DOORBELL_OUT_READY) j = true) ∧
      b'.rd fHIF_DOORBELL_OUT_READY = Nat.lor (b.rd fHIF_DOORBELL_OUT_READY) (2 ^ i) ∧
      b'.getMbx (0x800 + 0x100 * i) (16 + r.payload.length) =
        toLE 2 r.op ++ toLE 2 r.tag ++ toLE 2 r.payload.length ++ toLE 1 r.status ++ toLE 1 r.reason ++ toLE 6 r.stamp ++
          toLE 2 (b2n r.late) ++ r.payload ∧
      b'.proc.replies = []) ∧
    ((b.proc.replies ≠ [] ∨ b.freeReply = none) →
      (b.deliver r).proc.replies = b.proc.replies ++ [r] ∧
      (b.proc.replies.length = 63 → b.proc.overflow = false → (b.deliver r).ev.pend.getLsbD evMBX_OVERFLOW = true) ∧
      (b.deliver r).rd fHIF_DOORBELL_OUT_READY = b.rd fHIF_DOORBELL_OUT_READY)

/-- The checks that every command meets, in their order (R61, R64, R77, R498, R528, R537): mode FAULT, LENGTH, reserved bytes,
a due time that the command does not take, a role that refuses it, a domain that is off. A command refused by the first of
them that fails has no effect but its reply; a command whose checks hold and that no boundary keeps waiting meets its own
checks next.

A command that waits for a boundary, its checks met, is held behind those held before with the boundary it waits for and its
place in the order of arrival, LATE where its due time had passed, and nothing else changes (R64); the 257th with a due time still to come is refused with BUSY_BACKPRESSURE. On a PRIMARY nothing is
said here of commands that are forwarded.
What counts towards the limit and when checks are made are the model's reading (notes/assumptions/16.md).

As its boundary comes a held command meets the checks again, and is refused or has its effect, the reply stamped with that boundary
(R64); mod writes stand in a statement of their own. -/
def Obligations.CommandsAreCheckedAndHeld : Prop :=
  (∀ (b : Block) (op : Nat) (m : Meaning) (c : Cmd) (i : CmdInfo), b.takes = true → b.serving = true → cmdInfo op = some i →
     let no (r : Reason) := b.finish { cmdTok op c b with late := false } b.now false (refusedWith r)
     (∀ r, precheck i c.due c.payload b = some r → command op m c b = no r) ∧
     (b.mode ≠ mFAULT → i.lengthOk c.payload = false → command op m c b = no .badLength) ∧
     (b.mode ≠ mFAULT → i.lengthOk c.payload = true → i.zerosOk c.payload = false → command op m c b = no .badField) ∧
     (b.mode ≠ mFAULT → i.lengthOk c.payload = true → i.zerosOk c.payload = true → c.due = true → i.due = false →
       command op m c b = no .badField) ∧
     (precheck i c.due c.payload b = none → ∀ r, m.chk c.payload b = some r → command op m c b = no r)) ∧
  (∀ (b : Block) (op : Nat) (m : Meaning) (c : Cmd) (i : CmdInfo), b.takes = true → b.serving = true → b.isPrimary = false →
     cmdInfo op = some i → precheck i c.due c.payload b = none → m.chk c.payload b = none →
     b.waits i (cmdDue c) = true →
     let timed := (cmdDue c).isSome && !(cmdDue c).any b.isPast
     (timed = false ∨ b.dueHeld < 256 →
       command op m c b = { b with
         proc := { b.proc with held := b.proc.held ++
           [⟨cmdTok op c b, b.boundaryFor i (cmdDue c), c.payload, timed, b.sched.arrivals⟩] }
         sched := { b.sched with arrivals := b.sched.arrivals + 1 } }) ∧
     (timed = true → 256 ≤ b.dueHeld →
       command op m c b = b.finish (cmdTok op c b) b.now false (refusedWith .busyBackpressure))) ∧
  (∀ (b : Block) (h : Held) (m : Meaning) (i : CmdInfo), cmdInfo h.tok.op = some i → meaningOf h.tok.op = some m →
     h.tok.op ≠ 0x0200 → h.tok.op ≠ 0x0201 →
     let no (r : Reason) := b.finish h.tok h.at_ false (refusedWith r)
     (∀ r, precheck i false h.payload b = some r → runHeld h b = no r) ∧
     (precheck i false h.payload b = none →
       (∀ r, m.again = true → m.chk h.payload b = some r → runHeld h b = no r) ∧
       ((m.again = false ∨ m.chk h.payload b = none) →
         let r := m.eff h.tok h.at_ h.payload b
         runHeld h b = r.2.finish h.tok h.at_ false r.1)))

/-- COMMAND_TAKE (R57, R61): with room for replies, the mailbox whose turn it is gives its command, its RING bit clears, and the
command in it runs; a header that breaks R59 is refused. PING echoes its payload, GET_INFO answers release, grade, fuse CRC and
disabled banks (R66), POST_EVENTS enters its records in order up to the first that finds no place (R67), GRANT adds the bits
that mode and role allow (R68), ROLLCALL_QUERY answers the verdict the described write would meet, its other
fields as they would stand, and stores nothing (R69).
The version bytes and GRANT's mask are the model's reading (notes/assumptions/39.md). -/
def Obligations.SystemCommandResults : Prop :=
  ∀ (b : Block) (c : Cmd),
    (∀ n, b.takes = true → nextRung b = some n →
      let h := mbxHeader b n
      let x := mbxCommand b n h
      let b1 := { b with proc := { b.proc with rung := b.proc.rung.filter (· != n) } }
      let b' := b1.wr fHIF_DOORBELL_IN_RING (putBits (b.rd fHIF_DOORBELL_IN_RING) n n 0)
      (headerRefusal b' h = none → Ends .commandTake b (runCommand (leAt h 0 2) x b')) ∧
      (∀ r, headerRefusal b' h = some r →
        Ends .commandTake b (b'.finish ⟨leAt h 0 2, x.tag.toNat, x.noReply, false, b.proc.gen⟩ b.now false (refusedWith r)))) ∧
    (b.runsNow 0x0000 c = true → Replies (.ping c) 0x0000 c b (ok c.payload) b) ∧
    (b.runsNow 0x0001 c = true →
      let v := b.pwr.release
      Replies (.getInfo c) 0x0001 c b
        (ok (toLE 1 v ++ toLE 1 (v / 2 ^ 8) ++ toLE 1 (v / 2 ^ 16) ++ toLE 1 gradeByte ++ toLE 4 fuseMapCrc ++
          toLE 8 (b.word64 rSLATE_DISABLED))) b) ∧
    (b.runsNow 0x0003 c = true →
      let rs := hostRecords c.payload
      let r := offerAll rs 0 b
      (r.1 = rs.length → Replies (.postEvents c) 0x0003 c b (ok (toLE 2 r.1)) r.2) ∧
      (r.1 < rs.length → Replies (.postEvents c) 0x0003 c b (failedWith .busyBackpressure (toLE 2 r.1)) r.2)) ∧
    (b.runsNow 0x0004 c = true → Nat.land (leAt c.payload 0 4) 0x37FFF = leAt c.payload 0 4 →
      let asked := leAt c.payload 0 4
      let b' := b.setGrants (Nat.lor (b.word rHIF_GRANT) (Nat.land asked (Nat.lor 1 (grantable b))))
      (Nat.land asked (Nat.lor (Nat.lor 1 (grantable b)) (b'.word rHIF_GRANT)) = asked →
        Replies (.grant c) 0x0004 c b (ok (toLE 4 (b'.word rHIF_GRANT))) b') ∧
      (Nat.land asked (Nat.lor (Nat.lor 1 (grantable b)) (b'.word rHIF_GRANT)) ≠ asked →
        Replies (.grant c) 0x0004 c b (failedWith .notInMode (toLE 4 (b'.word rHIF_GRANT))) b')) ∧
    (b.runsNow 0x0005 c = true → isEnable (leAt c.payload 0 4) = true →
      let a := leAt c.payload 0 4
      (bit (leAt c.payload 4 4) 31 = true → enabled b a = false →
        Replies (.rollcallQuery c) 0x0005 c b (.reply 0 ((verdict a (storeWord a (leAt c.payload 4 4) b)).getD .ok) []) b) ∧
      ((bit (leAt c.payload 4 4) 31 = false ∨ enabled b a = true) →
        Replies (.rollcallQuery c) 0x0005 c b (.reply 0 .ok []) b))

/-! ### Abort, roll call, boundaries and modes (01, 02, 16) -/

/-- A write of HIF_ABORT with its key starts the one function it names and no other (R74, R76, R77), an ABORT frame going first
from a PRIMARY (R78); ABORT_BUSY and the function's ACTIVE bit set, and ABORT_DONE is owed. SILENCE_VOICES puts every voice on its
ramp, CLEAR_EVENTS empties rolls and timetables and ends every check, CANCEL_COMMANDS ends every command taken, STOP_TBLD stops
the builds; STOP_BDSP, STOP_STREAMS and MUTE_OUTPUTS wait for the next boundary. PROCTOR_RESTART restarts the Proctor and starts
no function. Without the key nothing starts, and ABORT_KEY is reported.
What CANCEL_COMMANDS leaves is the model's reading (notes/assumptions/35.md). -/
def Obligations.AbortFunctionsStart : Prop :=
  ∀ b : Block, b.hostMay rHIF_ABORT = true →
    let sent (f : Nat) := if b.isPrimary then sendFrame 7 (toLE 1 f) b else b
    let busy (f : Nat) :=
      ((sent f).wr fHIF_STATUS_ABORT_BUSY 1).wr fHIF_ABORT_STAT_ACTIVE (Nat.lor ((sent f).rd fHIF_ABORT_STAT_ACTIVE) f)
    let owed (f wait : Nat) := { busy f with proc := { (busy f).proc with
      abortOwed := true, abortAtBound := Nat.lor (busy f).proc.abortAtBound wait } }
    Ends (.silenceVoices 0xA5) b (silenceAll (owed 1 0)) ∧ Ends (.clearEvents 0xA5) b (clearEvents (owed 2 0)) ∧
    Ends (.stopBdsp 0xA5) b (owed 4 4) ∧ Ends (.stopStreams 0xA5) b (owed 8 8) ∧
    Ends (.muteOutputs 0xA5) b (owed 16 16) ∧ Ends (.cancelCommands 0xA5) b (cancelAll (owed 32 0)) ∧
    Ends (.stopTbld 0xA5) b (stopBuilder (owed 64 0)) ∧ Ends (.proctorRestart 0xA5) b (restartProctor b) ∧
    (∀ key : Byte, key ≠ 0xA5 →
      let no := b.hostErr [fHIF_HOST_STAT_ABORT_KEY] (some rHIF_ABORT)
      Ends (.silenceVoices key) b no ∧ Ends (.clearEvents key) b no ∧ Ends (.stopBdsp key) b no ∧
      Ends (.stopStreams key) b no ∧ Ends (.muteOutputs key) b no ∧ Ends (.cancelCommands key) b no ∧
      Ends (.stopTbld key) b no ∧ Ends (.proctorRestart key) b no)

/-- ABORT_DONE (R76, R541, R522): once no function of the write is in progress, ABORT_BUSY and ACTIVE clear and the event is
raised; the RESETs of scope ENGINE that waited for it then reset the engine, record its cause and reply; and a shadow whose
boarding waited for it boards. That several RESETs reply together is the model's choice (notes/assumptions/50.md). -/
def Obligations.AbortDoneEndsTheSequence : Prop :=
  ∀ b : Block, b.proc.abortOwed = true → abortActive b = 0 →
    let b1 := { b with proc := { b.proc with abortOwed := false } }
    let b2 := ((b1.wr fHIF_STATUS_ABORT_BUSY 0).wr fHIF_ABORT_STAT_ACTIVE 0).raise evABORT_DONE
    let b3 := match b2.proc.engineReset with
      | [] => b2
      | cs =>
        forL cs (fun c b => b.finish c.1 c.2 false (ok []))
          ((resetEngine { b2 with proc := { b2.proc with engineReset := [] } }).wr fCPR_RST_CAUSE_ENGINE 1)
    Ends .abortDone b
      (if !b3.proc.abortOwed && b3.fry.boardAfterAbort then
        autoBoard { b3 with fry := { b3.fry with boardAfterAbort := false } }
       else b3)

/-- ROLLCALL_CHECK (R70, R71, R73): the check whose turn it is leaves the queue, which BUSY and WAITING show. Met, the enable
becomes 1 and its function begins, unless it reads 1 already, and a command that asked for it ends COMPLETE; refused, the
reason and address are recorded, ROLLCALL_REFUSED is raised, the words that the command had written go back, and the command ends
REFUSED.

A refusal of roll call (R70): its reason and address are recorded, REFUSALS counts it up to 255, ROLLCALL_REFUSED is pending,
and the enable itself keeps its value. -/
def Obligations.RollCallEndsTheCheck : Prop :=
  (∀ (b : Block) (c : Check) (rest : List Check), b.serving = true → b.proc.checks = c :: rest →
     let b1 := noteChecks { b with proc := { b.proc with checks := rest } }
     let b2 := if enabled b1 c.addr then b1 else enableRises c.addr b1
     (verdict c.addr b1 = none →
       Ends .rollcallCheck b (match c.tok with | some t => b2.finish t c.stamp false (ok []) | none => b2)) ∧
     (∀ r, verdict c.addr b1 = some r →
       let b3 := noteRefusal c.addr r (forL c.undo (fun w x => undoWord w.1 w.2 x) b1)
       Ends .rollcallCheck b (match c.tok with | some t => b3.finish t c.stamp false (refusedWith r) | none => b3))) ∧
  (∀ (b : Block) (a : Nat) (r : Reason), a ≠ rROLLCALL_REASON → a ≠ rROLLCALL_ADDR →
     let b' := noteRefusal a r b
     b'.rd fROLLCALL_REASON_REASON = r.code ∧ b'.rd fROLLCALL_ADDR_ADDR = a % 2 ^ 32 ∧
     b'.rd fROLLCALL_REASON_REFUSALS = min 255 (b.rd fROLLCALL_REASON_REFUSALS + 1) ∧
     b'.ev.pend.getLsbD evROLLCALL_REFUSED = true ∧ b'.word a = b.word a)

/-- SAMPLE_BOUNDARY (R16, R17): where the Tide runs, the count comes to the next multiple of P, and the boundary's work runs in this
order: the lanes close their window, aborts and halts that waited take place, held commands and releases take effect, inputs and
the mix bus close, the opening window latches what it sees, and last the ferry's and the modes' changes. DUE_COMMAND_EFFECT is
that boundary where the earliest held command waits for the next one, and MODE_CHANGE where a change can take effect there.
That the Tide moves on to a happening's own instant is the model's choice (notes/assumptions/7.md). -/
def Obligations.BoundaryWorkRunsInOrder : Prop :=
  ∀ b : Block,
    let t := b.nextBound
    let b1 := b.advanceTo t
    let b2 := closeLanes b1
    let b3 := { b2 with tide := { b2.tide with bound := some t } }
    let done := endWork (handoverMissed b1) (openWork (mixWork (dueWork (closeWindow b3))))
    b.tideRuns = true →
      Ends .sampleBoundary b done ∧
      (earliestHeld b = some t → Ends .dueCommandEffect b done) ∧
      (b.pwr.changes.any (fun c => changeReady b c && (b.hasCome c.due || t == b.boundAt c.due)) = true →
        Ends .modeChange b done)

/-- SET_MODE taken by Sildacen with the common checks met (R531, R532): the checks of R531, made on the mode that the changes taken
leave by its time (the model's reading, notes/assumptions/26.md), refuse it with their reason; the mode, rate and clock in use
already end it at once; else the change waits for its boundary, the domains it needs coming on, and no reply is made yet. -/
def Obligations.SetModeIsJudgedAndTaken : Prop :=
  ∀ (b : Block) (c : Cmd) (i : CmdInfo), b.takes = true → b.serving = true → cmdInfo 0x0002 = some i →
    precheck i c.due c.payload b = none →
    let m := leAt c.payload 0 1
    let rate := leAt c.payload 1 1
    let clk := leAt c.payload 2 1
    let t := modeDue (cmdDue c) b
    let f := b.foreseen t
    let late := (cmdDue c).any b.isPast
    let timed := (cmdDue c).isSome && !late
    let tok := { cmdTok 0x0002 c b with late := false }
    (∀ r, f.modeRefusal m rate clk (leAt c.payload 3 1) = some r →
      Ends (.setMode c) b (b.finish tok b.now false (refusedWith r))) ∧
    (f.modeRefusal m rate clk (leAt c.payload 3 1) = none → f.sameMode m rate clk = true →
      Ends (.setMode c) b (b.finish tok b.now late (ok []))) ∧
    (f.modeRefusal m rate clk (leAt c.payload 3 1) = none → f.sameMode m rate clk = false →
      (timed = false ∨ b.dueHeld < 256) → b.leads = false →
      Ends (.setMode c) b
        (powerUp (b.domainsOf (b.heldBy m)) { b with pwr := { b.pwr with
          changes := placeChange ⟨m, rate, clk, t, some tok, late, timed, some f.mode⟩ b.pwr.changes } }))

/-- The transitions of R531: from the mode now in force a SET_MODE is accepted exactly where R531 lists its target, the rate suits
the audio family, the device is no SHADOW, and neither an enabled ferry nor a fallback held in SAFE forbids it; the reasons
come in that order. -/
def Obligations.ModeTransitions : Prop :=
  ∀ (b : Block) (m rate clk : Nat), b.isShadow = false → b.flag fFERRY_CTRL_EN = false →
    b.flag fCPR_CLK_STAT_FALLBACK = false →
    (isPlaying m = true → clockListed m rate clk = true ∧ rateListed m rate = true ∧ rate % 2 ≠ b.rd fCPR_APLL_CFG_FAMILY) →
    b.sameMode m rate clk = false → mSTANDBY ≤ m → m ≤ mSELFTEST →
    (b.modeRefusal m rate clk 0 = none ↔
      (b.mode = mSTANDBY ∧ m ≠ mSTANDBY) ∨
      (b.mode = mLISTEN ∧ (m = mSTANDBY ∨ isPlaying m = true)) ∨
      (isPlaying b.mode = true ∧ m ≠ mSELFTEST) ∨
      (b.mode = mSAFE ∧ (m = mSTANDBY ∨ (m = b.pwr.safeHeld ∧ isPlaying m = true))) ∨
      (b.mode = mSELFTEST ∧ m = mSTANDBY)) ∧
    (b.modeRefusal m rate clk 0 ≠ none → b.modeRefusal m rate clk 0 = some .notInMode)

/-! ### Power, resets and boot (16) -/

/-- What happens to the domains and the supply (R528, R529, R398, R543, R579). A domain switched on that reaches its good level
leaves its reset with its function in its reset state, MEM begins to train where a size is set, an enable that stayed 1
lets its function begin afresh, and words that waited for the clock of BDSP or COMM arrive (R400). Training ends with LPDDR_TRAINED, or with its event. A fault of a domain switches it off, sets its
FAULT bit, raises PD_FAULT, and brings FAULT where the mode needs the domain. The junction's reading is stored; at the trip
point FAULT is entered; a low core supply is kept. -/
def Obligations.PowerEvents : Prop :=
  ∀ b : Block,
    (∀ d < 14, bit b.pwr.rising d = true →
      let b1 := (clearDomain d (notRising d b)).setOn d true
      let b2 := if d = dMEM then { b1 with pwr := { b1.pwr with training := b1.clk.memSize != 0 } } else b1
      let b3 := forL enableOrder (resumeEnable d) b2
      let b4 := if d = dBDSP then arriveIrqs b3 else if d = dCOMM then arriveTx b3 else b3
      Ends (.domainPowerGood d) b (if d = dCORE then coreStart b4 else b4)) ∧
    (∀ d < 14, 1 < d → b.pwr.porn = false → (b.on d || bit b.pwr.rising d) = true →
      let off := switchOff d b
      let bad := primaryFails
        ((off.wr fCPR_PD_STAT_FAULT (putBits (off.rd fCPR_PD_STAT_FAULT) d d 1)).raise evPD_FAULT)
      Ends (.pdFault d) b (if bit (mandatory b b.effMode) d then enterFault bad else bad)) ∧
    (b.pwr.training = true →
      let b' := { b with pwr := { b.pwr with training := false } }
      Ends .lpddrTrained b (b'.wr fSTRM_LIB_STAT_LPDDR_TRAINED 1) ∧
      Ends .lpddrTrainFail b (b'.raise evLPDDR_TRAIN_FAIL)) ∧
    (b.pwr.porn = false →
      (∀ temp : Int, -128 ≤ temp → temp ≤ 127 → Ends (.thermalWarn temp) b (b.wr fCPR_THERM_TEMP (unsx 8 temp))) ∧
      (b.rdS fCPR_THERM_TEMP < 115 →
        Ends .thermalTrip b (enterFault (primaryFails ((b.wr fCPR_THERM_TEMP 115).raise evTHERMAL_TRIP)))) ∧
      (115 ≤ b.rdS fCPR_THERM_TEMP → Ends .thermalTrip b (enterFault (primaryFails (b.raise evTHERMAL_TRIP)))) ∧
      Ends .brownoutWarn b { b with pwr := { b.pwr with lowCore := true } })

/-- Resets and the watchdog (R539 to R545). A power-on reset leaves every domain in reset but the count of free values and the
flash outside the part, an update's operation there cut short, and records its cause; at its release the straps are sampled. SYSTEM_RESET holds the part in reset with its
cause until SYSTEM_RESET_RELEASE, which lets the boot sequence begin; RESET of scope SYSTEM resets without holding, of scope
ENGINE starts the abort 0x1F and waits, of scope PROCTOR restarts the Proctor, and none of these replies here. The armed watchdog
raises its event at the first expiry; at the second it restarts the Proctor, or resets the system where WDOG_SYS asks for that.

What a system reset leaves, whatever its cause (R539, R540, R541): the Tide at 0 and stopped, the port closed with HBUSY
asserted, the write buffer and every queue of the Proctor empty, no voice, no seat and no record in the event island, the cores
and ports at their reset; slate keeps its contents where no slice was under test, and the flash stays but for an operation of an update that is cut short.
What an engine reset keeps and how its commands end are the model's choice (notes/assumptions/22.md, 24.md, 50.md). -/
def Obligations.ResetsAndWatchdog : Prop :=
  (∀ b : Block,
     (∀ brownout : Bool,
       Ends (.powerOnReset brownout) b
         ({ Block.reset with
             free := (tornFlash b).free
             pwr := { Power.reset with flash := (tornFlash b).pwr.flash }
             proc := { Proctor.reset with gen := b.proc.gen + 1 } }.setWord rCPR_RST_CAUSE (if brownout then 2 else 1))) ∧
     (b.pwr.porn = true → ∀ role bootsel : Bool,
       let b' := { b with pwr := { b.pwr with porn := false } }
       Ends (.pornRelease role bootsel) b
         (((b'.wrB fFERRY_STAT_STRAP role).wrB fFERRY_CTRL_ROLE role).wrB fCPR_BOOT_STAT_BOOTSEL bootsel)) ∧
     (b.pwr.porn = false →
       Ends (.systemReset false) b (systemReset fCPR_RST_CAUSE_SYSRSTN true b) ∧
       Ends (.systemReset true) b (systemReset fCPR_RST_CAUSE_BROWNOUT_CORE true b) ∧
       Ends .systemResetRelease b (coreStart { b with pwr := { b.pwr with sysrst := false, lowCore := false } })) ∧
     (∀ c : Cmd, b.runsNow 0x0006 c = true →
       (leAt c.payload 0 1 = 0 → Replies (.reset c) 0x0006 c b .later (systemReset fCPR_RST_CAUSE_COMMAND false b)) ∧
       (leAt c.payload 0 1 = 1 →
         let b' := abortHere 0x1F b
         Replies (.reset c) 0x0006 c b .later
           { b' with proc := { b'.proc with engineReset := b'.proc.engineReset ++ [(cmdTok 0x0006 c b, b.now)] } }) ∧
       (leAt c.payload 0 1 = 2 → Replies (.reset c) 0x0006 c b .later (restartProctor b))) ∧
     (b.pwr.wdogArmed = true → b.pwr.wdog = 0 →
       Ends .wdogProctor b (primaryFails ({ b with pwr := { b.pwr with wdog := 1 } }.raise evWDOG_PROCTOR))) ∧
     (b.pwr.wdogArmed = true → b.pwr.wdog ≠ 0 →
       (b.flag fCPR_RST_CFG_WDOG_SYS = true →
         Ends .watchdogSecondExpiry b (systemReset fCPR_RST_CAUSE_WDOG_SYS false b)) ∧
       (b.flag fCPR_RST_CFG_WDOG_SYS = false → Ends .watchdogSecondExpiry b (restartProctor b)))) ∧
  (∀ (b : Block) (cause : Fld) (hold : Bool),
     let r := systemReset cause hold b
     r.tide = Tide.reset ∧ r.host = HostPort.reset ∧ r.voices = [] ∧ r.lanes = List.replicate 16 Lane.reset ∧
     r.sched = Sched.reset ∧ r.store = Store.reset ∧ r.mix = Mix.reset ∧ r.bdsp = List.replicate 4 Gralon.reset ∧
     r.ser = List.replicate 5 Ser.reset ∧ r.net = List.replicate 2 NetPort.reset ∧
     r.proc = { Proctor.reset with gen := b.proc.gen + 1 } ∧ r.pwr.sysrst = hold ∧
     (b.pwr.update.waiting = none → r.pwr.flash = b.pwr.flash) ∧
     (b.slate.slice = none → r.slate.mem = b.slate.mem) ∧ r.ev = Events.reset)

/-- POWER_SET (R66, R552, R554) and a direct write of CPR_PD_OPT give OPT its value, one that takes a domain from an enable of 1
apart: the domains that the mode and the changes taken need come on, and those not needed switch off; POWER_SET replies with
CPR_PD_STAT as it then stands, POWER_STATUS with five registers. A direct write that would take a domain from an enable of 1
keeps that bit.
That POWER_SET replies at once is the model's choice (notes/assumptions/13.md). -/
def Obligations.PowerCommands : Prop :=
  ∀ b : Block,
    (∀ c : Cmd, b.runsNow 0x0A10 c = true →
      let opt := bitsOf (leAt c.payload 0 4) 13 7
      let b1 := b.wr fCPR_PD_OPT_OPT opt
      let b2 := dropIdle (powerUp (neededDomains b1) b1)
      leAt c.payload 0 4 = opt * 2 ^ 7 → heldBack b opt = [] →
        Replies (.powerSet c) 0x0A10 c b (ok (toLE 4 (b2.word rCPR_PD_STAT))) b2) ∧
    (∀ c : Cmd, b.runsNow 0x0A11 c = true →
      Replies (.powerStatus c) 0x0A11 c b
        (ok (toLE 4 (b.word rCPR_PD_STAT) ++ toLE 4 (b.word rCPR_RST_CAUSE) ++ toLE 4 (b.word rCPR_THERM) ++
          toLE 4 (b.word rCPR_BOOT_STAT) ++ toLE 4 (b.word rCPR_BOOT_SEQ))) b) ∧
    (∀ v : Word, b.hostMay rCPR_PD_OPT = true →
      let opt := bitsOf v.toNat 13 7
      let b1 := b.wr fCPR_PD_OPT_OPT ((heldBack b opt).foldl (fun w i => putBits w i i 1) opt)
      Ends (.cprPdOpt v) b (restartCheck rCPR_PD_OPT (dropIdle (powerUp (neededDomains b1) b1))))

/-- Boot (R77, R362, R545, R546, R549). The fuses load once the IRC is proven: the columns that their valid entries name are steered,
unless the CRC of the map fails; and CORE may start. BOOT_DONE: with CORE out of reset and not serving yet, the Proctor runs, the boot ROM chooses an image where none has
been started, and an image started serves the mailboxes. While the ROM serves, BOOT_WRITE stores image bytes in the Proctor's RAM
and BOOT_RUN starts them where they verify.
What is blank and which slot a host-booted part updates are the model's reading (notes/assumptions/17.md). -/
def Obligations.BootSequence : Prop :=
  ∀ b : Block,
    (b.pwr.porn = false → b.pwr.fusesLoaded = false → proven b 0 = true →
      let b2 := ((applyFuses { b with pwr := { b.pwr with fusesLoaded := true } }).wr fCPR_IRC_TRIM_TRIM (fused 1 1)).wr
        fSLATE_STAT_FUSE_DONE 1
      (fuseMapBad = true → Ends .fuseLoadDone b (coreStart ((b2.wr fSLATE_STAT_FUSE_BAD 1).raise evFUSE_MAP_BAD))) ∧
      (fuseMapBad = false →
        Ends .fuseLoadDone b (coreStart { b2 with slate := { b2.slate with steered := fuseRepairs } }))) ∧
    (b.pwr.porn = false → b.pwr.sysrst = false → b.on dCORE = true → portsServe b = true →
      b.flag fHIF_STATUS_BOOT_DONE = false →
      let b1 := proctorRuns b
      let b2 := if b1.rd fCPR_BOOT_STAT_ROM_STATE = 0 then flashBoot b1 else b1
      Ends .bootDone b (if b2.rd fCPR_BOOT_STAT_ROM_STATE = 2 then serve b2 else b2)) ∧
    (∀ c : Cmd, b.takes = true → b.romServing = true → b.mode ≠ mFAULT → c.due = false →
      (8 ≤ c.payload.length → c.payload.length ≤ 236 → c.payload.length % 4 = 0 →
        leAt c.payload 0 4 + (c.payload.length - 4) ≤ 2 ^ 19 →
        Replies (.bootWrite c) 0x0F10 c b (ok [])
          { b with pwr := { b.pwr with
            bootRam := smWriteAll (fun _ => 0) b.pwr.bootRam (leAt c.payload 0 4) (c.payload.drop 4) } }) ∧
      (c.payload.length = 104 → leAt c.payload 0 4 ≤ 2 ^ 19 →
        let good := imageOk b c.payload (smRange (fun _ => 0) b.pwr.bootRam 0 (min (2 ^ 19) (leAt c.payload 0 4)))
        Replies (.bootRun c) 0x0F11 c b (if good then ok [] else refusedWith .unsignedImage)
          (if good then (startImage (leAt c.payload 4 4) b).wr fCPR_BOOT_STAT_HOST_BOOT 1 else b)))

/-- The firmware update's commands (R538, R550, R551, R554). UPDATE_BEGIN enters UPDATE and starts to erase the slot that was not
booted; UPDATE_DATA and UPDATE_END start their flash operation; they reply when FLASH_OPERATION_DONE ends it: the slot erased,
the bytes programmed, or the header programmed where the image passes; a flash error tears a free part of it, raises FLASH_ERR and
fails the command. UPDATE_ACTIVATE resets the system once the header stands; UPDATE_CANCEL ends the command waiting, erases a
header written, and takes the device back to STANDBY; UPDATE_STATUS answers slot, state and the SEQs shown.

A device firmware update over USB, the function on (R437, R538, R554). DFU_DETACH enters UPDATE where UPDATE_BEGIN would not be
refused, else it stalls. A download that keeps within its block, its length and its state goes into the slot: the first 104 bytes
are the fields, whose completion erases the slot, the rest is the body. DFU_MANIFEST programs the header where the image passes.
The states after an error and the 64 KiB sectors are the model's reading (notes/assumptions/17.md, 27.md). -/
def Obligations.FirmwareUpdates : Prop :=
  (∀ (b : Block) (c : Cmd),
     (b.runsNow 0x0F00 c = true → mUpdateBegin.chk c.payload b = none →
       Replies (.updateBegin c) 0x0F00 c b .later
         ((enterUpdate b).setUpdate (fun _ =>
           { freshUpdate (enterUpdate b) 1 (leAt c.payload 0 4) with waiting := some (cmdTok 0x0F00 c b, c.payload) }))) ∧
     (writing b = true → b.pwr.update.waiting = none →
       (b.runsNow 0x0F01 c = true → leAt c.payload 0 4 + (c.payload.length - 4) ≤ b.pwr.update.length →
         Replies (.updateData c) 0x0F01 c b .later
           (b.setUpdate (fun u => { u with waiting := some (cmdTok 0x0F01 c b, c.payload) }))) ∧
       (b.runsNow 0x0F02 c = true →
         Replies (.updateEnd c) 0x0F02 c b .later
           (b.setUpdate (fun u => { u with state := 3, waiting := some (cmdTok 0x0F02 c b, c.payload) })))) ∧
     (∀ tok p, b.pwr.update.waiting = some (tok, p) →
       let b1 := b.setUpdate (fun u => { u with waiting := none })
       let u := b.pwr.update
       let base := slotBase u.target
       let k := (b1.fresh 554).1
       let b2 := (b1.fresh 554).2
       (tok.op = 0x0F00 →
         Ends (.flashOperationDone false) b
           (((eraseFlash base (sectorsFor u.length) b1).setUpdate (fun u => { u with state := 2 })).finish tok b.now false
             (ok (toLE 1 u.target ++ toLE 3 0 ++ toLE 4 u.seq))) ∧
         Ends (.flashOperationDone true) b
           (((eraseFlash base (k % (sectorsFor u.length + 1)) (b2.setUpdate (fun u => { u with state := 0 }))).raise
             evFLASH_ERR).finish tok b.now false (failedWith .aborted []))) ∧
       (tok.op = 0x0F01 →
         let at_ := base + 0x1000 + leAt p 0 4
         Ends (.flashOperationDone false) b ((programFlash at_ (p.drop 4) b1).finish tok b.now false (ok [])) ∧
         Ends (.flashOperationDone true) b
           (((programFlash at_ ((p.drop 4).take k) b2).raise evFLASH_ERR).finish tok b.now false (failedWith .aborted []))) ∧
       (tok.op = 0x0F02 →
         let b3 := b1.setUpdate (fun u => { u with state := 2 })
         let b4 := (programFlash base (headerPage { u with waiting := none } p) b3).setUpdate (fun u => { u with state := 4 })
         Ends (.flashOperationDone false) b
           (if targetOk b3 p then b4.finish tok b.now false (ok (toLE 4 u.seq))
            else b3.finish tok b.now false (refusedWith .unsignedImage)))) ∧
     (b.runsNow 0x0F03 c = true → b.mode = mUPDATE → b.pwr.update.state = 4 →
       Replies (.updateActivate c) 0x0F03 c b .later (systemReset fCPR_RST_CAUSE_COMMAND false b)) ∧
     (b.runsNow 0x0F04 c = true → b.mode = mUPDATE → b.pwr.changes = [] →
       let b1 := match b.pwr.update.waiting with | some (t, _) => (tornFlash b).finish t b.now false cancelled | none => b
       let b2 := if b.pwr.update.state = 0 then b1 else eraseFlash (slotBase b.pwr.update.target) 1 b1
       Replies (.updateCancel c) 0x0F04 c b .later
         (ownChange mSTANDBY (some (cmdTok 0x0F04 c b)) (b2.setUpdate (fun _ => Update.reset)))) ∧
     (b.runsNow 0x0F05 c = true →
       Replies (.updateStatus c) 0x0F05 c b
         (ok (toLE 1 (b.rd fCPR_BOOT_STAT_SLOT) ++ toLE 1 b.pwr.update.state ++ toLE 2 0 ++ toLE 4 (seqShown b 0) ++
           toLE 4 (seqShown b 1))) b)) ∧
  (∀ b : Block, usbOn b = true →
     (b.serving = true →
       let bars := b.flag fFERRY_CTRL_EN || b.mode == mBOOT || b.mode == mSELFTEST || b.mode == mFAULT ||
         b.pwr.update.waiting.isSome
       (bars = true → Ends .dfuDetach b (dfuStall true b)) ∧
       (bars = false →
         let b' := dfuStall false (enterUpdate b)
         Ends .dfuDetach b (b'.setUpdate (fun _ => { freshUpdate b' 0 0 with dfu := some [] })))) ∧
     (b.pwr.update.dfu = none →
       Ends .dfuManifest b (dfuStall true b) ∧ ∀ bytes, Ends (.dfuDownload bytes) b (dfuStall true b)) ∧
     (∀ got, b.pwr.update.dfu = some got →
       (∀ bytes : List Byte,
         let all := got ++ bytes
         (b.pwr.update.state < 3 → bytes.length ≤ 4096 →
           (all.length < 104 ∨ (lengthOk b (leAt all 0 4) = true ∧ all.length ≤ leAt all 0 4 + 104)) →
           let b1 := dfuStall false (dfuFields all b)
           let b2 := programFlash (slotBase b1.pwr.update.target + 0x1000 + (got.length - 104)) (bytes.drop (104 - got.length)) b1
           Ends (.dfuDownload bytes) b (b2.setUpdate (fun u => { u with dfu := some all }))) ∧
         (3 ≤ b.pwr.update.state ∨ 4096 < bytes.length → Ends (.dfuDownload bytes) b (dfuStall true b))) ∧
       (b.pwr.update.state = 2 →
         let header := programFlash (slotBase b.pwr.update.target) (headerPage b.pwr.update got) b
         Ends .dfuManifest b
           (if targetOk b (got.take 104) then dfuStall false (header.setUpdate (fun u => { u with state := 4 }))
            else dfuStall true b))))

/-! ### Clocks (11) -/

/-- What the clock sources and PLLs do while AON is out of reset (R394 to R412, R415, R545). An enabled source proven sets its OK
bit; the IRC proven switches CORE on and lets a switch held for it take place. A source whose detector trips fails, and the
IRC's failure brings the backup oscillator and stops the Proctor. A window's counts are kept for the enabled sources, and judged
where neither trim nor an unproven IRC tainted it. A PLL whose reference stops holds over; one held beyond its time
unlocks with its event, and fails a command waiting for it; a forced switch raises its event.

PLL_LOCK (R369, R396, R401, R407, R411, R415, R545): the PLL's LOCK bit sets, its HOLD bit clears, and CORE may start. The last PLL
that a fallback switched raises FALLBACK_ACTIVE, and asks for SAFE with FAIL_SAFE at 1; the last that a command waits for brings its
reply; the last of a switch back clears FALLBACK; the APLL lets a Tide held by a change of family run on. -/
def Obligations.ClockEventsAndLocks : Prop :=
  (∀ b : Block, b.pwr.porn = false →
     (∀ src < 4, sourceOn b src = true → proven b src = false →
       let b1 := b.setProven src true
       let b2 := if b1.on dCORE || b1.pwr.sysrst then b1
         else { b1 with pwr := { b1.pwr with rising := Nat.lor b1.pwr.rising (2 ^ dCORE) } }
       (src ≠ 0 → Ends (.sourceProven src) b (takeRefs b1)) ∧
       (src = 0 → b2.clk.fbHeld = [] → Ends (.sourceProven src) b (takeRefs b2)) ∧
       (∀ f, src = 0 → b2.clk.fbHeld = [f] → pllsOn b2 f ≠ [] →
         Ends (.sourceProven src) b (takeRefs (fallback f { b2 with clk := { b2.clk with fbHeld := [] } })))) ∧
     (∀ src < 4, src ≠ 0 → Ends (.activityDetectorTrip src) b (sourceFail src b)) ∧
     (let b1 := { b.raise evIRC_FAIL with clk := { (b.raise evIRC_FAIL).clk with backupOsc := true } }
      let lost := ((b1.setProven 0 false).wr fHIF_STATUS_PROCTOR_RUN 0).wr fHIF_STATUS_BOOT_DONE 0
      Ends .ircFail b lost ∧ Ends (.activityDetectorTrip 0) b lost) ∧
     (∀ xa xb mclk : Nat, (Instr.monitorWindow xa xb mclk).wf = true →
       let b1 := if sourceOn b 1 then b.wr fCPR_MON_COUNT0_XA xa else b
       let b2 := if sourceOn b1 2 then b1.wr fCPR_MON_COUNT0_XB xb else b1
       let b3 := if sourceOn b2 3 then b2.wr fCPR_MON_COUNT1_MCLK mclk else b2
       ((b3.clk.windowTainted || !proven b3 0) = true →
         Ends (.monitorWindow xa xb mclk) b { b3 with clk := { b3.clk with windowTainted := !proven b3 0 } }) ∧
       ((b3.clk.windowTainted || !proven b3 0) = false →
         Ends (.monitorWindow xa xb mclk) b (windowVerdict 3 mclk (windowVerdict 2 xb (windowVerdict 1 xa b3))))) ∧
     (∀ pll < 3,
       Ends (.pllHoldover pll) b (b.setHold pll true) ∧
       (bit (b.rd fCPR_CLK_STAT_HOLD) (2 - pll) = true → b.clk.fbWait.contains pll = false →
         Ends (.pllUnlock pll) b (failWaiting pll ((b.setLocked pll false).raise (evPLL_UNLOCK pll)))) ∧
       (bit (b.rd fCPR_CLK_STAT_HOLD) (2 - pll) = false ∨ b.clk.fbWait.contains pll = true →
         Ends (.pllUnlock pll) b (failWaiting pll b)) ∧
       Ends (.clkForcedSwitch pll) b (b.raise evCLK_FORCED_SWITCH))) ∧
  (∀ (b : Block) (pll : Nat), pll < 3 → b.pwr.porn = false → locked b pll = false →
     proven b (sourceOf pll (actRef b pll)) = true → b.on dCORE = true →
     let b1 := (b.setLocked pll true).setHold pll false
     let b2 := { b1 with clk := { b1.clk with fbWait := [] } }
     (b.clk.fbWait = [] → b.clk.clearing = [] → b.clk.waiting = [] → b.clk.tideHeld = false →
       Ends (.pllLock pll) b (coreStart b2)) ∧
     (b.clk.fbWait = [pll] → b.clk.clearing = [] → b.clk.waiting = [] → b.clk.tideHeld = false →
       let b3 := b2.raise evFALLBACK_ACTIVE
       Ends (.pllLock pll) b
         (coreStart (if b3.flag fCPR_CLK_CFG_FAIL_SAFE then { b3 with pwr := { b3.pwr with safeAsked := true } } else b3))) ∧
     (∀ tok stamp, b.clk.fbWait = [] → b.clk.clearing = [] → b.clk.waiting = [(tok, stamp, [pll])] → b.clk.tideHeld = false →
       Ends (.pllLock pll) b
         (coreStart ({ b2 with clk := { b2.clk with waiting := [] } }.finish tok stamp false (ok [])))) ∧
     (b.clk.fbWait = [] → b.clk.clearing = [pll] → b.clk.waiting = [] → b.clk.tideHeld = false →
       let b3 := { b2 with clk := { b2.clk with clearing := [], before := none } }
       Ends (.pllLock pll) b
         (coreStart ((b3.wr fCPR_CLK_STAT_FALLBACK 0).wr fCPR_CLK_STAT_FB_CAUSE 0))) ∧
     (pll = 0 → b.clk.fbWait = [] → b.clk.clearing = [] → b.clk.waiting = [] → b.clk.tideHeld = true →
       let b3 := { b2 with clk := { b2.clk with tideHeld := false } }.wr fTIDE_STAT_RUNNING 1
       Ends (.pllLock pll) b (coreStart (b3.wr fTIDE_STAT_FAMILY (b.rd fCPR_APLL_CFG_FAMILY)))))

/-- Registers and commands of the clocks (R369, R394 to R398, R411 to R415). A write of CPR_IRC_TRIM outside fallback unproves the IRC
and taints the window; CPR_CLK_CFG drops sources switched off, brings proven references into use, and in fallback asks for the
switch back at the boundary at which every PLL on the IRC names a proven source; a change of family in CPR_APLL_CFG retunes the APLL and holds the Tide.
CLOCK_SET_REF writes all of them and CLOCK_RESTORE names the references kept before the fallback, and each replies when its PLLs
are locked; CLOCK_STATUS answers four registers, MEM_CONFIG writes CPR_MEM_CFG while MEM is off. -/
def Obligations.ClockRegistersAndCommands : Prop :=
  ∀ (b : Block),
    (∀ v : Word, b.hostMay rCPR_IRC_TRIM = true → b.flag fCPR_CLK_STAT_FALLBACK = false →
      let b1 := (b.put rCPR_IRC_TRIM v.toNat).setProven 0 false
      Ends (.cprIrcTrim v) b (restartCheck rCPR_IRC_TRIM { b1 with clk := { b1.clk with windowTainted := true } })) ∧
    (∀ v : Word, b.hostMay rCPR_CLK_CFG = true →
      let b1 := forL [1, 2, 3] (fun s x => if sourceOn x s then x else x.setProven s false) (b.put rCPR_CLK_CFG v.toNat)
      let b2 := takeRefs b1
      (b2.flag fCPR_CLK_STAT_FALLBACK = false → Ends (.cprClkCfg v) b (restartCheck rCPR_CLK_CFG b2)) ∧
      (b2.flag fCPR_CLK_STAT_FALLBACK = true →
        Ends (.cprClkCfg v) b (restartCheck rCPR_CLK_CFG { b2 with clk := { b2.clk with restoreAtBound := true } }))) ∧
    (∀ v : Word, b.hostMay rCPR_APLL_CFG = true →
      let b1 := b.put rCPR_APLL_CFG v.toNat
      let b2 := { b1 with clk := { b1.clk with tideHeld := b1.clk.tideHeld || b1.flag fTIDE_STAT_RUNNING } }
      (b1.rd fCPR_APLL_CFG_FAMILY = b.rd fCPR_APLL_CFG_FAMILY →
        Ends (.cprApllCfg v) b (restartCheck rCPR_APLL_CFG b1)) ∧
      (b1.rd fCPR_APLL_CFG_FAMILY ≠ b.rd fCPR_APLL_CFG_FAMILY →
        Ends (.cprApllCfg v) b
          (restartCheck rCPR_APLL_CFG ((retuneApll (b2.setLocked 0 false)).wr fTIDE_STAT_RUNNING 0)))) ∧
    (∀ c : Cmd, b.runsNow 0x0A00 c = true → mClockSetRef.chk c.payload b = none →
      let b1 := writeClkCfg (leAt c.payload 0 4) (writeApllCfg (leAt c.payload 8 1) (writeMclkCfg (leAt c.payload 4 4) b))
      let b2 := if b1.clk.restoreAtBound then restoreRefs b1 else b1
      let r := replyWhenLocked (cmdTok 0x0A00 c b) b.now b2
      Replies (.clockSetRef c) 0x0A00 c b r.1 r.2) ∧
    (∀ (c : Cmd) (x y z : Nat), b.runsNow 0x0A01 c = true → b.flag fCPR_CLK_STAT_FALLBACK = true →
      b.clk.before = some (x, y, z) →
      proven b (sourceOf 0 x) = true → proven b (sourceOf 1 y) = true → proven b (sourceOf 2 z) = true →
      let b1 := ((b.setCfgRef 0 x).setCfgRef 1 y).setCfgRef 2 z
      let r := replyWhenLocked (cmdTok 0x0A01 c b) b.now (restoreRefs { b1 with clk := { b1.clk with restoreAtBound := true } })
      Replies (.clockRestore c) 0x0A01 c b r.1 r.2) ∧
    (∀ c : Cmd, b.runsNow 0x0A02 c = true →
      Replies (.clockStatus c) 0x0A02 c b
        (ok (toLE 4 (b.word rCPR_CLK_STAT) ++ toLE 4 (b.word rCPR_APLL_N) ++ toLE 4 (b.word rCPR_MON_COUNT0) ++
          toLE 4 (b.word rCPR_MON_COUNT1))) b) ∧
    (∀ c : Cmd, b.runsNow 0x0A03 c = true → b.on dMEM = false → regWordOk rCPR_MEM_CFG (leAt c.payload 0 4) = true →
      Replies (.memConfig c) 0x0A03 c b (ok []) (b.put rCPR_MEM_CFG (leAt c.payload 0 4)))

/-! ### The Tide (10) -/

/-- The Tide's count as it is started, wraps and is read (R367, R368, R371 to R373, R385, R386). With the APLL locked and CORE on the
standing count starts, with the bell counter at 0 and the family of CPR_APLL_CFG. At its wrap the count reads 0, the epoch
advances and TIDE_WRAP is raised. A read of TIDE_LO, TIDE_BOUND_LO or TIDE_CAPn_LO latches the rest for its requester alone and
drives its port, least significant byte first; the read of a capture clears NEW and OVR, but leaves NEW at 1 where a capture lands in
its tick.

What one requester latches leaves what the others have latched as it was (R371, R389).
That the Tide moves on to a happening's own instant is the model's choice (notes/assumptions/7.md). -/
def Obligations.TideCountsAndReads : Prop :=
  (∀ b : Block,
     (bit (b.rd fCPR_CLK_STAT_LOCK) 2 = true → b.on dCORE = true → b.flag fTIDE_STAT_RUNNING = false →
       let b1 := { b with tide := { b.tide with bellFrom := b.now } }
       Ends .tideStart b ((b1.wr fTIDE_STAT_RUNNING 1).wr fTIDE_STAT_FAMILY (b.rd fCPR_APLL_CFG_FAMILY))) ∧
     (b.tideRuns = true →
       Ends .tideWrap b ({ b with tide := { b.tide with count := 0, epoch := b.tide.epoch + 1 } }.raise evTIDE_WRAP)) ∧
     (∀ req < 3,
       let drive (x : Block) (v : Nat) := if req < 2 then { x with host := { x.host with out := toLE 4 v } } else x
       Ends (.tideLoRead req) b
         (drive (b.setLatch req (fun l => { l with hi := b.now / 2 ^ 32, epoch := b.tide.epoch.toNat })) (b.now % 2 ^ 32)) ∧
       Ends (.tideBoundLoRead req) b
         (drive (b.setLatch req (fun l => { l with boundHi := b.lastBound / 2 ^ 32 })) (b.lastBound % 2 ^ 32)) ∧
       (∀ n < 8,
         let b1 := b.setLatch req (fun l => { l with capHi := l.capHi.set n (b.word (rTIDE_CAP_HI + 0x10 * n)) })
         Ends (.tideCapLoRead n req) b
           (drive ((b1.wrB (fTIDE_CAP_HI_NEW.at n) ((nth CapState.reset b.tide.caps n).landed == some b.now)).wr
             (fTIDE_CAP_HI_OVR.at n) 0) (b.word (rTIDE_CAP_LO + 0x10 * n)))))) ∧
  (∀ (b : Block) (req other : Nat) (f : Latch → Latch), other ≠ req → (b.setLatch req f).latch other = b.latch other)

/-- Compares and pins (R374 to R384). An enabled channel whose value the running count reaches, and whose comparator no write has
reached in this very tick, matches: its event is raised, a period moves its value on and a period of 0 clears EN, then its
strobe, its post and its pin action take place in this order. A channel that a write has reached in this tick matches by what it held
before the write, and the words written prevail over what the match makes of them; where it does not match so, it matches when the
count comes to its new value later. A pin action applies after the pulses ended and among the tick's actions by channel number, and a
PULSE is to end after its width; a pulse ends with its latch at 0. A write to a compare register leaves for its comparator, and
the oldest on its way arrives there after the ticks it takes, in use from the following one. An edge driven from outside changes the
pin and lets the captures watch it; an open-drain output leaves its pin at the level driven from outside where it does not pull it
down.

TIDE_CAP (R384, R385): once the new level has been sampled for the filter's ticks it is accepted; an edge of the selected kind
records the first tick of the new level and its kind, sets NEW, or OVR beside it where NEW stood, and raises its event; another
edge records nothing.
That the Tide moves on to a happening's own instant is the model's choice (notes/assumptions/7.md). -/
def Obligations.ComparesAndCaptures : Prop :=
  (∀ b : Block,
     (∀ n < 16, b.tideRuns = true →
       let fires (b1 : Block) : Block :=
         let v := cmpV b1 n
         let b1 := b1.raise (evTIDE_CMP n)
         let per := b1.rd (fTIDE_CMP_PER_PER.at n)
         let b2 := if per = 0 then b1.wr (fTIDE_CMP_CTRL_EN.at n) 0 else b1.setCmpV n ((v + per) % tideMod)
         let b3 := if b2.flag (fTIDE_CMP_CTRL_STROBE.at n) then strobeTide n b2 else b2
         let b4 := if b3.flag (fTIDE_CMP_CTRL_POST.at n) then post n b3 else b3
         pinAction n b4
       (cmpFresh b n = false → b.flag (fTIDE_CMP_CTRL_EN.at n) = true →
         Ends (.tideCmp n) b (fires (if cmpV b n = b.now then b else b.advanceTo (cmpV b n)))) ∧
       (∀ h, cmpHeld b n = some h →
         let was := setCmpWords n h.old b
         (was.flag (fTIDE_CMP_CTRL_EN.at n) = true → cmpV was n = b.now →
           ∃ b', Ends (.tideCmp n) b b' ∧ b'.ev = (fires was).ev ∧ b'.sched = (fires was).sched ∧
             (∀ i < 4, h.fresh.contains i = true →
               b'.word (rTIDE_CMP_LO + 0x10 * n + 4 * i) = b.word (rTIDE_CMP_LO + 0x10 * n + 4 * i)) ∧
             (∀ i < 4, h.fresh.contains i = false →
               b'.word (rTIDE_CMP_LO + 0x10 * n + 4 * i) = (fires was).word (rTIDE_CMP_LO + 0x10 * n + 4 * i))) ∧
         (was.flag (fTIDE_CMP_CTRL_EN.at n) = false ∨ cmpV was n ≠ b.now →
           (b.flag (fTIDE_CMP_CTRL_EN.at n) = true → cmpV b n ≠ b.now →
             Ends (.tideCmp n) b (fires (b.advanceTo (cmpV b n)))) ∧
           (b.flag (fTIDE_CMP_CTRL_EN.at n) = false ∨ cmpV b n = b.now → Ends (.tideCmp n) b b)))) ∧
     (∀ m < 8, b.tideRuns = true →
       (∀ t, nextOf b (b.tioPin m).ends = some t → b.hasCome t = false →
         let b1 := b.advanceTo t
         Ends (.pulseEnd m) b
           (if (b1.tioPin m).ends.any b1.hasCome then
              (b1.setPin m (fun p => { p with ends := p.ends.filter (fun t => !b1.hasCome t), acts := none })).setTioLatch m false
            else b1)) ∧
       (∀ t, (b.tioPin m).ends = [t] → b.hasCome t = true →
         Ends (.pulseEnd m) b ((b.setPin m (fun p => { p with ends := [], acts := none })).setTioLatch m false))) ∧
     (∀ addr v : Word,
       let a := addr.toNat / 4 * 4
       0x20100 ≤ a → a < 0x20200 → (regAt a).isSome = true → b.hostMay a = true →
       Ends (.compareWrite addr v) b
         (restartCheck a { b with tide := { b.tide with cmpWrites := b.tide.cmpWrites ++ [⟨a, v.toNat, b.now⟩] } })) ∧
     (∀ (ticks : Nat) (w : CmpWrite) (ws : List CmpWrite), (Instr.compareWriteArrive ticks).wf = true →
       b.tide.cmpWrites = w :: ws →
       let t := (w.done + ticks) % tideMod
       let b1 := { b with tide := { b.tide with cmpWrites := ws } }
       let b2 := if b1.tideRuns && !b1.hasCome t then b1.advanceTo t else b1
       Ends (.compareWriteArrive ticks) b
         ((holdCompare ((w.addr - rTIDE_CMP_LO) / 0x10) (w.addr % 0x10 / 4) b2).put w.addr w.value)) ∧
     (∀ m < 8, ∀ level : Bool,
       let b1 := b.setPin m (fun p => { p with ext := level })
       Ends (.tioPinEdge m level) b (watchPin m (pinLevel b1 m) b1)) ∧
     (∀ m < 8,
       (b.rd (fTIO_CFG_MODE.at m) ≠ 1 → pinLevel b m = (b.tioPin m).ext) ∧
       (b.rd (fTIO_CFG_MODE.at m) = 1 →
         let drive := b.flag (fTIO_CFG_LATCH.at m) != b.flag (fTIO_CFG_INVERT.at m)
         (b.flag (fTIO_CFG_OD.at m) = false → pinLevel b m = drive) ∧
         (b.flag (fTIO_CFG_OD.at m) = true → drive = false → pinLevel b m = false) ∧
         (b.flag (fTIO_CFG_OD.at m) = true → drive = true → pinLevel b m = (b.tioPin m).ext)))) ∧
  (∀ (b : Block) (n t : Nat), n < 8 → (nth CapState.reset b.tide.caps n).since = some t →
     b.flag (fTIDE_CAP_CFG_EN.at n) = true → b.tideRuns = true →
     let need := b.rd (fTIDE_CAP_CFG_FILT.at n) * 2 ^ b.rd (fTIDE_CAP_CFG_PRE.at n)
     let end_ := (t + (max need 1 - 1)) % tideMod
     let c := nth CapState.reset b.tide.caps n
     let rise := !c.level
     let b1 := if b.hasCome end_ then b else b.advanceTo end_
     let e := b1.rd (fTIDE_CAP_CFG_EDGE.at n)
     let hit := (rise && bit e 0) || (!rise && bit e 1)
     let b2 (landed : Option Nat) := { b1 with tide := { b1.tide with
       caps := b1.tide.caps.set n { level := rise, since := none, landed := landed } } }
     let b2h := b2 (some b1.now)
     let b3 := b2h.wrB (fTIDE_CAP_HI_OVR.at n) (b2h.flag (fTIDE_CAP_HI_OVR.at n) || b2h.flag (fTIDE_CAP_HI_NEW.at n))
     let b4 := ((b3.wr (fTIDE_CAP_LO_STAMP_LO.at n) t).wr (fTIDE_CAP_HI_STAMP_HI.at n) (t / 2 ^ 32)).wrB
       (fTIDE_CAP_HI_RISE.at n) rise
     (hit = true → Ends (.tideCap n) b ((b4.wr (fTIDE_CAP_HI_NEW.at n) 1).raise (evTIDE_CAP n))) ∧
     (hit = false → Ends (.tideCap n) b (b2 c.landed)))

/-- Commands of the Tide range and the bell's register (R379, R380, R387, R391, R392). TIDE_GET answers count, epoch, latest boundary
and period. TIDE_ARM sets V, PER and CTRL of a channel where V lies at least four ticks and less than 2^47 ahead, and no pin action
is aimed at a pin in INPUT mode; TIDE_SET_POST stores a record of a listed type; TIDE_SET_CAPTURE and TIO_SET write their registers, a
capture turned to a pin taking up its level (the model's choice, notes/assumptions/47.md), a pin with an action aimed at it keeping
out of INPUT mode; BELL_SET gives the bell its period. A write of BELL_CFG reaches the counter two or
three ticks after it, which is left free, and the bell rings in those ticks as before. -/
def Obligations.TideCommands : Prop :=
  ∀ b : Block,
    (∀ c : Cmd,
      (b.runsNow 0x0900 c = true →
        Replies (.tideGet c) 0x0900 c b
          (ok (toLE 6 b.now ++ toLE 2 b.tide.epoch.toNat ++ toLE 6 b.lastBound ++ toLE 2 b.period)) b) ∧
      (b.runsNow 0x0901 c = true →
        let ch := leAt c.payload 0 1
        let v := leAt c.payload 4 6
        let ctrl := leAt c.payload 12 4
        ch < 16 → regWordOk (rTIDE_CMP_CTRL + 0x10 * ch) ctrl = true →
        (bit ctrl 31 = true → 4 ≤ b.ahead v ∧ b.ahead v < 2 ^ 47) → aimedAtInput b ctrl = false →
        let b1 := ((b.setCmpV ch v).put (rTIDE_CMP_PER + 0x10 * ch) (leAt c.payload 16 4)).put
          (rTIDE_CMP_CTRL + 0x10 * ch) ctrl
        Replies (.tideArm c) 0x0901 c b (ok (toLE 6 b1.now ++ toLE 2 0)) b1) ∧
      (b.runsNow 0x0902 c = true → leAt c.payload 0 1 < 16 → typeListed (leAt c.payload 4 1) = true →
        bit (leAt c.payload 5 1) 3 = false → bit (leAt c.payload 5 1) 7 = false →
        Replies (.tideSetPost c) 0x0902 c b (ok [])
          (forN 6 (fun i x => x.setWord (rTIDE_POST + 0x20 * leAt c.payload 0 1 + 4 * i) (leAt c.payload (4 + 4 * i) 4)) b)) ∧
      (b.runsNow 0x0903 c = true → leAt c.payload 0 1 < 8 →
        regWordOk (rTIDE_CAP_CFG + 0x10 * leAt c.payload 0 1) (leAt c.payload 4 4) = true →
        let n := leAt c.payload 0 1
        let b1 := b.put (rTIDE_CAP_CFG + 0x10 * n) (leAt c.payload 4 4)
        let pin (x : Block) := x.rd (fTIDE_CAP_CFG_PIN.at n)
        (b.flag (fTIDE_CAP_CFG_EN.at n) = true → pin b1 = pin b → Replies (.tideSetCapture c) 0x0903 c b (ok []) b1) ∧
        (b.flag (fTIDE_CAP_CFG_EN.at n) = false ∨ pin b1 ≠ pin b →
          Replies (.tideSetCapture c) 0x0903 c b (ok []) { b1 with tide := { b1.tide with
            caps := b1.tide.caps.modify n (fun k => { k with level := pinLevel b1 (pin b1), since := none }) } })) ∧
      (b.runsNow 0x0904 c = true →
        let m := leAt c.payload 0 1
        let w := leAt c.payload 4 4
        m < 8 → regWordOk (rTIO_CFG + 4 * m) w = true → (bitsOf w 1 0 ≠ 0 ∨ pinAimedAt b m = false) →
        let b1 := (b.put (rTIO_CFG + 4 * m) w).setPin m (fun p => { p with acts := none })
        Replies (.tioSet c) 0x0904 c b (ok []) (watchPin m (pinLevel b1 m) b1)) ∧
      (b.runsNow 0x0905 c = true → Replies (.bellSet c) 0x0905 c b (ok []) (setBellPeriod (leAt c.payload 0 2) b))) ∧
    (∀ v : Word, b.hostMay rBELL_CFG = true → b.tideRuns = true →
      let k := (b.fresh 387).1
      let b1 := (b.fresh 387).2
      Ends (.bellCfg v) b
        (restartCheck rBELL_CFG (setBellPeriod v.toNat (forN (2 + k % 2) (fun _ => bellingTick) b1))))

/-! ### Test and health (17) -/

/-- Self-test (R555 to R561). BIST_START in SELFTEST, with its targets quiet and its banks no processor's, sets BUSY and replies at the
end; BIST_DONE leaves every target in its reset state, the boot ROM's with its own signature where it passes, records which passed and
failed, sets VALID, raises its events and replies; BIST_RESULT answers the registers, BG_TEST_SET writes its register. A background
slice begins where the test is enabled and an eligible bank is next, and borrows that bank; at its end its words are restored, the
bank is free, the place moves on, a fault is recorded and counted, and an owner that waited takes effect.

Monitors, snapshots and lane load (R562 to R569, R572, R573). MON_CONFIG on a monitor that is off stores CFG, THRESH and for a
latency monitor BASE, and its EN goes to roll call or falls; TEST_SNAP takes the snapshots it names in ascending order and clears
where it asks for that; MON_READ takes one where asked, and answers MIN, MAX, COUNT and half of the bins; LANE_LOAD answers the
loads and slacks of the sixteen lanes.
When MON_READ clears is the model's reading (notes/assumptions/23.md). -/
def Obligations.SelfTestAndMonitors : Prop :=
  (∀ b : Block,
     (∀ c : Cmd,
       (b.runsNow 0x0D00 c = true → mBistStart.chk c.payload b = none →
         let b1 := { b with tst := { b.tst with
           bist := some ⟨cmdTok 0x0D00 c b, b.now, leAt c.payload 0 4, leAt c.payload 4 8⟩ } }
         Replies (.bistStart c) 0x0D00 c b .later ((b1.wr fTEST_BIST_STAT_VALID 0).wr fTEST_BIST_STAT_BUSY 1)) ∧
       (b.runsNow 0x0D01 c = true →
         Replies (.bistResult c) 0x0D01 c b
           (ok (words4 b ([rTEST_BIST_STAT, rTEST_BIST_RES, rTEST_BIST_RES + 4, rTEST_MBIST_ADDR] ++
             (List.range 10).map (fun t => rTEST_BIST_SIG + 4 * t)))) b) ∧
       (b.runsNow 0x0D02 c = true → regWordOk rTEST_BG_CFG (leAt c.payload 0 4) = true →
         Replies (.bgTestSet c) 0x0D02 c b (ok []) (b.put rTEST_BG_CFG (leAt c.payload 0 4)))) ∧
     (∀ (r : Bist) (failing : Word), b.tst.bist = some r →
       let fail := Nat.land r.targets failing.toNat
       let pass := r.targets - fail
       let tested := forL (bistTargets.filter (bit r.targets)) (fun t x =>
         let y := afterTest r.banks t x
         if t < 10 then signature (bit pass t) t y else y)
         { b with tst := { b.tst with bist := none } }
       let b1 := (tested.wr (fTEST_BIST_RES_TARGETS.at 0) pass).wr (fTEST_BIST_RES_TARGETS.at 1) fail
       let b2 := ((captureWord fail b1).wr fTEST_BIST_STAT_BUSY 0).wr fTEST_BIST_STAT_VALID 1
       Ends (.bistDone failing) b
         (((b2.raise evBIST_DONE).raiseIf (fail != 0) evBIST_FAIL).finish r.tok r.stamp false (ok (toLE 4 pass ++ toLE 4 fail)))) ∧
     (∀ (k s : Nat) (b1 : Block), b.flag fTEST_BG_CFG_EN = true → b.flag fSLATE_STAT_FUSE_DONE = true →
       b.flag fSLATE_STAT_BORROW_ACTIVE = false → memoryBist b = false → b.on dCORE = true →
       nextSlice 65 b = (some (k, s), b1) →
       Ends .bgSliceStart b
         (((saveSlice k s { b1 with slate := { b1.slate with slice := some (k, s) } }).wr fSLATE_STAT_BORROW_ACTIVE 1).wr
           fSLATE_STAT_BORROW_BANK k)) ∧
     (∀ (k s : Nat) (failed : Bool), b.slate.slice = some (k, s) → ¬ (k = 63 ∧ s = 2047) →
       let b0 := restoreSlice k s b
       let b1 := { b0 with slate := { b0.slate with slice := none, bgNext := if s = 2047 then (k + 1, 0) else (k, s + 1) } }.wr
         fSLATE_STAT_BORROW_ACTIVE 0
       let b2 := if failed then bgFault k s b1 else b1
       (b2.slate.ripe.contains k = false → Ends (.bgSliceRelease failed) b (ownerChange k b2)) ∧
       (b2.slate.ripe.contains k = true →
         Ends (.bgSliceRelease failed) b (checkBuild (checkEscort (applyOwner k
           { b2 with slate := { b2.slate with ripe := b2.slate.ripe.filter (· != k) } })))))) ∧
  (∀ b : Block,
     (∀ c : Cmd,
       (b.runsNow 0x0D03 c = true → mMonConfig.chk c.payload b = none →
         let m := leAt c.payload 0 1
         let a := monCfg m
         let b1 := writeMon m a (leAt c.payload 4 4) (writeMon m (a + 4) (leAt c.payload 8 4) b)
         let b2 := if m < 8 then writeMon m (a + 0x14) (leAt c.payload 12 4) b1 else b1
         (bit (leAt c.payload 4 4) 31 = false → Replies (.monConfig c) 0x0D03 c b (ok []) (clearEnable a b2)) ∧
         (bit (leAt c.payload 4 4) 31 = true →
           Replies (.monConfig c) 0x0D03 c b .later
             (startCheck a (some (cmdTok 0x0D03 c b)) b.now ([a, a + 4, a + 0x14].map (fun w => (w, b.word w))) b2))) ∧
       (b.runsNow 0x0D04 c = true → leAt c.payload 0 1 < 24 → leAt c.payload 1 1 ≤ 1 → leAt c.payload 2 1 ≤ 1 →
         leAt c.payload 3 1 ≤ 1 →
         let m := leAt c.payload 0 1
         let b1 := if leAt c.payload 2 1 = 1 then snapshot m (leAt c.payload 3 1 == 1) b else b
         Replies (.monRead c) 0x0D04 c b
           (ok (words4 b1 ([64, 65, 66].map (snapWord m) ++
             (List.range 32).map (fun i => snapWord m (32 * leAt c.payload 1 1 + i))))) b1) ∧
       (b.runsNow 0x0D05 c = true →
         Replies (.laneLoad c) 0x0D05 c b
           (ok (words4 b ((List.range 16).map (fun l => rTEST_LANE_LOAD + 8 * l) ++
             (List.range 16).map (fun l => rTEST_LANE_SLACK + 8 * l)))) b)) ∧
     (∀ v : Word, b.hostMay rTEST_SNAP = true →
       Ends (.testSnap v) b
         (restartCheck rTEST_SNAP (forN 24 (fun m x => if bit v.toNat m then snapshot m (bit v.toNat 31) x else x) b))))

/-- The TAP and its unlocking (R370, R570, R571, R574). BYPASS, IDCODE with the part's code and SAMPLE/PRELOAD are offered always, EXTEST
and the debug halt only unlocked, a locked TAP selecting BYPASS for them. CHALLENGE forms a fresh challenge of free bytes, by the
TAP or by JTAG_CHALLENGE; RESPONSE and JTAG_UNLOCK make one attempt, which consumes it: right it unlocks, wrong it counts, and the
third wrong one bars. FROZEN follows the halt and DBG_FREEZE. -/
def Obligations.TapAndUnlock : Prop :=
  ∀ b : Block,
    (b.pwr.porn = false →
      Ends .bypass b { b with tst := { b.tst with ir := 0, dr := [] } } ∧
      Ends .idcode b { b with tst := { b.tst with ir := 1, dr := toLE 4 0xB10248C3 } } ∧
      Ends .samplePreload b { b with tst := { b.tst with ir := 2, dr := [] } } ∧
      (b.flag fTEST_JTAG_STAT_LOCKED = false →
        Ends .extest b { b with tst := { b.tst with ir := 3, dr := [] } } ∧
        (let b1 := { b with tst := { b.tst with halted := true, ir := 6, dr := [] } }
         Ends .debugHalt b (b1.wrB fTIDE_STAT_FROZEN (b.flag fTIDE_CTRL_DBG_FREEZE)))) ∧
      (b.flag fTEST_JTAG_STAT_LOCKED = true →
        Ends .extest b { b with tst := { b.tst with ir := 0, dr := [] } } ∧
        Ends .debugHalt b { b with tst := { b.tst with ir := 0, dr := [] } }) ∧
      Ends .debugHaltRelease b ({ b with tst := { b.tst with halted := false } }.wrB fTIDE_STAT_FROZEN false) ∧
      (let r := newChallenge b
       Ends .challenge b { r.2 with tst := { r.2.tst with ir := 4, dr := r.1 } }) ∧
      (∀ bytes : List Byte,
        let r := (attempt bytes b).2
        Ends (.response bytes) b { r with tst := { r.tst with ir := 5, dr := [] } })) ∧
    (∀ c : Cmd,
      (b.runsNow 0x0D06 c = true → Replies (.jtagChallenge c) 0x0D06 c b (ok (newChallenge b).1) (newChallenge b).2) ∧
      (b.runsNow 0x0D07 c = true → b.tst.challenge.isSome = true →
        let r := attempt c.payload b
        Replies (.jtagUnlock c) 0x0D07 c b (if r.1 then ok [] else refusedWith .unsignedImage) r.2))

/-! ### Voices (03, 04) -/

/-- What the host sets for all voices (R116, R117, R151, R159, R163, R166). SET_TUNING, SET_TUNING_TABLE, SET_TEMPO and SET_GLOBAL_LFO
wait for a boundary, even where they come late, since every voice of a window sees one tuning, one beat and one value of a global LFO
(R83, R126; the model's reading, notes/assumptions/16.md); SET_SMOOTH and SET_NOISE_SEED store their value, SET_HPARAM starts the
ramp of each parameter it names. At its boundary SET_TUNING stores its value, SET_TUNING_TABLE the offsets of consecutive notes of
one table, SET_TEMPO commits its beat and answers the origin, SET_GLOBAL_LFO starts one LFO afresh, its held value a free one in the
generator's range. A host write of VOICE_BEAT_ORIGIN_HI stages the beat words as they then stand for the next boundary, where they
commit. -/
def Obligations.VoiceSettings : Prop :=
  ∀ b : Block,
    (∀ c : Cmd,
      let p := c.payload
      (b.mustWait 0x0140 c = true → 26214400 ≤ leAt p 0 4 → leAt p 0 4 ≤ 31457280 → Waits (.setTuning c) 0x0140 c b) ∧
      (b.mustWait 0x0141 c = true → leAt p 0 1 ≠ 0 → leAt p 0 1 ≤ 8 → leAt p 1 1 + leAt p 2 1 ≤ 128 →
        (∀ i < leAt p 2 1, (leAtS p (4 + 4 * i) 4).natAbs ≤ 786432) → Waits (.setTuningTable c) 0x0141 c b) ∧
      (b.mustWait 0x0203 c = true → 16384 ≤ leAt p 0 4 → leAt p 4 1 ≤ 1 → Waits (.setTempo c) 0x0203 c b) ∧
      (b.mustWait 0x0204 c = true → mSetGlobalLfo.chk p b = none → Waits (.setGlobalLfo c) 0x0204 c b) ∧
      (b.runsNow 0x0142 c = true →
        Replies (.setNoiseSeed c) 0x0142 c b (ok []) (b.wr fVOICE_NOISE_SEED_SEED (leAt p 0 4))) ∧
      (b.runsNow 0x0205 c = true → leAt p 0 2 ≤ 4095 →
        Replies (.setSmooth c) 0x0205 c b (ok []) (b.wr fVOICE_SMOOTH_SAMPLES (leAt p 0 2))) ∧
      (b.runsNow 0x0202 c = true →
        (∀ i < p.length / 8, leAt p (8 * i) 1 ≤ 31 ∧ leAt p (8 * i + 1) 3 = 0) →
        Replies (.setHparam c) 0x0202 c b (ok [])
          (forN (p.length / 8) (fun i x => writeHparam (leAt p (8 * i) 1) (leAt p (8 * i + 4) 4) x) b))) ∧
    (∀ h : Held,
      let p := h.payload
      let ends (b' : Block) (e : End) : Prop := runHeld h b = b'.finish h.tok h.at_ false e
      (h.may 0x0140 b = true → 26214400 ≤ leAt p 0 4 → leAt p 0 4 ≤ 31457280 →
        let b1 := b.wr fVOICE_TUNE_REF_F_CODE (leAt p 0 4)
        ends { b1 with glob := { b1.glob with tuneF := leAt p 0 4 } } (ok [])) ∧
      (h.may 0x0141 b = true → leAt p 0 1 ≠ 0 → leAt p 0 1 ≤ 8 → leAt p 1 1 + leAt p 2 1 ≤ 128 →
        (∀ i < leAt p 2 1, (leAtS p (4 + 4 * i) 4).natAbs ≤ 786432) →
        let offsets := (List.range (leAt p 2 1)).map (fun i => leAtS p (4 + 4 * i) 4)
        let table := smWriteAll (fun _ => 0) b.glob.tune (leAt p 0 1 * 128 + leAt p 1 1) offsets
        ends { b with glob := { b.glob with tune := table } } (ok [])) ∧
      (h.may 0x0203 b = true → 16384 ≤ leAt p 0 4 → leAt p 4 1 ≤ 1 →
        let o := tempoOrigin b h.at_ (leAt p 0 4) (leAt p 4 1) (leAt p 8 6)
        let b1 := ((b.wr fVOICE_TEMPO_TPB_TPB (leAt p 0 4)).wr fVOICE_BEAT_ORIGIN_LO_ORIGIN_LO o).wr
          fVOICE_BEAT_ORIGIN_HI_ORIGIN_HI (o / 2 ^ 32)
        ends { b1 with glob := { b1.glob with
          tpb := b1.rd fVOICE_TEMPO_TPB_TPB, beatStaged := none
          origin := b1.rd fVOICE_BEAT_ORIGIN_LO_ORIGIN_LO + 2 ^ 32 * b1.rd fVOICE_BEAT_ORIGIN_HI_ORIGIN_HI } } (ok (toLE 6 o))) ∧
      (h.may 0x0204 b = true → mSetGlobalLfo.chk p b = none →
        let b1 := (b.fresh 148).2
        let k := within 148 [(b.fresh 148).1] (-(2 ^ 27)) (2 ^ 27 - 1)
        let rate := leAtS p 8 4
        let acc := if leAt p 2 1 = 1 then lfoInc b1.fs rate * (b1.pairCount h.at_ / b1.period) % 2 ^ 32 else 0
        let st := { Lfo.reset with gen := glfoSeed b1 (leAt p 0 1), acc := acc, h := k, hPrev := k }
        let g : GLfo := ⟨leAt p 1 1, leAt p 2 1, leAt p 3 1, leAt p 4 1, leAt p 5 1, rate, leAtS p 12 4, leAtS p 16 4, leAtS p 20 4,
          st, 0⟩
        ends { b1 with glob := { b1.glob with glfo := b1.glob.glfo.set (leAt p 0 1) g } } (ok []))) ∧
    (∀ v : Word, b.hostMay rVOICE_BEAT_ORIGIN_HI = true → b.isPrimary = false →
      let b1 := b.put rVOICE_BEAT_ORIGIN_HI v.toNat
      let o1 := b1.rd fVOICE_TEMPO_TPB_TPB
      let o2 := b1.rd fVOICE_BEAT_ORIGIN_LO_ORIGIN_LO + 2 ^ 32 * b1.rd fVOICE_BEAT_ORIGIN_HI_ORIGIN_HI
      Ends (.voiceBeatOriginHi v) b
        (logJournal rVOICE_BEAT_ORIGIN_HI v.toNat
          (restartCheck rVOICE_BEAT_ORIGIN_HI { b1 with glob := { b1.glob with beatStaged := some (o1, o2) } }))) ∧
    (∀ tpb origin, b.glob.beatStaged = some (tpb, origin) →
      commitBeat b = { b with glob := { b.glob with tpb := tpb, origin := origin, beatStaged := none } })

/-- Mod writes (R155 to R158, R165). MOD_WRITE and MOD_WRITE_NOTE wait for a boundary, even where they come late (the model's reading,
notes/assumptions/16.md). There, behind the mod writes of events that came before them, MOD_WRITE applies its entries in order and
answers how many reached an armed seat, MOD_WRITE_NOTE each of its entries to every voice armed with the note ID in the class and
answers how many voices these are. One entry on a voice that is not live faults, one on a seat with no armed note is counted, and
any other moves the live base of its destination: at once where smoothing is 0, which also ends a ramp there. -/
def Obligations.ModWrites : Prop :=
  ∀ b : Block,
    (∀ c : Cmd,
      let p := c.payload
      (b.mustWait 0x0200 c = true →
        (∀ i < p.length / 8, destReserved (leAt p (8 * i) 4 % 256) = false ∧ leAt p (8 * i) 4 < 2 ^ 18) →
        Waits (.modWrite c) 0x0200 c b) ∧
      (b.mustWait 0x0201 c = true → mModWriteNote.chk p b = none → Waits (.modWriteNote c) 0x0201 c b)) ∧
    (∀ h : Held,
      let p := h.payload
      let x := modsBefore (some h.seq) b
      (h.may 0x0200 x = true →
        (∀ i < p.length / 8, destReserved (leAt p (8 * i) 4 % 256) = false ∧ leAt p (8 * i) 4 < 2 ^ 18) →
        let one (nb : Nat × Block) (i : Nat) : Nat × Block :=
          let r := applyMod (leAt p (8 * i) 4) (destValue (leAt p (8 * i) 4 % 256) (leAt p (8 * i + 4) 4)) nb.2
          (nb.1 + b2n r.1, r.2)
        let r := (List.range (p.length / 8)).foldl one (0, x)
        runHeld h b = r.2.finish h.tok h.at_ false (ok (toLE 2 r.1))) ∧
      (h.may 0x0201 x = true → mModWriteNote.chk p x = none →
        let vs := noteVoices x (leAt p 0 2) (leAt p 2 2)
        let y := forN ((p.length - 4) / 8) (fun i x => forL vs (fun v y =>
            (applyMod (v * 256 + leAt p (4 + 8 * i) 1) (destValue (leAt p (4 + 8 * i) 1) (leAt p (8 + 8 * i) 4)) y).2) x) x
        runHeld h b = y.finish h.tok h.at_ false (ok (toLE 2 vs.length)))) ∧
    (∀ (addr : Nat) (value : Int),
      let v := addr / 256 % 1024
      (b.live v = false → applyMod addr value b = (false, modFault addr b)) ∧
      (b.live v = true → modTarget (b.voice v) = false →
        applyMod addr value b = (false, b.countUp fVOICE_MOD_IDLE_COUNT 1)) ∧
      (b.live v = true → modTarget (b.voice v) = true → b.glob.smooth = 0 → (b.voice v).base.length = 256 →
        let b' := (applyMod addr value b).2
        (applyMod addr value b).1 = true ∧ nth 0 (b'.voice v).base (addr % 256) = value ∧
        (∀ d, d ≠ addr % 256 → nth 0 (b'.voice v).base d = nth 0 (b.voice v).base d) ∧
        (∀ w, w ≠ v → b'.voice w = b.voice w) ∧ b'.regs = b.regs ∧ b'.ev = b.ev))

/-! ### The event island (05) -/

/-- Every record row (R172 to R174, R176, R202, R502, R503) on a device without a role, its event island on. A bad record is
discarded; one with a due time still to come, a CANCEL apart, waits in its timetable, or finds it full; a direct type then meets
the allocator, or the wake queue in LISTEN; any other joins its roll, or finds the pool empty. LATE follows the due time alone.
Each record takes its place in the order of arrival. A SHADOW counts its own records and drops them, and with the island off a record
waits with its producer. -/
def Obligations.RecordsEnterTheIsland : Prop :=
  ∀ (b : Block) (r : EventRecord) (t : Nat) (i : Instr),
    (t, i) ∈ [(1, Instr.noteOn r), (2, .noteOff r), (3, .polyPressure r), (4, .noteBend r), (5, .noteCtrl r), (6, .controller r),
      (7, .channelPressure r), (8, .pitchBend r), (9, .modWriteRecord r), (10, .cancel r), (11, .allNotesOff r),
      (12, .allSoundOff r), (16, .work r)] →
    let r1 := setFlag { r with type := BitVec.ofNat 8 t } 2 false
    let due := r.dueTime.toNat
    let past := rDue r && b.isPast due
    let r2 := setFlag r1 2 past
    let future := rDue r && !b.hasCome due && t != 10
    let k := ttOf t
    let came : Arrival := ⟨b.now, b.sched.arrivals⟩
    let n := { b with sched := { b.sched with arrivals := b.sched.arrivals + 1 } }
    (b.on dEVT = false → Ends i b b) ∧
    (b.on dEVT = true → b.isShadow = true → Ends i b (b.countUp fFERRY_OWN_DROP_COUNT 1)) ∧
    (b.on dEVT = true → b.isShadow = false → badRecord r1 = true → Ends i b (traceDiscard r1 2 b)) ∧
    (b.on dEVT = true → b.isShadow = false → b.isPrimary = false → badRecord r1 = false →
      (future = true → (nth [] b.sched.tts k).length < 2048 →
        let tt := insertDue n ⟨r2, due, false, came⟩ (nth [] b.sched.tts k)
        Ends i b (noteFills { n with sched := { n.sched with tts := n.sched.tts.set k tt } })) ∧
      (future = true → 2048 ≤ (nth [] b.sched.tts k).length → Ends i b n) ∧
      (future = false → isDirect t = true → b.effMode ≠ mLISTEN →
        Ends i b (directNow r2 none false b.now (n.raiseIf past evTT_LATE_INSERT))) ∧
      (future = false → isDirect t = true → b.effMode = mLISTEN →
        Ends i b (holdWake r2 b.now (n.raiseIf past evTT_LATE_INSERT))) ∧
      (future = false → isDirect t = false → poolFree b ≠ 0 →
        let h := drawHandle n
        let f := h.2.fresh 200
        let it : Item := ⟨r2, Config.freeNat 199 t % 65536, rRoll r, past, false, f.1 % 4096, h.1, came⟩
        let rolls := f.2.sched.rolls.modify (rRoll r) (fun l => relink (l ++ [it]))
        Ends i b ((noteFills { f.2 with sched := { f.2.sched with rolls := rolls } }).raiseIf past evTT_LATE_INSERT)) ∧
      (future = false → isDirect t = false → poolFree b = 0 → Ends i b n))

/-- Orders of the event island (R175, R181, R202 to R204). A seat taken from a pool is of the least busy lane, then of the lowest
number; an entry of a timetable goes behind every entry that is due no later and before every one due later, the others keeping
their order; what is released next is due no later than the head of any timetable whose head is due within the lead; and no note
takes the ID 0. -/
def Obligations.SeatsAndTimetablesKeepTheirOrder : Prop :=
  ∀ b : Block,
    (∀ (pool : List Nat) (v : Nat), bestSeat b pool = some v →
      v ∈ pool ∧ ∀ w ∈ pool, laneBusy b (laneOf v) < laneBusy b (laneOf w) ∨
        (laneBusy b (laneOf v) = laneBusy b (laneOf w) ∧ v ≤ w)) ∧
    (∀ pool : List Nat, pool ≠ [] → (bestSeat b pool).isSome = true) ∧
    (∀ (e : TTEntry) (tt : List TTEntry), tt.Pairwise (fun x y => dueKey b x.due ≤ dueKey b y.due) →
      ∃ before after, tt = before ++ after ∧ insertDue b e tt = before ++ e :: after ∧
        (∀ x ∈ before, dueKey b x.due ≤ dueKey b e.due) ∧ (∀ x ∈ after, dueKey b e.due < dueKey b x.due)) ∧
    (∀ (i : Nat) (e : TTEntry), nextRelease b = some (i, e) →
      i < 4 ∧ (nth [] b.sched.tts i).head? = some e ∧
      ∀ j < 4, ∀ f, (nth [] b.sched.tts j).head? = some f →
        b.hasCome ((f.due + tideMod - b.rd fSCHED_TT_LEAD_LEAD) % tideMod) = true →
        dueKey b e.due < dueKey b f.due ∨ (dueKey b e.due = dueKey b f.due ∧ i ≤ j)) ∧
    (∀ r : EventRecord, b.rd fSCHED_NOTE_ID_NEXT_NEXT ≠ 0 →
      (giveId r b).1.noteId ≠ 0 ∧ (giveId r b).2.rd fSCHED_NOTE_ID_NEXT_NEXT ≠ 0)

/-- What runs in the event island (R198, R201, R204 to R206, R386, R388, R605). ROLL_DISPATCH gives the head of the lowest roll that
holds an item to the lowest free core; at HANDLER_COMPLETE its effect takes place and its descriptor returns, after the record that
it posts has entered, and a core whose record finds no place stalls with it; a core that hangs is freed with its event. At the bell's tick the counter starts again and what is due is released, unless releases still wait,
which raises BELL_SLIP. Producers that wait offer one record each again in the order
laid down.
That the Tide moves on to a happening's own instant is the model's choice (notes/assumptions/7.md). -/
def Obligations.EventIslandRuns : Prop :=
  ∀ b : Block,
    (∀ (c i : Nat) (it : Item) (rest : List Item), b.on dEVT = true →
      (List.range 8).find? (fun c => (nth none b.sched.cores c).isNone) = some c →
      (List.range 8).find? (fun i => !(nth [] b.sched.rolls i).isEmpty) = some i → nth [] b.sched.rolls i = it :: rest →
      Ends .rollDispatch b (trace 1 c it.handle i { b with sched := { b.sched with
        rolls := b.sched.rolls.set i rest, cores := b.sched.cores.set c (some it) } })) ∧
    (∀ (c : Nat) (it : Item), c < 8 → nth none b.sched.cores c = some it →
      let freed (x : Block) := { x with sched := { x.sched with
        cores := x.sched.cores.set c none, posts := x.sched.posts.set c none } }
      let ended (x : Block) :=
        noteFills (trace 2 c it.handle (freed x).freshWord.1 (handlerEffect it (freed x).freshWord.2))
      (nth none b.sched.posts c = none →
        Ends (.handlerComplete ⟨c, none⟩) b (ended b) ∧
        (∀ r x, offer r b.now b = (true, x) → Ends (.handlerComplete ⟨c, some r⟩) b (ended x)) ∧
        (∀ r x, offer r b.now b = (false, x) →
          Ends (.handlerComplete ⟨c, some r⟩) b { x with sched := { x.sched with posts := x.sched.posts.set c (some r) } })) ∧
      ((nth none b.sched.posts c).isSome = true → ∀ r, Ends (.handlerComplete ⟨c, r⟩) b b) ∧
      Ends (.evtcoreHang c) b (noteFills (trace 11 c it.handle it.handler ((freed b).raise evEVTCORE_HANG)))) ∧
    (b.tideRuns = true →
      let t := (b.tide.bellFrom + b.rd fBELL_CFG_PERIOD_M1 + 1) % tideMod
      let b1 := if b.hasCome t then b else b.advanceTo t
      let b2 := { b1 with tide := { b1.tide with bellFrom := b1.now } }
      (b2.on dEVT = false → Ends .bellTick b b2) ∧
      (b2.on dEVT = true → b2.tide.releasing = true → Ends .bellTick b (b2.raise evBELL_SLIP)) ∧
      (b2.on dEVT = true → b2.tide.releasing = false → Ends .bellTick b (releaseDue 8192 b2))) ∧
    (b.on dEVT = true →
      Ends .producerAdmit b (admitForwarded (forN 2 netFrameRelease (forN 5 admitSerial (forN 16 admitPost
        (forN 8 admitCorePost (resumeRelease b)))))))

/-- Seats and lanes (R18, R21, R22, R25, R28, R120, R187, R197). VOICE_ARM arms a pending seat; a planned hand-off copies when its
time has come. SLOT_START brings a lane, its hand-offs first, to its next slot with a voice to render, no earlier than the slot's
mark; the voice is armed where it still has to be, its render joining the open window where the arming was still in progress, and
rendered. SLOT_COMPLETE frees the lane, pushes the voice's values into the
buses and ends the render at its seat.
That the Tide moves on to a happening's own instant is the model's choice (notes/assumptions/7.md). -/
def Obligations.LanesRender : Prop :=
  ∀ b : Block,
    (∀ v < 1024, (b.voice v).st = 1 → (b.voice v).armed = false →
      let r := armVoice b v (b.voice v)
      Ends (.voiceArm v) b (latArm r.2 (r.1.setVoice v r.2))) ∧
    (∀ (v : Nat) (h : HandOff), v < 1024 → b.sched.handoffs.find? (fun h => h.victim == v && handOffReady b h) = some h →
      Ends (.handOff v) b (doHandOff h b)) ∧
    (∀ l < 16, b.tideRuns = true → b.tide.bound.isSome = true → l < b.laneCount → (b.lane l).busy = none →
      let b1 := laneHandOffs l b
      (nextSlot b1 l = none → Ends (.slotStart l) b b1) ∧
      (∀ s, nextSlot b1 l = some s →
        let v := 16 * s + l
        let b2 := if b1.hasCome (slotMark b1 s) then b1 else b1.advanceTo (slotMark b1 s)
        let b3 := voiceArm v (noteLate s
          (if arming b2 l s then b2.modVoice v (fun x => { x with start := b2.lastBound }) else b2))
        let x := b3.voice v
        let b4 := b3.modLane l (fun k => { k with next := s + 1, busy := some s, saved := none, push := [] })
        let r := renderVoice b4 v { x with st := if x.st = 1 then 2 else x.st }
        (x.st ≠ 0 → startCome b4 x = true →
          Ends (.slotStart l) b (((r.1.setVoice v r.2.1).modLane l
            (fun k => { k with saved := some (v, x, b4.store.slots.filter (fun t => t.voice == v)), push := r.2.2.1 })).raiseIf
              r.2.2.2 evVOICE_CLIP)) ∧
        ((x.st = 0 ∨ startCome b4 x = false) → Ends (.slotStart l) b b4))) ∧
    (∀ l s : Nat, l < 16 → (b.lane l).busy = some s →
      let b1 := (b.fresh 569).2.modLane l (fun k =>
        { k with busy := none, saved := none, push := [], cycles := k.cycles + (b.fresh 569).1, doneAt := some b.now })
      let b2 := pushAll (b.lane l).push b1
      ((b.lane l).saved.isSome = true → Ends (.slotComplete l) b (endRender (16 * s + l) b2)) ∧
      ((b.lane l).saved = none → Ends (.slotComplete l) b b2))

/-- Patches, classes, rules and the scheduler's commands (R171, R210 to R215). PATCH_WRITE changes the staging copy, PATCH_LOAD makes
it the patch, its cost in bytes 0x610 and 0x611, where validation finds no fault and nothing uses the patch, and answers its cost; CLASS_SET stores a class that is
neither enabled nor draining, CLASS_ENABLE sends it to roll call or closes it; RULE_WRITE stores rules, SET_RESERVE the reserve
pool; PATCH_SWAP gives a class its new patch; SET_SCHED and SET_TRACE store theirs; GET_SCHED_STAT answers pool, fills, counters. -/
def Obligations.ClassAndSchedulerCommands : Prop :=
  ∀ (b : Block) (c : Cmd),
    let p := c.payload
    (b.runsNow 0x0100 c = true → leAt p 0 2 ≤ 511 → leAt p 2 2 + (p.length - 4) ≤ 2048 →
      let n := leAt p 0 2
      let image := patchBytes (stagingOf b n) (leAt p 2 2) (p.drop 4)
      Replies (.patchWrite c) 0x0100 c b (ok [])
        { b with store := { b.store with staging := putImage b.store.staging n image } }) ∧
    (b.runsNow 0x0101 c = true → leAt p 0 2 ≤ 511 → patchInUse b (leAt p 0 2) = false →
      let n := leAt p 0 2
      let b1 := { b with store := { b.store with
        patches := putImage b.store.patches n (withCost b (stagingOf b n)), staging := smErase b.store.staging n } }
      validatePatch (stagingOf b n) = none →
      Replies (.patchLoad c) 0x0101 c b (ok (toLE 2 (patchCost b1 (b1.patch n)))) b1) ∧
    (b.runsNow 0x0102 c = true → mClassSet.chk p b = none →
      let a := 0x20 * leAt p 0 1
      Replies (.classSet c) 0x0102 c b (ok [])
        (((b.put (rCLASS_CFG + a) (leAt p 4 4)).setWord64 (rCLASS_BLOCKS + a) (leAt p 8 8)).put (rCLASS_POLY + a) (leAt p 16 4))) ∧
    (b.runsNow 0x0103 c = true → leAt p 0 1 ≤ 63 →
      let a := rCLASS_CFG + 0x20 * leAt p 0 1
      (leAt p 1 1 = 1 →
        Replies (.classEnable c) 0x0103 c b .later (startCheck a (some (cmdTok 0x0103 c b)) b.now [] b)) ∧
      (leAt p 1 1 = 0 → Replies (.classEnable c) 0x0103 c b (ok []) (clearEnable a b))) ∧
    (b.runsNow 0x0104 c = true → mRuleWrite.chk p b = none →
      Replies (.ruleWrite c) 0x0104 c b (ok [])
        (forN (leAt p 1 1) (fun i => commitRule (leAt p 0 1 + i))
          (forN (4 * leAt p 1 1) (fun i x => x.put (rSCHED_RULE_W0 + 0x10 * leAt p 0 1 + 4 * i) (leAt p (4 + 4 * i) 4)) b))) ∧
    (b.runsNow 0x0105 c = true → mSetReserve.chk p b = none →
      Replies (.setReserve c) 0x0105 c b (ok []) (b.setWord64 rSCHED_RESERVE (leAt p 0 8))) ∧
    (b.runsNow 0x0106 c = true → mPatchSwap.chk p b = none →
      let k := leAt p 0 1
      let b1 := b.wr (fCLASS_CFG_PATCH.at k) (leAt p 2 2)
      Replies (.patchSwap c) 0x0106 c b (ok [])
        (finishSwaps { b1 with sched := { b1.sched with swaps := b1.sched.swaps ++ [(k, b.rd (fCLASS_CFG_PATCH.at k))] } })) ∧
    (b.runsNow 0x0E00 c = true → 64 ≤ leAt p 0 2 → leAt p 2 2 ≤ 4095 → 1024 ≤ leAt p 4 4 →
      Replies (.setSched c) 0x0E00 c b (ok [])
        (((b.wr fSCHED_TT_LEAD_LEAD (leAt p 0 2)).wr fSCHED_POOL_HWM (leAt p 2 2)).wr fSCHED_HANG_LIMIT_CYCLES (leAt p 4 4))) ∧
    (b.runsNow 0x0E01 c = true → mSetTrace.chk p b = none →
      Replies (.setTrace c) 0x0E01 c b (ok []) (writeTraceCfg (traceWord p) (writeTraceBase (leAt p 0 4) b))) ∧
    (b.runsNow 0x0E02 c = true →
      Replies (.getSchedStat c) 0x0E02 c b
        (ok (toLE 4 (schedPool b) ++ toLE 4 (ttFill b 0) ++ toLE 4 (ttFill b 2) ++
          words4 b [rSCHED_STEAL_COUNT, rSCHED_DROP_COUNT, rSCHED_CANCEL_COUNT])) b)

/-! ### Tables, library and streams (06) -/

/-- The table builder (R216 to R236). TABLE_DEFINE describes an UNDEFINED table, TABLE_BUILD queues a build; BUILD_START gives the next
build the lowest free banks it needs, or refuses it for want of banks; at BUILD_COMPLETE the image stands in its banks, the
generation is pending, the reply gives its number and the entries saturated, and an error found in an LPDDR5 source is reported, an
uncorrectable one spoiling a word of it. TABLE_COMMIT and TABLE_FREE wait for their boundary's work, TABLE_STATUS answers the
descriptor, and retiring banks return at the last of the boundaries that they wait for, each of which counts one off. -/
def Obligations.TableCommands : Prop :=
  ∀ b : Block,
    (∀ c : Cmd,
      let p := c.payload
      let t := leAt p 0 1
      (b.runsNow 0x0300 c = true → mTableDefine.chk p b = none →
        let wide := leAt p 1 1 == 1
        let b1 := ((b.wr (fTBL_DESC_W0_STATE.at t) 1).wrB (fTBL_DESC_W0_WIDTH.at t) wide).wr (fTBL_DESC_W0_FRAMES.at t) (leAt p 2 2)
        Replies (.tableDefine c) 0x0300 c b (ok []) (refreshCosts
          ((b1.wr (fTBL_DESC_W0_MORPH_LEN.at t) (leAt p 4 2)).wr (fTBL_DESC_W1_NBANKS.at t) (banksNeeded (leAt p 2 2) wide)))) ∧
      (b.runsNow 0x0301 c = true → mTableBuild.chk p b = none →
        let k : Build := ⟨cmdTok 0x0301 c b, b.now, t, leAt p 1 1, leAt p 2 1, leAt p 4 8, []⟩
        Replies (.tableBuild c) 0x0301 c b .later
          (noteBuilder { b with store := { b.store with builds := b.store.builds ++ [k] } })) ∧
      (b.runsNow 0x0302 c = true → mTableCommit.chk p b = none →
        let act : Held := ⟨cmdTok 0x0302 c b, b.now, p, false, 0⟩
        Replies (.tableCommit c) 0x0302 c b .later { b with store := { b.store with acts := b.store.acts ++ [act] } }) ∧
      (b.runsNow 0x0303 c = true → t ≤ 127 → leAt p 1 1 ≤ 1 → (leAt p 1 1 = 0 → classReads b oscModeTable t = false) →
        let act : Held := ⟨cmdTok 0x0303 c b, b.now, p, false, 0⟩
        Replies (.tableFree c) 0x0303 c b .later { b with store := { b.store with acts := b.store.acts ++ [act] } }) ∧
      (b.runsNow 0x0304 c = true → t ≤ 127 →
        Replies (.tableStatus c) 0x0304 c b (ok (words4 b ((List.range 8).map (fun i => rTBL_DESC_W0 + 0x20 * t + 4 * i)))) b)) ∧
    (∀ (k : Build) (rest : List Build), b.store.running = none → b.store.builds = k :: rest → b.on dTBLD = true →
      let need := b.rd (fTBL_DESC_W1_NBANKS.at k.table)
      let b1 := { b with store := { b.store with builds := rest } }
      ((freePool b).length < need →
        Ends .buildStart b ((noteBuilder b1).finish k.tok k.stamp false (refusedWith .regionNotOwned))) ∧
      (need ≤ (freePool b).length →
        let run := some { k with banks := (freePool b).take need }
        Ends .buildStart b (checkBuild (noteBuilder { b1 with store := { b1.store with running := run } })))) ∧
    (∀ k : Build, b.store.running = some k →
      let t := k.table
      let src := (buildSource k b).1
      let x := (buildSource k b).2
      let gen := nextGen (x.rd (fTBL_DESC_W1_GEN.at t))
      let r := buildImage src t gen k.flags x.now
      let b1 := (storeImage k.banks r.1 (dropBuild x)).countUp fTBLD_SAT_COUNT_COUNT r.2
      let pend := some ⟨k.banks, if bit k.flags 0 then some (firstCommit b1) else none⟩
      let b2 := b1.setTableX t { tableX b1 t with pend := pend }
      Ends .buildComplete b
        ((copyBuilt t k.banks r.1.length (bit k.flags 0) (showLists t (b2.wr (fTBL_DESC_W0_PENDING.at t) 1))).finish k.tok k.stamp false
          (ok (toLE 2 gen ++ toLE 2 0 ++ toLE 4 r.2))) ∧
      src.frames = b.rd (fTBL_DESC_W0_FRAMES.at t) ∧ src.wide = b.flag (fTBL_DESC_W0_WIDTH.at t) ∧
      src.normalise = bit k.flags 1 ∧ src.dcRemove = bit k.flags 2 ∧ src.data = sourceData b k src.frames src.wide ∧
      (k.space = 0 →
        (src.bad = [] ∧ x.ev = b.ev) ∨ (src.bad = [] ∧ x.ev.pend.getLsbD evLPDDR_ECC_CORR = true) ∨
        (src.bad.length = 1 ∧ x.ev.pend.getLsbD evLPDDR_ECC_UNCORR = true))) ∧
    (∀ (t n : Nat) (banks : List Nat), t < 128 → (tableX b t).retire = some (banks, n) →
      Ends (.retiringBanksReturn t) b (forN n (fun _ => sampleBoundary) b) ∧
      (1 < n → returnBanks t b = (let y := b.setTableX t { tableX b t with retire := some (banks, n - 1) }
        match (tableX y t).freed with
        | some (l, k) =>
          if k ≤ 1 then (forL l (giveBank rqTBLD) y).setTableX t { tableX y t with freed := none }
          else y.setTableX t { tableX y t with freed := some (l, k - 1) }
        | none => y)) ∧
      (n ≤ 1 → (tableX b t).freed = none →
        let y := (forL banks (giveBank rqTBLD) b).setTableX t { tableX b t with retire := none }
        returnBanks t b = showLists t (y.wr (fTBL_DESC_W0_MORPHING.at t) 0)))

/-- Library, maps and streams (R237 to R252, R263, R264). LIBRARY_SET names the library, LIBRARY_LOAD starts a copy from flash, whose end
stores the bytes that came and answers their number and CRC-32C; STREAM_CONFIG stores what streams use, STREAM_ENABLE sends ENABLE
to roll call or stops at the next boundary; a map is begun, its zones are stored, and sealing copies its heads into slate when that
is done. A fetch asks a chunk of the eligible slot with the smallest deadline, and the chunk asked first is appended to its ring.
Where heads are placed, and that loads and seals run one at a time, is the model's choice (notes/assumptions/11.md, 50.md). -/
def Obligations.LibraryMapsAndStreams : Prop :=
  ∀ b : Block,
    (∀ c : Cmd,
      let p := c.payload
      let m := leAt p 0 2
      (b.runsNow 0x0400 c = true → mLibrarySet.chk p b = none →
        Replies (.librarySet c) 0x0400 c b (ok [])
          ((((hashStale b).wr fSTRM_LIB_BASE_BASE m).wr fSTRM_LIB_BASE_SIZE (leAt p 2 2)).wr fSTRM_LIB_STAT_VALID 1)) ∧
      (b.runsNow 0x0401 c = true → mLibraryLoad.chk p b = none →
        let b1 := hashStale b
        let job := (cmdTok 0x0401 c b, b.now, leAt p 0 4, leAt p 4 4, leAt p 8 4)
        Replies (.libraryLoad c) 0x0401 c b .later
          ({ b1 with store := { b1.store with loading := b1.store.loading ++ [job] } }.wr fSTRM_LIB_STAT_LOAD_BUSY 1)) ∧
      (b.runsNow 0x0402 c = true → mStreamConfig.chk p b = none →
        let b1 := ((b.wr fSTRM_RING_BANK_BANK (leAt p 0 1)).wr fSTRM_CFG_RING (leAt p 1 1)).wr fSTRM_CFG_LEAD (leAt p 2 2)
        Replies (.streamConfig c) 0x0402 c b (ok []) ((b1.wr fSTRM_CFG_SLOTS (leAt p 4 2)).setWord64 rSTRM_HEAD (leAt p 8 8))) ∧
      (b.runsNow 0x0403 c = true → leAt p 1 1 ≤ 1 →
        let b1 := b.wr fSTRM_CTRL_END_EVT (leAt p 1 1)
        (leAt p 0 1 = 0 → trained b = true →
          Replies (.streamEnable c) 0x0403 c b (ok []) (streamsOff (clearEnable rSTRM_CTRL b1))) ∧
        (leAt p 0 1 = 1 → (b.flag fSTRM_CTRL_ENABLE = false ∨ trained b = true) →
          Replies (.streamEnable c) 0x0403 c b .later
            (startCheck rSTRM_CTRL (some (cmdTok 0x0403 c b)) b.now [(rSTRM_CTRL, b.word rSTRM_CTRL)] b1))) ∧
      (b.runsNow 0x0410 c = true → mSampleMapBegin.chk p b = none →
        Replies (.sampleMapBegin c) 0x0410 c b (ok [])
          ((freeMap m b).setMap m ⟨1, List.replicate (leAt p 2 2) none, []⟩)) ∧
      (b.runsNow 0x0411 c = true → mSampleMapZones.chk p b = none →
        let zs := ((zonesOf p).zipIdx).foldl (fun l e => l.set (leAt p 2 2 + e.2) (some e.1)) (sampleMap b m).zones
        let mp := { sampleMap b m with zones := zs, state := if zs.all (·.isSome) then 2 else 1 }
        Replies (.sampleMapZones c) 0x0411 c b (ok []) (refreshCosts (b.setMap m mp))) ∧
      (b.runsNow 0x0412 c = true → mSampleMapSeal.chk p b = none →
        let job := (cmdTok 0x0412 c b, b.now, m)
        Replies (.sampleMapSeal c) 0x0412 c b .later { b with store := { b.store with sealing := b.store.sealing ++ [job] } }) ∧
      (b.runsNow 0x0413 c = true → trained b = true → m ≤ 255 → classReads b oscModeSample m = false →
        Replies (.sampleMapFree c) 0x0413 c b (ok []) (freeMap m b))) ∧
    (∀ (tok : Tok) (stamp flash off len : Nat) (rest : List (Tok × Nat × Nat × Nat × Nat)),
      b.store.loading = (tok, stamp, flash, off, len) :: rest →
      let b0 := { b with store := { b.store with loading := rest } }
      let copied (n : Nat) : Block :=
        (b0.setLpddr (libBase b + off) (b.flashBytes flash n)).wrB fSTRM_LIB_STAT_LOAD_BUSY (!rest.isEmpty)
      let answer (n : Nat) : List Byte := toLE 4 n ++ toLE 4 (crc32c (b.flashBytes flash n))
      Ends (.libraryLoadDone none) b (((copied len).wr fSTRM_LIB_STAT_VALID 1).finish tok stamp false (ok (answer len))) ∧
      (∀ e, Ends (.libraryLoadDone (some e)) b
        (((copied (min e len)).raise evFLASH_ERR).finish tok stamp false (failedWith .aborted (answer (min e len)))))) ∧
    (∀ (tok : Tok) (stamp m : Nat) (rest : List (Tok × Nat × Nat)), b.store.sealing = (tok, stamp, m) :: rest →
      let b1 := { b with store := { b.store with sealing := rest } }
      placeMap b1 m = none → Ends .sealCopyDone b (b1.finish tok stamp false (failedWith .headNotResident []))) ∧
    (∀ (tok : Tok) (stamp m : Nat) (rest : List (Tok × Nat × Nat)) (heads : List Nat), b.store.sealing = (tok, stamp, m) :: rest →
      placeMap { b with store := { b.store with sealing := rest } } m = some heads →
      ∃ b', Ends .sealCopyDone b b' ∧ b'.store.sealing = rest ∧
        sampleMap b' m = { sampleMap b m with state := 3, heads := heads }) ∧
    (b.flag fSTRM_CTRL_ENABLE = true → trained b = true → b.store.requests.length < 32 →
      (b.store.slots.filter (eligible b) = [] → Ends .streamFetchIssue b b) ∧
      (b.store.slots.filter (eligible b) ≠ [] → ∃ s ∈ b.store.slots, eligible b s = true ∧
        (∀ t ∈ b.store.slots, eligible b t = true → s.deadline < t.deadline ∨ (s.deadline = t.deadline ∧ s.id ≤ t.id)) ∧
        (let slots := b.store.slots.map (fun t => if t.id = s.id then { t with asked := t.asked + 1 } else t)
         Ends .streamFetchIssue b { b with store := { b.store with requests := b.store.requests ++ [s.id], slots := slots } }))) ∧
    (∀ (id : Nat) (rest : List Nat) (s : Slot), b.store.requests = id :: rest → b.store.slots.find? (fun s => s.id == id) = some s →
      let b1 := { b with store := { b.store with requests := rest } }
      let n := match slotTotal b s with | some t => min 256 (t - s.held) | none => 256
      let data := (List.range n).map (fun i => sequenceByte b s (s.held + i))
      let put (x : Block) : Block :=
        let y := slateStore rqSTRM (ringBase b id + s.held % ringLen b) data x
        let slots := y.store.slots.map (fun t => if t.id = id then { t with held := t.held + n, asked := t.asked - 1 } else t)
        { y with store := { y.store with slots := slots } }
      Ends (.streamChunkArrive .clean) b (put b1) ∧
      Ends (.streamChunkArrive .single) b (put (b1.raise evLPDDR_ECC_CORR)))

/-! ### The mix bus (07) -/

/-- The mix bus as commands and reads see it (R271, R275, R281, R285, R286, R290). MIX_SET_OUT, MIX_SET_LIVE and MIX_SET_RETURN store pairs
of words, a gain's glide aimed at its new value; MIX_SET_CTRL stores its three words, MIX_GET_STAT answers the status; a read of
MIX_CKSUM latches the stamp beside it, which the stamp registers then read; and a read of a counter that clears on reading returns
it and clears it, what hardware sets in the same cycle staying set (R11). Each closed value is its accumulator rounded and
saturated. -/
def Obligations.MixBus : Prop :=
  ∀ b : Block,
    (∀ c : Cmd,
      let p := c.payload
      let pairs (r0 r1 : Nat) : Block := forN (leAt p 1 1) (fun i x =>
        writeMix (r1 + 4 * (leAt p 0 1 + i)) (leAt p (8 + 8 * i) 4) (writeMix (r0 + 4 * (leAt p 0 1 + i)) (leAt p (4 + 8 * i) 4) x)) b
      (b.runsNow 0x0B80 c = true → mMixSetOut.chk p b = none →
        Replies (.mixSetOut c) 0x0B80 c b (ok []) (pairs rMIX_OUT_MAP rMIX_OUT_GAIN)) ∧
      (b.runsNow 0x0B81 c = true → mMixSetLive.chk p b = none →
        Replies (.mixSetLive c) 0x0B81 c b (ok []) (pairs rMIX_LIVE_SRC rMIX_LIVE_GAIN)) ∧
      (b.runsNow 0x0B82 c = true → mMixSetReturn.chk p b = none →
        Replies (.mixSetReturn c) 0x0B82 c b (ok []) (pairs rMIX_RET_ROUTE rMIX_RET_GAIN)) ∧
      (b.runsNow 0x0B83 c = true → regWordOk rMIX_CTRL (leAt p 0 4) = true → regWordOk rMIX_FOLLOW_CFG (leAt p 4 4) = true →
        regWordOk rMIX_CKSUM_MASK (leAt p 8 4) = true →
        Replies (.mixSetCtrl c) 0x0B83 c b (ok [])
          (((writeMix rMIX_CTRL (leAt p 0 4) b).put rMIX_FOLLOW_CFG (leAt p 4 4)).put rMIX_CKSUM_MASK (leAt p 8 4))) ∧
      (b.runsNow 0x0B84 c = true →
        Replies (.mixGetStat c) 0x0B84 c b
          (ok (words4 b [rMIX_SAT, rMIX_CLIP_COUNT, rMIX_CKSUM] ++
            toLE 6 (b.rd fMIX_CKSUM_STAMP_LO_STAMP_LO + 2 ^ 32 * b.rd fMIX_CKSUM_STAMP_HI_STAMP_HI) ++ toLE 2 0 ++
            words4 b ((List.range 16).map (fun k => rMIX_FOLLOW + 4 * k)))) b)) ∧
    (let stamp := b.rd fMIX_CKSUM_STAMP_LO_STAMP_LO + 2 ^ 32 * b.rd fMIX_CKSUM_STAMP_HI_STAMP_HI
     readStamp { b with mix := { b.mix with stamp := none } } = stamp ∧
     (∀ k, readStamp { b with mix := { b.mix with stamp := some k } } = k) ∧
     Ends .mixCksumRead b
       { b with mix := { b.mix with stamp := some stamp }, host := { b.host with out := toLE 4 (b.word rMIX_CKSUM) } }) ∧
    (∀ addr sets : Word, b.host.ready = true → b.clk.backupOsc = false →
      let a := addr.toNat / 4 * 4
      let r := hostRead 0 noHit a b
      let x := { r.2 with host := { r.2.host with out := toLE 4 r.1 } }
      (regAt a = none → Ends (.rcCounterRead ⟨addr, sets⟩) b x) ∧
      (∀ d i, regAt a = some (d, i) →
        Ends (.rcCounterRead ⟨addr, sets⟩) b
          (forL (d.fields.filter (fun f => f.acc == .rc)) (fun f y =>
            y.setWord a (Nat.lor (y.word a) (bitsOf sets.toNat f.hi f.lo * 2 ^ f.lo))) x))) ∧
    (∀ (a : Nat) (r : RegDef) (i : Nat), regAt a = some (r, i) →
      readClear a b = (b.word a, b.setWord a (r.afterRead i (b.word a)))) ∧
    (∀ k < 16, let b' := (closeBuses b).1
      nth 0 b'.mix.closed (2 * k) = clamp (-(2 ^ 31)) (2 ^ 31 - 1) ((nth 0 b.mix.accL k + 2 ^ 29) / 2 ^ 30) ∧
      nth 0 b'.mix.closed (2 * k + 1) = clamp (-(2 ^ 31)) (2 ^ 31 - 1) ((nth 0 b.mix.accR k + 2 ^ 29) / 2 ^ 30) ∧
      nth 0 b'.mix.accL k = 0 ∧ nth 0 b'.mix.accR k = 0)

/-! ### Slate (09) -/

/-- Accesses to slate (R341 to R353, R358), once the fuses are loaded; bits of the storage word may flip before an access. A requester
that may not use the bank gets 0, stores nothing and faults; the Proctor's read of such a bank is performed all the same, by port B.
Otherwise a read returns the word and checks it, a write stores it, an atomic operation returns the old word and stores the
new one; a borrowed bank stalls the access and counts it; a port-B write that meets a read makes what it returns undefined, a free
value, and one of another value into the word stored to is a collision that is recorded, port A's value standing. A corrected word is
written back in a free cycle of port B; a busy response abandons that.

A word found with one bit flipped reads as it was and waits for its write-back, and its error is recorded (R348). -/
def Obligations.SlateAccesses : Prop :=
  ∀ (b : Block) (req off : Nat) (upset : BitVec 72), b.flag fSLATE_STAT_FUSE_DONE = true → 0 < req → req < 10 → off < 2 ^ 25 →
    let may := slateMay b req (bankOf off)
    let x := hurtWord off upset b
    let x1 := if borrowed x (bankOf off) then borrowStall x else x
    let shows (y : Block) (v : Nat) : Block := { y with slate := { y.slate with readOut := v } }
    let word (y : Block) := ofLE (y.slateBytes (off / 4 * 4) 4)
    (∀ p q, may = false →
      (req ≠ rqPROCTOR → Ends (.slateAccess req off .read32 ⟨p, q⟩ upset) b (shows (ownerFault req off x) 0) ∧
        Ends (.slateAccess req off .read64 ⟨p, q⟩ upset) b (shows (ownerFault req off x) 0)) ∧
      (req = rqPROCTOR → p = .none → Ends (.slateAccess req off .read32 ⟨p, q⟩ upset) b (shows (checkRead off x) (word x)) ∧
        Ends (.slateAccess req off .read64 ⟨p, q⟩ upset) b (shows (checkRead off x) (slateWord x off))) ∧
      (∀ d, Ends (.slateAccess req off (.write32 d) ⟨p, q⟩ upset) b (ownerFault req off x)) ∧
      (∀ d, Ends (.slateAccess req off (.write64 d) ⟨p, q⟩ upset) b (ownerFault req off x))) ∧
    (∀ p q, may = true →
      ((p = .none ∨ p = .read) → Ends (.slateAccess req off .read32 ⟨p, q⟩ upset) b (shows (checkRead off x1) (word x1)) ∧
        Ends (.slateAccess req off .read64 ⟨p, q⟩ upset) b (shows (checkRead off x1) (slateWord x1 off))) ∧
      (∀ d, p = .write d →
        let y := (collision 1 off x1).freshWord
        Ends (.slateAccess req off .read32 ⟨p, q⟩ upset) b (shows y.2.freshWord.2 y.1))) ∧
    (∀ d : Word, may = true →
      Ends (.slateAccess req off (.write32 d) noMeet upset) b
        (portAStore (off / 4 * 4) (toLE 4 d.toNat) (checkMerge off x1))) ∧
    (∀ (d : BitVec 64) (p q : OtherPort), may = true →
      ((p = .none ∨ p = .write d) →
        Ends (.slateAccess req off (.write64 d) ⟨p, q⟩ upset) b (portAStore (off / 8 * 8) (toLE 8 d.toNat) x1)) ∧
      (∀ e, p = .write e → e ≠ d →
        Ends (.slateAccess req off (.write64 d) ⟨p, q⟩ upset) b (portAStore (off / 8 * 8) (toLE 8 d.toNat) (collision 0 off x1)))) ∧
    (∀ v : Word, (req = rqPROCTOR ∨ req = rqEVT) →
      let b1 := if borrowed b (bankOf off) then borrowStall b else b
      let store (new : Nat) : Block := portAStore (off / 4 * 4) (toLE 4 new) (shows (checkMerge off b1) (word b1))
      (may = true → Ends (.atomicAdd req off v noMeet) b (store ((word b1 + v.toNat) % 2 ^ 32)) ∧
        Ends (.atomicSwap req off v noMeet) b (store v.toNat)) ∧
      (may = false → ∀ p q, Ends (.atomicAdd req off v ⟨p, q⟩) b (shows (ownerFault req off b) 0) ∧
        Ends (.atomicSwap req off v ⟨p, q⟩) b (shows (ownerFault req off b) 0))) ∧
    (∀ (o w : Nat) (rest : List (Nat × Nat)), b.slate.writeBacks = (o, w) :: rest → borrowed b (bankOf o) = false →
      let x := { b with slate := { b.slate with writeBacks := rest } }
      Ends (.eccWriteBack .none) b (x.setSlate o (toLE 8 w)) ∧
      (∀ d : BitVec 64, d.toNat ≠ w →
        Ends (.eccWriteBack (.write d)) b (portAStore o (toLE 8 d.toNat) (collision 0 o x)))) ∧
    (∀ i < 72, b.damage (off / 8) = 0 →
      let y := hurtWord off (1#72 <<< i) b
      eccOf y (off / 8) = .single ∧ wordRead y (off / 8) = wordRead b (off / 8) ∧
      (checkRead off y).flag fSLATE_ECC_ADDR_VALID = true ∧ (checkRead off y).ev.pend.getLsbD evSLATE_ECC_CORR = true)

/-- Owners and the mechanisms of slate (R346, R352 to R356, R365, R366). A bank takes its new owner where that is to come at once and
no test borrows it; SLATE_HANDOVER gives the banks their new owner to await, and replies when the last has taken it; SLATE_PIN and
SLATE_SET_COMMONS store theirs, SLATE_STATUS answers its registers and a free word; SLATE_ESCORT joins the queue of copies, the
first of which moves eight bytes in each free cycle of port B and replies at its end; a port-A write that meets its read makes it try
again (R351). -/
def Obligations.SlateOwnership : Prop :=
  ∀ b : Block,
    (∀ k < 64, ownerPends b k = true → b.flag (fSLATE_OWNER_AT_BOUNDARY.at k) = false → borrowed b k = false →
      Ends (.ownerChange k) b (checkBuild (checkEscort (applyOwner k b)))) ∧
    (∀ c : Cmd,
      let p := c.payload
      (b.runsNow 0x0600 c = true → mSlateHandover.chk p b = none →
        let b1 := forL (banksIn (leAt p 0 8)) (fun k x =>
          (x.wr (fSLATE_OWNER_PENDING.at k) (leAt p 8 1)).wr (fSLATE_OWNER_AT_BOUNDARY.at k) (leAt p 9 1)) b
        let wait := (banksIn (leAt p 0 8)).filter (fun k => b1.owner k != leAt p 8 1)
        (wait = [] → Replies (.slateHandover c) 0x0600 c b (ok []) (b1.raise evSLATE_HANDOVER_DONE)) ∧
        (wait ≠ [] →
          let hs := b1.slate.handovers ++ [(cmdTok 0x0600 c b, b.now, wait)]
          Replies (.slateHandover c) 0x0600 c b .later { b1 with slate := { b1.slate with handovers := hs } })) ∧
      (b.runsNow 0x0601 c = true → mSlatePin.chk p b = none →
        let old := b.word64 rSLATE_PINNED
        let new := if leAt p 8 1 = 1 then Nat.lor old (leAt p 0 8) else old - Nat.land old (leAt p 0 8)
        Replies (.slatePin c) 0x0601 c b (ok []) (b.setWord64 rSLATE_PINNED new)) ∧
      (b.runsNow 0x0602 c = true → mSlateEscort.chk p b = none →
        let e : Escort := ⟨cmdTok 0x0602 c b, b.now, leAt p 0 1, leAt p 1 1, leAt p 4 8, leAt p 12 4, leAt p 16 4, 0⟩
        Replies (.slateEscort c) 0x0602 c b .later { b with slate := { b.slate with escorts := b.slate.escorts ++ [e] } }) ∧
      (b.runsNow 0x0603 c = true → Nat.land (leAt p 0 2) (0xFFFF - 0x03C6) = 0 →
        Replies (.slateSetCommons c) 0x0603 c b (ok []) (b.wr fSLATE_COMMONS_MEMBERS (leAt p 0 2))) ∧
      (b.runsNow 0x0604 c = true →
        let b1 := b.freshWord.2
        Replies (.slateStatus c) 0x0604 c b
          (ok ([rSLATE_STAT, rSLATE_COLL_ADDR, rSLATE_FAULT_ADDR, rSLATE_ECC_ADDR, rSLATE_COLL_COUNT, rSLATE_ECC_CORR_COUNT,
            rSLATE_ECC_UNCORR_COUNT, rSLATE_BORROW_STALLS].flatMap (fun a => toLE 4 (b1.word a)) ++ toLE 4 b.freshWord.1)) b1)) ∧
    (∀ (e : Escort) (rest : List Escort), b.slate.escorts = e :: rest → b.flag fSLATE_STAT_FUSE_DONE = true →
      (banksOfRange e.dst e.len).any (fun k => b.owner k != e.req) = false → borrowed b (bankOf (e.dst + e.moved)) = false →
      (e.space = 0 → borrowed b (bankOf (e.src + e.moved)) = false) →
      let bs := if e.space = 0 then b.slateBytes (e.src + e.moved) 8 else b.lpddrBytes (e.src + e.moved) 8
      let read := if e.space = 0 then checkRead (e.src + e.moved) b else b
      let b1 := read.setSlate (e.dst + e.moved) bs
      (e.moved + 8 < e.len → Ends (.escortTransfer noMeet) b
        { b1 with slate := { b1.slate with escorts := { e with moved := e.moved + 8 } :: rest } }) ∧
      (e.len ≤ e.moved + 8 → Ends (.escortTransfer noMeet) b
        ({ b1 with slate := { b1.slate with escorts := rest } }.finish e.tok e.stamp false (ok (toLE 4 e.len)))) ∧
      (∀ (p : OtherPort) (w : BitVec 64), e.space = 0 →
        Ends (.escortTransfer ⟨.write w, p⟩) b
          (portAStore ((e.src + e.moved) / 8 * 8) (toLE 8 w.toNat) (collision 1 (e.src + e.moved) b))))

/-! ### The bus DSP (08) -/

/-- A core issues one instruction (R303, R306, R318, R319, R331, R335). Where the word at its program address is legal, is of the row's
kind and no far access holds the core, the writes due have landed, the instruction has its effect, and the core goes on to its next
address. An illegal word, and an address at or past the program's length, stops the core before it executes; a far access not yet
answered holds it; a core that waits, or does not run, issues nothing.
The delays the rules leave to reading are the model's (notes/assumptions/18.md). -/
def Obligations.GralonIssuesOneInstruction : Prop :=
  ∀ (b : Block) (c : Nat) (k : GKind) (i : Instr),
    (k, i) ∈ [(GKind.parallel, Instr.parallelWord c), (.jump, .jump c), (.call, .call c), (.ret, .ret c), (.loop, .loop c),
      (.endloop, .endloop c), (.ldi, .ldi c), (.movr, .movr c), (.far, .far c), (.wait, .wait c), (.swi, .swi c), (.rti, .rti c),
      (.sha, .sha c)] →
    c < 4 →
    let seen := landed c b
    (issuing b c = false → Ends i b b) ∧
    (issuing b c = true → fetchWord seen c = none → Ends i b (illegalStop c seen)) ∧
    (∀ w, issuing b c = true → fetchWord seen c = some w →
      (farStall (seen.core c) w = true → Ends i b (b.modCore c (fun g => { g with stalled := true }))) ∧
      (farStall (seen.core c) w = false → wordLegal (seen.core c) w = false → Ends i b (illegalStop c seen)) ∧
      (farStall (seen.core c) w = false → wordLegal (seen.core c) w = true → kindOf w = some k →
        Ends i b ((doKind k c w seen).modCore c advanceCore)))

/-- What Gralon's instructions compute (R303 to R305, R307, R314, R317, R325, R327). A circular update by less than the buffer's
length keeps a pointer inside its buffer; bit reversal undone is the pointer again. A MAC's sum is its exact value modulo 2^80,
seen by the MACs one cycle later and by the rest of the core two, and a sum that wraps sets AOV. A branch taken is followed by two
delay slots. RTI opens interrupts again and goes back to the address in Y. -/
def Obligations.GralonArithmeticAndFlow : Prop :=
  (∀ p m base len : Int, 0 ≤ base → base + len ≤ 2 ^ 24 → base ≤ p → p < base + len → m.natAbs < len →
    base ≤ circular p m base len ∧ (circular p m base len : Int) < base + len) ∧
  (∀ w x : Nat, x < 2 ^ w → revBits w (revBits w x) = x ∧ revBits w x < 2 ^ w) ∧
  (∀ (b : Block) (c n s1 s2 : Nat), c < b.bdsp.length →
    let g := b.core c
    let product := sext 32 (nth 0 g.d s1) * sext 32 (nth 0 g.d s2)
    let exact := nth 0 g.mac n + product
    let v := sext 80 (unsx 80 exact)
    let b' := macOp c 1 n s1 s2 b
    (b'.core c).flight = ((g.later 1 5 (.mac n) v).later 2 5 (.acc n) v).flight ∧
    (b'.core c).d = g.d ∧ (b'.core c).mac = g.mac ∧ (b'.core c).acc = g.acc ∧
    (v ≠ exact → bit (b'.core c).sr 0 = true) ∧ (v = exact → (b'.core c).sr = g.sr)) ∧
  (∀ (g : Gralon) (t : Nat),
    let r := g.jumpTo t
    r.npc = g.npc ∧ r.branch = some (t, 3) ∧
    (g.active 0 = false → g.active 1 = false → g.active 2 = false →
      let slot1 := advanceCore r
      let slot2 := advanceCore slot1
      let target := advanceCore slot2
      slot1.npc = g.npc + 1 ∧ slot1.branch.isSome ∧ slot2.npc = g.npc + 2 ∧ slot2.branch.isSome ∧
      target.npc = t ∧ target.branch = none)) ∧
  (∀ (b : Block) (c : Nat), c < b.bdsp.length →
    let g' := (doRti c b).core c
    bit g'.imask 15 = true ∧ g'.branch = some (smGet (fun _ => 0) (b.core c).y 0x3FFF % 2 ^ 14, 3))

/-- LOOP (R318): at address a it activates its level at once with LSA := a + 1, LEA := END and LC := COUNT, or D[REG] clamped to
0 to 65,535 where SRC is 1; a count of 0 activates nothing, and END + 1 follows after two empty cycles. -/
def Obligations.LoopActivatesItsLevel : Prop :=
  ∀ (b : Block) (c w : Nat), c < 4 →
    let seen := landed c b
    let g := seen.core c
    let k := bitsOf w 55 54
    let last := bitsOf w 13 0
    let count := if bit w 53 then (clamp 0 65535 (sext 32 (nth 0 g.d (bitsOf w 52 49)))).toNat else bitsOf w 47 32
    let idle : Gralon := { g with branch := some (last + 1, 1), cyc := g.cyc + 2 }
    issuing b c = true → fetchWord seen c = some w → farStall g w = false → wordLegal g w = true → kindOf w = some .loop →
    (count ≠ 0 →
      Ends (.loop c) b (seen.modCore c (fun g => advanceCore { g with
        lsa := g.lsa.set k ((g.npc + 1) % 2 ^ 14), lea := g.lea.set k last, lc := g.lc.set k count
        sr := setBit g.sr (4 + k) true }))) ∧
    (count = 0 →
      Ends (.loop c) b (seen.modCore c (fun _ => advanceCore idle)) ∧
      (advanceCore idle).npc = last + 1 ∧ (advanceCore idle).branch = none ∧ (advanceCore idle).cyc = g.cyc + 3 ∧
      ∀ j < 3, (advanceCore idle).active j = true → g.active j = true)

/-- Passes, far loads, taps and interrupts of the cores (R294 to R297, R299, R300, R322 to R324, R331, R333, R337). PASS_START begins the
next pass of a core that waited in time, with the closed buses, its parameters and taps; a pass still under way before the next
boundary is noted as late; the oldest far load's data joins the writes in flight, and its place and those of the stores before it are
free, unless a bank among theirs is borrowed yet; a tap's sample is there for the next pass; BDSP_IRQ sets the host's request, at
once or when the BDSP clock runs; an interrupt taken saves the address in Y, clears its request and GIE, and goes to its vector.
That the Tide moves on to a happening's own instant is the model's choice (notes/assumptions/7.md). -/
def Obligations.GralonPassesAndInterrupts : Prop :=
  ∀ (b : Block) (c : Nat), c < 4 →
    (coreRuns b c = true → b.on dBDSP = true → (b.core c).waiting = true → (b.core c).startOk = true →
      let t := (b.lastBound + 1) % tideMod
      let b1 := if b.tideRuns && !b.hasCome t then b.advanceTo t else b
      let b2 := latchTaps c (settleCore c b1)
      let k := boundaryNo b2 b2.lastBound / blockSize b2 c
      let param := (List.range 64).map (fun n => b2.word (rBDSP_PARAM + 0x1000 * c + 4 * n))
      Ends (.passStart c) b (b2.modCore c (fun g => { g with
        inp := b2.mix.closed.map (unsx 32), half := k % 2, blk := k, stamp := b2.lastBound, param := param,
        tapReady := List.replicate 16 false, cyc := 0, waiting := false, startOk := false, noted := false }))) ∧
    (inPass b c = true → b.on dBDSP = true →
      let b1 := b.modCore c (fun g => { g with missNow := true })
      (deadlineOf b1 c ≤ boundaryNo b1 b1.lastBound + 1 → Ends (.bdspPassOverrun c) b (noteOverrun c b1)) ∧
      (boundaryNo b1 b1.lastBound + 1 < deadlineOf b1 c → Ends (.bdspPassOverrun c) b b1)) ∧
    (∀ stores f rest r, (b.core c).far = stores ++ f :: rest → stores.all (fun x => x.reg.isNone) = true → f.reg = some r →
      (b.core c).stalled = false →
      let due := max f.due (b.core c).cyc
      let b1 := b.modCore c (fun g => { g with far := rest, flight := insertWrite ⟨due, 4, .sel r, f.data⟩ g.flight })
      ((stores ++ [f]).all (fun x => !(x.borrowed && borrowed b x.bank)) = true →
        Ends (.farLoadComplete c) b (if (b.core c).waiting then landUpTo c due b1 else b1)) ∧
      ((stores ++ [f]).any (fun x => x.borrowed && borrowed b x.bank) = true → Ends (.farLoadComplete c) b b)) ∧
    (∀ n t : Nat, n < 8 → t < 2 → coreRuns b c = true → trained b = true → bit (b.rd (fBDSP_CTRL_LINE_EN.at c)) n = true →
      blockSize b c = 1 →
      Ends (.lineTapArrive c n t) b (b.modCore c (fun g => { g with tapReady := g.tapReady.set (2 * n + t) true }))) ∧
    (∀ v : Word, v.toNat % 2 = 1 → b.hostMay (rBDSP_IRQ + 0x1000 * c) = true → b.isPrimary = false →
      let a := rBDSP_IRQ + 0x1000 * c
      (b.on dBDSP = true → Ends (.bdspIrq c v) b
        (logJournal a v.toNat (restartCheck a (b.modCore c (fun g => { g with ipend := setBit g.ipend 0 true }))))) ∧
      (b.on dBDSP = false → Ends (.bdspIrq c v) b
        (logJournal a v.toNat (restartCheck a (b.modCore c (fun g => { g with irqOwed := true })))))) ∧
    (∀ s, coreRuns b c = true → b.on dBDSP = true →
      let b1 := landUpTo c ((b.core c).cyc + if (b.core c).waiting then 2 else 0) b
      let g := b1.core c
      (List.range 4).find? (fun s => bit g.ipend s && bit g.imask s) = some s → bit g.imask 15 = true →
      (g.waiting = true ∨ shielded g = false) →
      let back := if g.waiting then g.pc else g.npc
      Ends (.interruptTake c) b (b1.modCore c (fun g => { g with
        y := smSet (fun _ => 0) g.y 0x3FFF back, ipend := setBit g.ipend s false, imask := setBit g.imask 15 false,
        npc := 0x10 + 4 * s, cyc := g.cyc + 2, depth := g.depth + 1,
        waitRet := if g.waiting then some g.pc else g.waitRet, waiting := false })))

/-- The host's commands to the cores (R338 to R340). BDSP_LOAD_BEGIN clears a core that does not run and stores its limits,
BDSP_LOAD_PROG stores words of its program, BDSP_LOAD_END makes the program loaded where its CRC-32C is right; BDSP_WRITE_DATA and
BDSP_READ_DATA reach X and Y; BDSP_RUN sets the block size and traps and sends RUN to roll call or lets the core halt; BDSP_SET_PARAM
stores parameters, BDSP_SET_LINE a line, BDSP_STATUS answers the core's status. -/
def Obligations.BdspCommands : Prop :=
  ∀ (b : Block) (c : Cmd),
    let p := c.payload
    let k := leAt p 0 1
    let o := 0x1000 * k
    (b.runsNow 0x0500 c = true → mBdspLoadBegin.chk p b = none →
      let b1 := b.modCore k (fun _ => Gralon.reset)
      let b2 := (b1.wr (fBDSP_ENTRY_LENGTH.at k) (leAt p 2 2)).wr (fBDSP_ENTRY_ENTRY.at k) (leAt p 4 2)
      Replies (.bdspLoadBegin c) 0x0500 c b (ok [])
        ((b2.wr (fBDSP_COST_COST.at k) (leAt p 8 4)).setWord64 (rBDSP_BANKS + o) (leAt p 12 8))) ∧
    (b.runsNow 0x0501 c = true → k ≤ 3 → leAt p 2 2 + (p.length - 4) / 8 ≤ b.rd (fBDSP_ENTRY_LENGTH.at k) →
      let words := (List.range ((p.length - 4) / 8)).map (fun i => leAt p (4 + 8 * i) 8)
      Replies (.bdspLoadProg c) 0x0501 c b (ok [])
        (b.modCore k (fun g => { g with prog := smWriteAll (fun _ => 0) g.prog (leAt p 2 2) words }))) ∧
    (b.runsNow 0x0502 c = true → k ≤ 3 → crc32c (programBytes b k) = leAt p 4 4 →
      Replies (.bdspLoadEnd c) 0x0502 c b (ok []) (b.modCore k (fun g => { g with loaded := true }))) ∧
    (b.runsNow 0x0503 c = true → k ≤ 3 → leAt p 2 2 + (p.length - 4) / 4 ≤ 0x4000 →
      let ws := (List.range ((p.length - 4) / 4)).map (fun i => leAt p (4 + 4 * i) 4)
      (leAt p 1 1 = 0 → Replies (.bdspWriteData c) 0x0503 c b (ok [])
        (b.modCore k (fun g => { g with x := smWriteAll (fun _ => 0) g.x (leAt p 2 2) ws }))) ∧
      (leAt p 1 1 = 1 → Replies (.bdspWriteData c) 0x0503 c b (ok [])
        (b.modCore k (fun g => { g with y := smWriteAll (fun _ => 0) g.y (leAt p 2 2) ws })))) ∧
    (b.runsNow 0x0504 c = true → mBdspReadData.chk p b = none →
      let mem := if leAt p 1 1 = 0 then (b.core k).x else (b.core k).y
      Replies (.bdspReadData c) 0x0504 c b (ok ((smRange (fun _ => 0) mem (leAt p 2 2) (leAt p 4 2)).flatMap (toLE 4))) b) ∧
    (b.runsNow 0x0505 c = true → k ≤ 3 → leAt p 2 1 ≤ 4 → leAt p 3 1 ≤ 3 →
      let a := rBDSP_CTRL + o
      let v := putBits (leAt p 2 1 * 2 ^ 28 + leAt p 3 1 * 2 ^ 8) 7 0 (b.rd (fBDSP_CTRL_LINE_EN.at k))
      (leAt p 1 1 = 1 → Replies (.bdspRun c) 0x0505 c b .later
        (startCheck a (some (cmdTok 0x0505 c b)) b.now [(a, b.word a)] (writeBdsp a v b))) ∧
      (leAt p 1 1 = 0 → Replies (.bdspRun c) 0x0505 c b (ok [])
        (runFalls k (cancelChecks (fun x => x.addr == a) (writeBdsp a v b))))) ∧
    (b.runsNow 0x0506 c = true → k ≤ 3 → leAt p 1 1 + leAt p 2 1 ≤ 64 →
      Replies (.bdspSetParam c) 0x0506 c b (ok [])
        (forN (leAt p 2 1) (fun i x => x.setWord (rBDSP_PARAM + o + 4 * (leAt p 1 1 + i)) (leAt p (4 + 4 * i) 4)) b)) ∧
    (b.runsNow 0x0507 c = true → mBdspSetLine.chk p b = none →
      let n := leAt p 1 1
      let a := rBDSP_LINE_BASE + o + 0x10 * n
      let b1 := writeBdsp (a + 4) (leAt p 8 4) (writeBdsp a (leAt p 4 4) b)
      let b2 := (b1.setWord (a + 8) (leAt p 12 4)).setWord (a + 12) (leAt p 16 4)
      let lines := putBits (b2.rd (fBDSP_CTRL_LINE_EN.at k)) n n (leAt p 2 1)
      Replies (.bdspSetLine c) 0x0507 c b (ok [])
        (if coreRuns b2 k then b2 else b2.wr (fBDSP_CTRL_LINE_EN.at k) lines)) ∧
    (b.runsNow 0x0508 c = true → k ≤ 3 →
      Replies (.bdspStatus c) 0x0508 c b
        (ok (toLE 4 (bdspStat b k) ++ words4 b [rBDSP_CYCLES + o, rBDSP_PEAK + o, rBDSP_OVERRUN_COUNT + o, rBDSP_FAULT + o])) b)

/-! ### Serial and USB ports (12) -/

/-- The serial event ports (R417 to R430, R438, R441). A receiver decides a character from its samples, each bit by the majority of
samples 7, 8 and 9. One that is decided well joins the receive FIFO, an erroneous one sets its
bits, is counted and abandons the message under way; flow bytes pause and free the transmitter; autobaud takes the measured
divisor. At a character boundary a flow byte owed goes first, then the oldest byte unless paused, in the bits of the port's format. The parser reads on to the end
of a message; a sense timeout posts sixteen ALL_NOTES_OFF. SER_TXDATA queues a byte, SER_RXDATA takes the oldest; SER_CONFIG and
SER_SEND do theirs by command. -/
def Obligations.SerialPorts : Prop :=
  ∀ (b : Block) (n : Nat), n < 5 →
    (∀ ch : SerChar, serOn b n = true →
      let auto := serGeneral b n && b.flag (fSER_CFG_AUTOBAUD.at n) && !b.flag (fSER_CFG_DATA7.at n)
      (auto = true → Ends (.serCharacter n ch) b
        (autobaud n ch.edges (b.modSer n (fun s => { s with level := ch.samples.getLastD s.level })))) ∧
      (auto = false → decideChar (rxFormat b n) (b.serial n).level ch.samples = none → Ends (.serCharacter n ch) b b) ∧
      (∀ d, auto = false → decideChar (rxFormat b n) (b.serial n).level ch.samples = some d →
        let r := b.modSer n (fun s => { s with level := d.level })
        let e1 := if d.framing then r.wr (fSER_STAT_FE.at n) 1 else r
        let e2 := if d.parity then e1.wr (fSER_STAT_PE.at n) 1 else e1
        let e3 := if d.framing && d.data == 0 then e2.wr (fSER_STAT_BRK.at n) 1 else e2
        let xon := xonOn b n && (d.data == 0x13 || d.data == 0x11)
        ((d.framing || d.parity) = true →
          Ends (.serCharacter n ch) b
            (((e3.modSer n (fun s => { s with run := none, msg := none })).countUp (fSER_ERRCNT_COUNT.at n) 1).raise (evSER_RX_ERR n))) ∧
        ((d.framing || d.parity) = false → xon = true →
          Ends (.serCharacter n ch) b (r.wrB (fSER_STAT_TX_PAUSED.at n) (d.data == 0x13))) ∧
        ((d.framing || d.parity) = false → xon = false → 64 ≤ (b.serial n).rx.length →
          Ends (.serCharacter n ch) b
            (((r.wr (fSER_STAT_OVR.at n) 1).countUp (fSER_ERRCNT_COUNT.at n) 1).raise (evSER_RX_ERR n))) ∧
        ((d.framing || d.parity) = false → xon = false → (b.serial n).rx.length < 64 →
          let sense := b.flag (fSER_CFG_SENSE.at n) && !serRaw b n && d.data == 0xFE
          Ends (.serCharacter n ch) b (flowCheck n (r.modSer n (fun s =>
            { s with rx := s.rx ++ [(BitVec.ofNat 8 d.data, b.now)], sense := s.sense || sense })))))) ∧
    (∀ (f : SerFormat) (c : Nat), c < 256 → 0 < f.bits → f.bits ≤ 8 → f.parity ≤ 2 → 1 ≤ f.stops → f.stops ≤ 2 →
      decideChar f true ((f.frame c).flatMap (List.replicate 16)) = some ⟨c % 2 ^ f.bits, false, false, true⟩) ∧
    (serOn b n = true →
      (∀ x, (b.serial n).flow = some x →
        Ends (.serTxCharacter n) b
          (flowCheck n ((b.modSer n (fun s => { s with flow := none, shift := (serFormat b n).frame (if x then 0x13 else 0x11) })).wrB
            (fSER_STAT_XOFF_SENT.at n) x))) ∧
      (∀ c rest, (b.serial n).flow = none → b.flag (fSER_STAT_TX_PAUSED.at n) = false → (b.serial n).tx = c :: rest →
        Ends (.serTxCharacter n) b (b.modSer n (fun s => { s with tx := rest, shift := (serFormat b n).frame c.toNat }))) ∧
      ((b.serial n).flow = none → (b.flag (fSER_STAT_TX_PAUSED.at n) = true ∨ (b.serial n).tx = []) →
        Ends (.serTxCharacter n) b (b.modSer n (fun s => { s with shift := [] })))) ∧
    (serOn b n = true → serRaw b n = false → b.on dEVT = true → Ends (.midiMessage n) b (parseSerial n 65 b)) ∧
    (n < 4 → serOn b n = true → (b.serial n).sense = true → b.flag (fSER_CFG_SENSE.at n) = true →
      let one (ch : Nat) (x : Block) : Block :=
        let r := midiRecord n (x.rd (fSER_CFG_PRIO.at n)) evtAllNotesOff 0 ch 0 0
        let wait (y : Block) : Block := { y with sched := { y.sched with waitSer := y.sched.waitSer ++ [(n, r, y.now)] } }
        if x.sched.waitSer.any (fun w => w.1 == n) then wait x
        else if (offer r x.now x).1 then (offer r x.now x).2 else wait (offer r x.now x).2
      Ends (.senseTimeout n) b (forN 16 one (b.modSer n (fun s => { s with sense := false })))) ∧
    (∀ v : Word, b.hostMay (rSER_TXDATA + 0x40 * n) = true →
      let queued (f : Ser → Ser) := Ends (.serTxdata n v) b (restartCheck (rSER_TXDATA + 0x40 * n) (b.modSer n f))
      (b.on dCOMM = true → (b.serial n).tx.length < 64 → queued (fun s => { s with tx := s.tx ++ [BitVec.ofNat 8 v.toNat] })) ∧
      (b.on dCOMM = true → 64 ≤ (b.serial n).tx.length → queued id) ∧
      (b.on dCOMM = false → queued (fun s => { s with owed := s.owed ++ [BitVec.ofNat 8 v.toNat] }))) ∧
    (∀ c t rest, b.host.ready = true → (b.serial n).rx = (c, t) :: rest → serRaw b n = true → b.on dCOMM = true →
      Ends (.serRxdata n) b
        ((flowCheck n (b.modSer n (fun s => { s with rx := rest }))).drive (toLE 4 (2 ^ 31 + c.toNat)))) ∧
    (∀ c : Cmd, leAt c.payload 0 1 = n →
      let p := c.payload
      (b.runsNow 0x0700 c = true → mSerConfig.chk p b = none →
        Replies (.serConfig c) 0x0700 c b (ok [])
          ((writeSerDiv n (leAt p 8 4) (writeSerCfg n (leAt p 4 4) b)).put (rSER_FLOW + 0x40 * n) (leAt p 12 4))) ∧
      (b.runsNow 0x0701 c = true → b.flag (fSER_CFG_EN.at n) = true → (b.serial n).tx.length + leAt p 2 2 ≤ 64 →
        Replies (.serSend c) 0x0701 c b (ok [])
          (b.modSer n (fun s => { s with tx := s.tx ++ (p.drop 4).take (leAt p 2 2) }))))

/-- The USB function (R431 to R436, R439, R442). A bus reset unconfigures it and finds its speed, suspend and resume set their bit, a
configuration and an alternate setting that is offered take effect; an OUT frame joins its buffer, or is lost and counted where
this is full, an IN packet takes the oldest frame; the feedback follows the buffer's fill; a lost start of frame and a rate that is
not the device's are reported; MIDI packets become records in order, all of them or none. The commands do theirs.
The layouts of packets and the record of a stall are presumed (notes/assumptions/31.md, 17.md). -/
def Obligations.UsbFunction : Prop :=
  ∀ b : Block,
    (usbOn b = true →
      (∀ hs, Ends (.usbReset hs) b
        ((((usbIdle b).wrB fUSB_STAT_HIGH_SPEED hs).wr fUSB_STAT_SUSPENDED 0).raise evUSB_RESET)) ∧
      Ends .usbSuspend b ((b.wr fUSB_STAT_SUSPENDED 1).raise evUSB_SUSPEND) ∧
      Ends .usbResume b (b.wr fUSB_STAT_SUSPENDED 0) ∧
      Ends .usbSetConfiguration b (b.wr fUSB_STAT_CONFIGURED 1) ∧
      (b.flag fUSB_STAT_CONFIGURED = true →
        (b.flag fUSB_STAT_HIGH_SPEED = true → ∀ alt ≤ 2,
          Ends (.usbSetInterface 1 alt) b (b.wr fUSB_STAT_ALT_OUT alt) ∧ Ends (.usbSetInterface 2 alt) b (b.wr fUSB_STAT_ALT_IN alt)) ∧
        (∀ alt ≤ 1, Ends (.usbSetInterface 3 alt) b (b.wr fUSB_STAT_ALT_MIDI alt)) ∧
        (b.flag fUSB_STAT_HIGH_SPEED = false → ∀ alt < 256,
          Ends (.usbSetInterface 1 alt) b b ∧ Ends (.usbSetInterface 2 alt) b b)) ∧
      (∀ samples : List Int, b.rd fUSB_STAT_ALT_OUT ≠ 0 →
        let wide := b.rd fUSB_STAT_ALT_OUT == 1
        let f := (List.range 8).map (fun c =>
          if wide then sext 24 (unsx 24 (nth 0 samples c)) * 2 ^ 8 else sext 16 (unsx 16 (nth 0 samples c)) * 2 ^ 16)
        (b.usb.outBuf.length < 64 →
          Ends (.usbOutFrame samples) b { b with usb := { b.usb with outBuf := b.usb.outBuf ++ [f], full := false } }) ∧
        (64 ≤ b.usb.outBuf.length →
          let b1 := (b.countUp fUSB_AUD_ERR_COUNT 1).raiseIf (!b.usb.full) evUSB_AUDIO_SYNC_LOST
          Ends (.usbOutFrame samples) b { b1 with usb := { b.usb with full := true } })) ∧
      (∀ f rest, b.usb.inBuf = f :: rest → b.rd fUSB_STAT_ALT_IN ≠ 0 →
        Ends .usbInPacket b { b with usb := { b.usb with sent := f, inBuf := rest } }) ∧
      (∀ m : Nat, b.rd fUSB_STAT_ALT_OUT ≠ 0 →
        Ends (.usbFeedback m) b (b.wr fUSB_FB_VALUE (unsx 32 ((m : Int) + (32 - (b.usb.outBuf.length : Int)) * 2 ^ 8)))) ∧
      ((b.rd fUSB_STAT_ALT_OUT ≠ 0 ∨ b.rd fUSB_STAT_ALT_IN ≠ 0) →
        Ends .usbSofTimeout b ((b.countUp fUSB_AUD_ERR_COUNT 1).raise evUSB_AUDIO_SYNC_LOST)) ∧
      (∀ hz, Ends (.usbRateRequest hz) b { b with usb := { b.usb with stalled := hz != b.fs } }) ∧
      (b.flag fUSB_STAT_ALT_MIDI = true → b.serving = true →
        Ends .endpointDiscovery b { b with usb := { b.usb with answer := some (16, 2, false) } }) ∧
      (∀ ws : List Word, b.flag fUSB_STAT_CONFIGURED = true → b.on dEVT = true →
        let words := ws.map (·.toNat)
        let rs := if b.flag fUSB_STAT_ALT_MIDI then umpRecords b (words.length + 1) words else words.flatMap usbMidi1
        let r := rs.foldl (fun (a : Bool × Block) e => if a.1 then offer e b.now a.2 else a) (true, b)
        (r.1 = true → Ends (.usbMidiPacket ws) b { r.2 with usb := { r.2.usb with nak := false } }) ∧
        (r.1 = false → Ends (.usbMidiPacket ws) b { b with usb := { b.usb with nak := true } }))) ∧
    (∀ c : Cmd,
      let p := c.payload
      (b.runsNow 0x0702 c = true → leAt p 1 1 ≤ 1 →
        let b1 := if b.flag fUSB_CTRL_EN then b else b.wr fUSB_CTRL_REF (leAt p 1 1)
        let b2 := (b1.wr fUSB_UMP_CFG_NPC_A (leAt p 2 1)).wr fUSB_UMP_CFG_NPC_B (leAt p 3 1)
        (leAt p 0 1 = 1 → Replies (.usbEnable c) 0x0702 c b .later
          (startCheck rUSB_CTRL (some (cmdTok 0x0702 c b)) b.now
            [(rUSB_CTRL, b.word rUSB_CTRL), (rUSB_UMP_CFG, b.word rUSB_UMP_CFG)] b2)) ∧
        (leAt p 0 1 = 0 → Replies (.usbEnable c) 0x0702 c b (ok []) (usbDisabled (clearEnable rUSB_CTRL b2)))) ∧
      (b.runsNow 0x0703 c = true → b.flag fUSB_STAT_CONFIGURED = true → b.flag fUSB_STAT_ALT_MIDI = true →
        let ws := (List.range (p.length / 4)).map (fun i => leAt p (4 * i) 4)
        Replies (.usbSendMidi c) 0x0703 c b (ok []) { b with usb := { b.usb with midiIn := ws } }) ∧
      (b.runsNow 0x0704 c = true →
        Replies (.serUsbStatus c) 0x0704 c b
          (ok ((List.range 5).flatMap (fun n => toLE 4 (serStat b n)) ++ toLE 4 (usbStat b) ++ toLE 4 (b.word rUSB_FB))) b))

/-! ### The event network (13) -/

/-- Frames of a port that is enabled and powered (R444 to R456, R461 to R463). The checks of a frame received run in order: symbol error,
length, FCS, filter, then the bucket and what the frame is, and each counts what it drops. The oldest frame received releases its
records where all find their places, else it stays. A frame sent leaves the queue, a collision tries again up to sixteen times; a
BEACON and its absence choose the way of access, and the bucket gains a token up to its depth.
The order of the drops is the model's reading (notes/assumptions/32.md). -/
def Obligations.NetworkFrames : Prop :=
  ∀ (b : Block) (n : Nat), n < 2 →
    (netHears b n = true → ∀ f : NetFrame, (Instr.netFrameReceive n f).wf = true →
      let fails := f.symbolError || decide (f.length < 64 ∨ 1518 < f.length) || !f.fcsGood
      let b1 := b.countUp (fNET_RX_FRAMES_COUNT.at n) 1
      (f.symbolError = true → Ends (.netFrameReceive n f) b (b.countUp (fNET_SYM_COUNT_COUNT.at n) 1)) ∧
      (f.symbolError = false → (f.length < 64 ∨ 1518 < f.length) →
        Ends (.netFrameReceive n f) b (b.countUp (fNET_BAD_FRAME_COUNT.at n) 1)) ∧
      (f.symbolError = false → 64 ≤ f.length → f.length ≤ 1518 → f.fcsGood = false →
        Ends (.netFrameReceive n f) b ((b.countUp (fNET_FCS_COUNT_COUNT.at n) 1).raise (evNET_FCS_ERR n))) ∧
      (fails = false → passesFilter b1 n f = false →
        Ends (.netFrameReceive n f) b ((b1.countUp (fNET_STRANGER_COUNT_COUNT.at n) 1).raise (evNET_STRANGER_DROP n))) ∧
      (fails = false → passesFilter b1 n f = true → Ends (.netFrameReceive n f) b (acceptFrame n f b1))) ∧
    (∀ f rest, netHears b n = true → (b.netPort n).rx = f :: rest → b.on dEVT = true →
      let conv := f.records.map (convertDue b f.netTime)
      let rs := conv.map (fun c => setFlag c.1 2 false)
      let b1 := b.modNet n (fun p => { p with rx := rest })
      let b2 := b1.countUp fNET_UNSYNC_COUNT_COUNT (conv.filter (·.2)).length
      (placesFor b f.stamp rs = true → Ends (.netFrameRelease n) b (forL rs (fun r x => (offer r f.stamp x).2) b2)) ∧
      (placesFor b f.stamp rs = false → Ends (.netFrameRelease n) b b)) ∧
    (∀ f rest, netOn b n = true → (b.netPort n).tx = f :: rest →
      Ends (.netFrameTransmit n false) b (b.modNet n (fun p => { p with tx := rest, tries := 0, sent := some f })) ∧
      (let b1 := b.countUp (fNET_COLL_COUNT_COUNT.at n) 1
       ((b.netPort n).tries < 15 → Ends (.netFrameTransmit n true) b (b1.modNet n (fun p => { p with tries := p.tries + 1 }))) ∧
       (15 ≤ (b.netPort n).tries → Ends (.netFrameTransmit n true) b
         (((b1.countUp (fNET_TX_ABORT_COUNT.at n) 1).raise (evNET_COLLISION_LIMIT n)).modNet n
           (fun p => { p with tx := rest, tries := 0 }))))) ∧
    (netOn b n = true → usesPlca b n = true →
      Ends (.beacon n) b (setLink n true ((b.wr (fNET_STAT_MAC_MODE.at n) 0).wrB (fNET_STAT_COORD.at n) (isCoord b n))) ∧
      (isCoord b n = false → Ends (.plcaBeaconTimeout n) b (setLink n true (b.wr (fNET_STAT_MAC_MODE.at n) 1)))) ∧
    (netHears b n = true → b.rd (fNET_BCAST_RATE.at n) ≠ 0 →
      Ends (.bucketToken n) b
        (b.modNet n (fun p => { p with tokens := min (p.tokens + 1) (b.rd (fNET_BCAST_DEPTH.at n)) })))

/-- Network time and the network's commands (R455 to R460, R465, R467, R468). A Sync of the grandmaster is stamped, its estimate's anchor
and rate commit together, eight near estimates lock and one far off loses the lock; another clock's message is counted and dropped,
other messages of the grandmaster are heard; a delay request is stamped, and where no Sync comes the lock is lost with the anchor
kept. NET_CONFIG disables the port, stores its words and enables it by roll call, after listening where asked; the filter, hash
and PTP commands store theirs; NET_SEND_EVENTS queues a frame; NET_STATUS answers the port's counters.
Messages of other types are presumed foreign (notes/assumptions/32.md). -/
def Obligations.NetworkTimeAndCommands : Prop :=
  ∀ b : Block,
    (ptpServes b = true →
      (∀ (ident : DWord) (e : PtpEstimate), ident.toNat ≠ b.word64 rNET_PTP_GM →
        let foreign := b.countUp fNET_PTP_FOREIGN_COUNT 1
        Ends (.ptpSync ident e) b foreign ∧ Ends (.followUp ident) b foreign ∧ Ends (.announce ident) b foreign ∧
        Ends (.delayResp ident) b foreign) ∧
      (∀ (ident : DWord) (e : PtpEstimate), ident.toNat = b.word64 rNET_PTP_GM →
        let heard := { b with ptp := { b.ptp with heard := true } }
        Ends (.followUp ident) b heard ∧ Ends (.announce ident) b heard ∧ Ends (.delayResp ident) b heard ∧
        (let syncAt := (b.now + tideMod - b.rd fNET_PTP_LAT_RX_LAT) % tideMod
         let stamped := { b with ptp := { b.ptp with heard := true, syncAt := syncAt } }
         let lim := b.rd fNET_PTP_LOCK_LOCK_NS
         let good := if e.offsetNs.natAbs ≤ lim then min 8 (b.ptp.good + 1) else 0
         let ptp := { stamped.ptp with staged := (e.tide.toNat, e.net.toNat), good := good }
         let b1 := (commitAnchor e.rate.toNat { b with ptp := ptp }).wr fNET_PTP_STAT_OFFSET_NS (unsx 16 (satS 16 e.offsetNs))
         (b.serving = false → Ends (.ptpSync ident e) b stamped) ∧
         (b.serving = true → 8 * lim < e.offsetNs.natAbs → Ends (.ptpSync ident e) b (loseLock b1)) ∧
         (b.serving = true → e.offsetNs.natAbs ≤ 8 * lim → good = 8 → b1.flag fNET_PTP_STAT_LOCKED = false →
           Ends (.ptpSync ident e) b ((b1.wr fNET_PTP_STAT_LOCKED 1).raise evPTP_LOCK)) ∧
         (b.serving = true → e.offsetNs.natAbs ≤ 8 * lim → (good < 8 ∨ b1.flag fNET_PTP_STAT_LOCKED = true) →
           Ends (.ptpSync ident e) b b1))) ∧
      (b.ptp.heard = true →
        Ends .delayReq b { b with ptp := { b.ptp with dreqAt := (b.now + b.rd fNET_PTP_LAT_TX_LAT) % tideMod } })) ∧
    Ends .ptpLost b (loseLock { b with ptp := { b.ptp with heard := false, good := 0 } }) ∧
    (∀ v : Word, b.serving = true → b.on dCOMM = true → Ends (.netRate v) b (commitAnchor v.toNat b)) ∧
    (∀ (n : Nat) (tok : Tok) (stamp : Nat) (undo : List (Nat × Nat)), n < 2 → (b.netPort n).listen = some (tok, stamp, undo) →
      let b1 := b.modNet n (fun p => { p with listen := none })
      Ends (.netListenDone n true) b
        ((forL undo (fun w x => x.setWord w.1 w.2) (b1.modNet n (fun p => { p with rx := [] }))).finish tok stamp false (refusedWith .nodeIdConflict)) ∧
      Ends (.netListenDone n false) b (startCheck (rNET_CTRL + 0x200 * n) (some tok) stamp undo b1)) ∧
    (∀ c : Cmd,
      let p := c.payload
      let n := leAt p 0 1
      let r := 0x200 * n
      (b.runsNow 0x0800 c = true → mNetConfig.chk p b = none →
        let as := [rNET_CTRL + r, rNET_PLCA + r, rNET_PLCA2 + r, rNET_BCAST + r]
        let off := netFalls n (cancelChecks (fun x => x.addr == rNET_CTRL + r) b)
        let undo := as.map (fun a => (a, off.word a))
        let b1 := forN 4 (fun i x => writeNet (nth 0 as i) (leAt p (4 + 4 * i) 4) x) off
        (bit (leAt p 4 4) 31 = false → Replies (.netConfig c) 0x0800 c b (ok []) b1) ∧
        (bit (leAt p 4 4) 31 = true → leAt p 1 1 = 1 → Replies (.netConfig c) 0x0800 c b .later
          ((fillBucket n b1).modNet n (fun q => { q with listen := some (cmdTok 0x0800 c b, b.now, undo) }))) ∧
        (bit (leAt p 4 4) 31 = true → leAt p 1 1 = 0 → Replies (.netConfig c) 0x0800 c b .later
          (startCheck (rNET_CTRL + r) (some (cmdTok 0x0800 c b)) b.now undo b1))) ∧
      (b.runsNow 0x0801 c = true → mNetFilterAdd.chk p b = none →
        (∀ e, filtFind b n (leAt p 1 1) (leAt p 2 6) = some e → Replies (.netFilterAdd c) 0x0801 c b (ok (toLE 4 e)) b) ∧
        (filtFind b n (leAt p 1 1) (leAt p 2 6) = none →
          let left := (List.range 32).filter (fun e => !(filtEntry b n e).1)
          let e := nth 0 left ((b.fresh 468).1 % max 1 left.length)
          let b1 := (b.fresh 468).2.wr (fNET_FILT_LO_ADDR_LO.at2 n e) (leAt p 2 6)
          let b2 := (b1.wr (fNET_FILT_HI_ADDR_HI.at2 n e) (leAt p 2 6 / 2 ^ 32)).wr (fNET_FILT_HI_KIND.at2 n e) (leAt p 1 1)
          Replies (.netFilterAdd c) 0x0801 c b (ok (toLE 4 e)) (b2.wr (fNET_FILT_HI_VALID.at2 n e) 1))) ∧
      (b.runsNow 0x0802 c = true → n ≤ 1 → leAt p 1 1 ≤ 1 →
        Replies (.netFilterRemove c) 0x0802 c b (ok [])
          (match filtFind b n (leAt p 1 1) (leAt p 2 6) with
           | some e => b.wr (fNET_FILT_HI_VALID.at2 n e) 0
           | none => b)) ∧
      (b.runsNow 0x0803 c = true → n ≤ 1 →
        Replies (.netSetHash c) 0x0803 c b (ok []) (b.setWord64 (rNET_HASH + r) (leAt p 4 8))) ∧
      (b.runsNow 0x0804 c = true → regWordOk rNET_PTP_CFG (leAt p 0 4) = true → regWordOk rNET_PTP_LOCK (leAt p 16 2) = true →
        let as := [rNET_PTP_CFG, rNET_PTP_GM, rNET_PTP_GM + 4, rNET_PTP_LAT, rNET_PTP_LOCK]
        let b1 := (writeNet rNET_PTP_CFG (leAt p 0 4) b).setWord64 rNET_PTP_GM (leAt p 4 8)
        let b2 := (b1.put rNET_PTP_LAT (leAt p 12 4)).put rNET_PTP_LOCK (leAt p 16 2)
        (bit (leAt p 0 4) 31 = false → Replies (.netPtpConfig c) 0x0804 c b (ok []) (clearEnable rNET_PTP_CFG b2)) ∧
        (bit (leAt p 0 4) 31 = true → Replies (.netPtpConfig c) 0x0804 c b .later
          (startCheck rNET_PTP_CFG (some (cmdTok 0x0804 c b)) b.now (as.map (fun a => (a, b.word a))) b2))) ∧
      (b.runsNow 0x0805 c = true → mNetSendEvents.chk p b = none →
        let head := toLE 1 1 ++ toLE 1 (leAt p 2 1) ++ toLE 1 (leAt p 1 1) ++ toLE 1 (b.netPort n).seq
        let f : NetTx := ⟨leAt p 4 6, netMac b n, b.rd (fNET_CTRL_ETYPE.at n), head ++ p.drop 12⟩
        Replies (.netSendEvents c) 0x0805 c b (ok [])
          (b.modNet n (fun q => { q with tx := q.tx ++ [f], seq := (q.seq + 1) % 256 }))) ∧
      (b.runsNow 0x0806 c = true → n ≤ 1 →
        Replies (.netStatus c) 0x0806 c b
          (ok (toLE 4 (netStat b n) ++ words4 b (rNET_PTP_STAT ::
            (List.range 10).map (fun i => rNET_RX_FRAMES + r + 4 * i)))) b))

/-! ### Audio outputs and inputs (14) -/

/-- The audio outputs and inputs (R472, R473, R475 to R479, R482, R483, R485, R486). A frame start completes the handover and strobes
the BOUNDARY groups and AUDIO channels, and the master ports and the S/PDIF output form their frames; an external frame start forms a
slave port's, slot s being the word of output channel 8 + 16p + s at the port's WIDTH (the moment of delivery is the model's reading,
notes/assumptions/41.md); a write of DAC_STROBE and LDACN strobe theirs; a strobe gives a connected DIRECT channel its staged code, or
mid-scale under MUTE; a code written in the strobe's own tick is applied, or that staged before it. A RANGE written to a connected channel is taken when the reference has settled, a channel
disabled opens its switches; faults, frame errors, lock and its loss set their bits and raise their events, a sample received joins its
slot. Whether a write and a strobe
of one tick share a DAC cycle is left free (notes/assumptions/19.md).

The audio-output commands (R490, R491). DAC_CONFIG and PORT_CONFIG store what they name and send the enable to roll call or take
it away (a SLOTS that TDM does not list goes on to roll call with its enable), DAC_SET_RANGE gives every channel of its mask the
range, DAC_LOAD writes its codes and strobes their groups, DAC_SET_GROUP
sets a group's source and timer and LDACN's direction, AOUT_STATUS answers the ports' status.
That the Tide moves on to a happening's own instant is the model's choice (notes/assumptions/7.md). -/
def Obligations.AudioOutputs : Prop :=
  (∀ b : Block,
     (∀ t, b.tide.bound = some t → b.mix.handed = false → b.tideRuns = true →
       let at_ := (b.lastBound + 2) % tideMod
       let b1 := if b.hasCome at_ then b else b.advanceTo at_
       let b2 := strobeSource 3 { b1 with mix := { b1.mix with handed := true } }
       Ends .tdmFrameStart b
         (frameSamples (formFrames
           (forN 8 (fun n x => if x.flag (fDAC_CFG_MODE.at n) then x else strobeChannel n x) b2)))) ∧
     (∀ p s, s < b.rd (fTDM_OUT_CFG_SLOTS.at p) →
       let W := tdmBits (b.rd (fTDM_OUT_CFG_WIDTH.at p))
       (frameSlots b p)[s]? = some (BitVec.ofInt 32 (shorten W (nth 0 b.mix.words (8 + 16 * p + s)) * 2 ^ (32 - W)))) ∧
     (∀ (l r : Word) (last : Bool) (i : Nat), i < 32 →
       (wireFrame 1 0 last [l, r])[i]? = some (true, l.getMsbD i) ∧ (wireFrame 1 0 last [l, r])[32 + i]? = some (false, r.getMsbD i) ∧
       (wireFrame 0 0 last [l, r])[i + 1]? = some (decide (i = 31), l.getMsbD i) ∧
       (wireFrame 0 0 last [l, r])[0]? = some (false, last) ∧
       (i < 31 → (wireFrame 0 0 last [l, r])[33 + i]? = some (true, r.getMsbD i)) ∧
       (wireFrame 2 0 last [l, r])[32 + i]? = some (false, r.getMsbD i) ∧
       (wireFrame 2 1 last [l, r])[i + 1]? = some (false, l.getMsbD i) ∧ (wireFrame 2 1 last [l, r])[0]? = some (true, last)) ∧
     (∀ n, b.flag (fDAC_STAT_CONNECTED.at n) = true →
       let ifs := 2500 * 2 ^ (b.dac n).range
       let c := b.rd (fDAC_STAT_ACTIVE.at n)
       pinCurrents b n = some (ifs * c, ifs * (65536 - c)) ∧ (c ≤ 65536 → ifs * c + ifs * (65536 - c) = 65536 * ifs)) ∧
     (b.isPrimary = false → b.flag fAOUT_CTRL_LDACN_OUT = true → (strobeGroup 0 b).aout.ldacn = some b.now) ∧
     (∀ v : Word, b.hostMay rDAC_STROBE = true → b.isPrimary = false →
       Ends (.dacStrobe v) b (logJournal rDAC_STROBE v.toNat (restartCheck rDAC_STROBE (writeStrobe v.toNat b)))) ∧
     (b.flag fAOUT_CTRL_LDACN_OUT = false → Ends .ldacnFall b (strobeSource 2 b)) ∧
     (∀ n, n < 8 → b.isPrimary = false → b.flag (fDAC_CFG_EN.at n) = true → (b.dac n).closing = false →
       b.flag (fDAC_STAT_RANGE_BUSY.at n) = false → b.flag (fDAC_STAT_CONNECTED.at n) = true → b.flag (fDAC_CFG_MODE.at n) = true →
       b.on dDACA = true →
       (codesForwarded b = true → strobeChannel n b = b) ∧
       (∀ code, applyCode n code b = b.wr (fDAC_STAT_ACTIVE.at n) code) ∧
       (codesForwarded b = false → muted b = true → strobeChannel n b = b.wr (fDAC_STAT_ACTIVE.at n) 0x8000) ∧
       (codesForwarded b = false → muted b = false →
         (b.flag (fDAC_CFG_DSRC.at n) = true → strobeChannel n b = b.wr (fDAC_STAT_ACTIVE.at n)
           (clamp 0 65535 ((handedWord b n + 2 ^ 15) / 2 ^ 16 + 32768)).toNat) ∧
         (b.flag (fDAC_CFG_DSRC.at n) = false → codeBefore b n = none →
           strobeChannel n b = b.wr (fDAC_STAT_ACTIVE.at n) (b.rd (fDAC_CODE_CODE.at n))) ∧
         (∀ old, b.flag (fDAC_CFG_DSRC.at n) = false → codeBefore b n = some old →
           strobeChannel n b = (b.fresh 474).2.wr (fDAC_STAT_ACTIVE.at n) old ∨
           strobeChannel n b = (b.fresh 474).2.wr (fDAC_STAT_ACTIVE.at n) (b.rd (fDAC_CODE_CODE.at n))))) ∧
     (∀ (n : Nat) (r : BitVec 2), n < 8 →
       let a := rDAC_CFG + 0x10 * n
       let v := (BitVec.ofNat 32 (putBits (putBits (b.word a) 31 31 1) 9 8 r.toNat)).toNat
       let ranged := (b.wr (fDAC_CFG_RANGE.at n) r.toNat).wr (fDAC_STAT_RANGE_BUSY.at n) 1
       b.hostMay a = true → b.isPrimary = false → enabled b a = true →
       Ends (.dacRangeWrite n r) b (logJournal a v (restartCheck a (writeRange n r.toNat b))) ∧
       (b.flag (fDAC_STAT_RANGE_BUSY.at n) = true → writeRange n r.toNat b = b) ∧
       (b.flag (fDAC_STAT_RANGE_BUSY.at n) = false → b.flag (fDAC_STAT_CONNECTED.at n) = true →
         b.rd (fDAC_CFG_RANGE.at n) ≠ r.toNat →
         b.flag (fDAC_CFG_MODE.at n) = true →
         writeRange n r.toNat b =
           (ranged.modDac n (fun d => { d with next := some r.toNat })).wr (fDAC_STAT_ACTIVE.at n) 0x8000)) ∧
     (∀ n r, n < 8 → (b.dac n).next = some r →
       Ends (.dacRangeDone n) b
         ((((b.modDac n (fun d => { d with next := none, range := r })).wr (fDAC_STAT_ACTIVE.at n) 0x8000).wr
           (fDAC_STAT_RANGE_BUSY.at n) 0).raise (evDAC_RANGE_DONE n))) ∧
     (∀ n, n < 8 → (b.dac n).closing = true →
       let b1 := b.modDac n (fun d => { d with closing := false, ready := false, next := none })
       Ends (.dacDisconnect n) b
         (((b1.wr (fDAC_STAT_CONNECTED.at n) 0).wr (fDAC_STAT_ACTIVE.at n) 0x8000).wr (fDAC_STAT_RANGE_BUSY.at n) 0)) ∧
     (∀ n, n < 8 → b.flag (fDAC_STAT_CONNECTED.at n) = true →
       Ends (.dacFault n) b ((b.wr (fDAC_STAT_FAULT.at n) 1).raise evDAC_FAULT)) ∧
     (let error (x : Block) := (x.countUp fTDM_ERR_COUNT_COUNT 1).raise evTDM_FRAME_ERR
      (∀ p, p < 4 → slaveOut b p = true →
        let fresh (x : Block) :=
          { formFrame p x with aout := { (formFrame p x).aout with fresh := x.aout.fresh.set p false } }
        Ends (.tdmFrameErr p) b (error b) ∧
        (nth false b.aout.fresh p = true → Ends (.tdmSlaveFs p) b (fresh b)) ∧
        (nth false b.aout.fresh p = false → Ends (.tdmSlaveFs p) b (fresh (error b)))) ∧
      (∀ p, p < 2 → b.flag (fTDM_IN_CFG_EN.at p) = true → b.on dAIO = true →
        (b.flag (fTDM_IN_CFG_MASTER.at p) = false → Ends (.tdmFrameErr (4 + p)) b (error b)) ∧
        (∀ (s : Nat) (w : Word), s < b.rd (fTDM_IN_CFG_SLOTS.at p) → s < 16 →
          let x := topBits (b.rd (fTDM_IN_CFG_WIDTH.at p)) w.toNat
          Ends (.tdmInputSample p s w) b
            { b with aout := { b.aout with tdmIn := b.aout.tdmIn.modify p (fun l => l.set s x) } }))) ∧
     (∀ rate nonPcm, (Instr.spdifLock rate nonPcm).wf = true → b.flag fSPDIF_IN_CFG_EN = true → b.on dAIO = true →
       let b1 := ((b.wr fSPDIF_IN_STAT_LOCK 1).wr fSPDIF_IN_STAT_RATE rate).wrB fSPDIF_IN_STAT_NON_PCM nonPcm
       Ends (.spdifLock rate nonPcm) b (takeRefs ({ b1 with clk := { b1.clk with spdifClock := true } }.raise evSPDIF_LOCK))) ∧
     (b.flag fSPDIF_IN_STAT_LOCK = true →
       (b.clk.spdifClock = false → Ends .spdifUnlock b ((b.wr fSPDIF_IN_STAT_LOCK 0).raise evSPDIF_UNLOCK)) ∧
       (∀ (ch : Nat) (w : Word), ch < 2 →
         Ends (.spdifSubframe ch w true) b (b.countUp fSPDIF_ERR_COUNT_COUNT 1) ∧
         ((ch = 1 ∨ b.aout.spdifNew = false) →
           Ends (.spdifSubframe ch w false) b { b with aout := { b.aout with
             spdif := b.aout.spdif.set ch (sext 32 w.toNat), spdifNew := b.aout.spdifNew || ch == 0 } }))) ∧
     (∀ q, q < 2 →
       (b.flag fASRC_CFG_EN = true → asrcSource b q ≠ 0 → b.on dAIO = true →
         Ends (.asrcLock q) b (b.wr fASRC_STAT_LOCK (putBits (b.rd fASRC_STAT_LOCK) q q 1))) ∧
       (bit (b.rd fASRC_STAT_LOCK) q = true →
         let b1 := (b.wr fASRC_STAT_LOCK (putBits (b.rd fASRC_STAT_LOCK) q q 0)).raise evASRC_UNLOCK
         Ends (.asrcUnlock q) b
           { b1 with aout := { b1.aout with asrc := (b1.aout.asrc.set (2 * q) 0).set (2 * q + 1) 0 } }))) ∧
  (∀ (b : Block) (c : Cmd),
     let p := c.payload
     (b.runsNow 0x0B00 c = true → mDacConfig.chk p b = none →
       let n := leAt p 0 1
       let a := rDAC_CFG + 0x10 * n
       let code := rDAC_CODE + 0x10 * n
       let b1 := writeDacCode n (leAt p 8 4) (writeDacCfg n (leAt p 4 4) b)
       (bit (leAt p 4 4) 31 = true → Replies (.dacConfig c) 0x0B00 c b .later
         (startCheck a (some (cmdTok 0x0B00 c b)) b.now [(a, b.word a), (code, b.word code)] b1)) ∧
       (bit (leAt p 4 4) 31 = false → Replies (.dacConfig c) 0x0B00 c b (ok []) (dropDac n (clearEnable a b1)))) ∧
     (b.runsNow 0x0B01 c = true → leAt p 1 1 ≤ 3 → rangeBusy b (leAt p 0 1) = false →
       Replies (.dacSetRange c) 0x0B01 c b (ok [])
         (forN 8 (fun n x => if bit (leAt p 0 1) n then writeRange n (leAt p 1 1) x else x) b)) ∧
     (b.runsNow 0x0B02 c = true → rangeBusy b (leAt p 0 1) = false →
       let m := leAt p 0 1
       let b1 := forN 8 (fun n x => if bit m n then loadCode n (leAt p (4 + 2 * n) 2) x else x) b
       Replies (.dacLoad c) 0x0B02 c b (ok [])
         (forN 4 (fun g x =>
           if (List.range 8).any (fun n => bit m n && x.rd (fDAC_CFG_GROUP.at n) == g) then strobeGroup g x else x) b1)) ∧
     (b.runsNow 0x0B03 c = true → leAt p 0 1 ≤ 3 → leAt p 1 1 ≤ 3 → leAt p 2 1 ≤ 15 → leAt p 3 1 ≤ 1 →
       let g := leAt p 0 1
       Replies (.dacSetGroup c) 0x0B03 c b (ok [])
         (((b.wr (fDAC_GRP_SRC.at g) (leAt p 1 1)).wr (fDAC_GRP_TIDE_CH.at g) (leAt p 2 1)).wr fAOUT_CTRL_LDACN_OUT (leAt p 3 1))) ∧
     (∀ a, b.runsNow 0x0B04 c = true → portReg (leAt p 0 1) (leAt p 1 1) = some a → mPortConfig.chk p b = none →
       let b1 := if enabled b a then b else b.put a (putBits (leAt p 4 4) 31 31 0)
       let tdmOn := leAt p 0 1 ≤ 1 ∧ bit (leAt p 4 4) 31 = true ∧ enabled b a = false
       let slots (x : Block) := x.setWord a (putBits (x.word a) 20 16 (bitsOf (leAt p 4 4) 20 16))
       let b2 := (fun x => if leAt p 0 1 = 2 then x.setWord rSPDIF_OUT_CS (leAt p 8 4) else x) (if tdmOn then slots b1 else b1)
       (bit (leAt p 4 4) 31 = true → Replies (.portConfig c) 0x0B04 c b .later
         (startCheck a (some (cmdTok 0x0B04 c b)) b.now [(a, b.word a), (rSPDIF_OUT_CS, b.word rSPDIF_OUT_CS)] b2)) ∧
       (bit (leAt p 4 4) 31 = false → Replies (.portConfig c) 0x0B04 c b (ok []) (portDisabled a (clearEnable a b2)))) ∧
     (b.runsNow 0x0B05 c = true →
       Replies (.aoutStatus c) 0x0B05 c b
         (ok (toLE 4 (aoutStat b) ++ words4 b ([rSPDIF_IN_STAT, rASRC_STAT, rTDM_ERR_COUNT, rSPDIF_ERR_COUNT] ++
           (List.range 8).map (fun n => rDAC_STAT + 0x10 * n)))) b))

/-- Counters stick (R288, R390, R489): MIX_CLIP_COUNT, TIDE_POST_DROP, TDM_ERR_COUNT and SPDIF_ERR_COUNT advance up to 2^32 - 1 and
stay there, the advance that reaches it raises HISTO_SAT, and no other register changes. -/
def Obligations.ErrorCountersStick : Prop :=
  ∀ (b : Block) (f : Fld) (n : Nat),
    f ∈ [fMIX_CLIP_COUNT_COUNT, fTIDE_POST_DROP_COUNT, fTDM_ERR_COUNT_COUNT, fSPDIF_ERR_COUNT_COUNT] →
    let b' := b.countUp f n
    b'.rd f = min (b.rd f + n) (2 ^ 32 - 1) ∧
    (b.rd f < 2 ^ 32 - 1 → 2 ^ 32 - 1 ≤ b.rd f + n → b'.ev.pend.getLsbD evHISTO_SAT = true) ∧
    (b.rd f = 2 ^ 32 - 1 → b'.ev = b.ev) ∧
    (∀ a, a ≠ f.addr → b'.word a = b.word a)

/-! ### The ferry pair (15) -/

/-- What comes from the peer (R493, R494, R499 to R514, R516 to R522). The link rises and falls with its event, a pair in step
falling apart with it; a replay is counted, a fourth takes the link down. Frames do their work on a shadow in their states: records
enter, checksums are compared, copied state and logged writes are installed, mirrored writes wait for their boundary, a landing is
noted, functions are aborted. ALIGN holds the Tide; a sweep marks its voice crossed; two heartbeats missed land a shadow in step. The
layouts of copied and mirrored state, and the credits returned, are the model's own (notes/assumptions/20, 2). -/
def Obligations.FerryFramesAndPeer : Prop :=
  ∀ b : Block,
    (b.on dFERRY = true → b.flag fFERRY_STAT_LINK = false → b.flag fFERRY_CTRL_AUTO_BOARD = false →
      Ends .ferryLinkUp b ((b.wr fFERRY_STAT_LINK 1).raise evFERRY_LINK_UP)) ∧
    (b.flag fFERRY_STAT_LINK = true → ferryState b = 6 →
      let b1 := (b.wr fFERRY_STAT_LINK 0).raise evFERRY_LINK_DOWN
      let b2 := { b1 with fry := { b1.fry with
        sent := [], queue := [], plan := [], replays := 0, peer := none, landAt := none } }
      (b.isShadow = true → Ends .ferryLinkDown b (setState 7 { b2 with fry := { b2.fry with orphan := true } })) ∧
      (b.isShadow = false → Ends .ferryLinkDown b (setState 0 b2))) ∧
    (linked b = true →
      (b.fry.sent ≠ [] → b.fry.replays < 3 →
        Ends .frameReplay b ({ b with fry := { b.fry with replays := b.fry.replays + 1 } }.countUp fFERRY_REPLAY_COUNT 1)) ∧
      (b.fry.sent ≠ [] → 3 ≤ b.fry.replays → Ends .frameReplay b (linkFalls b)) ∧
      (∀ rs, b.isShadow = true → 3 ≤ ferryState b → ferryState b ≤ 6 → b.on dEVT = true →
        Ends (.event rs) b (forL rs (fun r x => takeForwarded (localRecord x r) x) (heard b))) ∧
      (∀ (t : Tick) (crc : Word) (own : Nat), ferryState b = 6 → b.fry.sums.lookup (localCount b t.toNat) = some own →
        let k := localCount b t.toNat
        (own = crc.toNat → Ends (.cksum t crc) b (heard b)) ∧
        (own ≠ crc.toNat → (k + tideMod - b.fry.compareFrom) % tideMod < 2 ^ 47 →
          Ends (.cksum t crc) b (diverge k (heard b)))) ∧
      (∀ (st rev rel : Nat) (t : Tick), b.isShadow = true → ferryState b = 6 →
        Ends (.status 1 st t rev rel) b
          ((heard { b with fry := { b.fry with peer := some (1, st, rev, rel) } }).wr fFERRY_STAT_PEER_STATE st)) ∧
      (∀ es, b.isShadow = true → 3 ≤ ferryState b → ferryState b ≤ 5 →
        Ends (.journal es) b (forL es (fun e x => installEntry e.address.toNat e.data.toNat x) (heard b))) ∧
      (∀ item, b.isShadow = true → 3 ≤ ferryState b → ferryState b ≤ 5 →
        let n := b.fry.copied + itemBytes item
        let b1 := heard b
        let b2 := { b1 with fry := { b1.fry with copied := n } }.wr fFERRY_CROSS_MIB_COPIED (n / 2 ^ 20)
        Ends (.copy item) b (if item == .words 0 [] then copyEnds b2 else installItem item b2)) ∧
      (∀ (st rev rel : Nat) (t : Tick), b.isPrimary = true → ferryState b = 8 → 1 ≤ st → st ≤ 5 →
        Ends (.status 2 st t rev rel) b
          (serveShadow st ((heard { b with fry := { b.fry with peer := some (2, st, rev, rel), missed := 0 } }).wr
            fFERRY_STAT_PEER_STATE st))) ∧
      (∀ (a v : Word) (t : Tick), b.isShadow = true →
        let b1 := heard b
        let w := BitVec.ofNat 32 (localWord (originLow b1) a.toNat v.toNat b1)
        Ends (.mirror [.write a v t]) b (takeMirror (localCount b1 t.toNat) (.write a w t) b1)) ∧
      (∀ (n : Nat) (code : BitVec 16), b.isShadow = true →
        Ends (.mirror [.dacCode n code]) b (forwardedCode n code.toNat (heard b))) ∧
      (∀ f : BitVec 7, b.isShadow = true →
        let b1 := doAbort f.toNat (heard b)
        boarding b1 = false →
        Ends (.abort f) b (setState 7
          { b1 with fry := { b1.fry with landAt := none, boardAfterAbort := b1.flag fFERRY_CTRL_AUTO_BOARD } })) ∧
      (∀ t : Tick, ferryState b = 6 →
        let b1 := heard b
        Ends (.land t) b { b1 with fry := { b1.fry with landAt := some (localCount b t.toNat, true) } }) ∧
      (∀ t : Tick, b.isShadow = true → ferryState b = 2 → b.fry.hold = none →
        let delta := (t.toNat + tideMod - b.fry.edge) % tideMod
        let h := (1024 - delta % 1024) % 1024
        (h = 0 → Ends (.align t) b (endAlign delta (heard b))) ∧
        (h ≠ 0 → Ends (.align t) b
          ({ heard b with fry := { (heard b).fry with hold := some (h, (delta + h) % tideMod) } }.wr fTIDE_STAT_RUNNING 0)))) ∧
    (∀ h d, b.fry.hold = some (h, d) → b.clk.tideHeld = false →
      Ends .alignHoldDone b (endAlign d (b.wr fTIDE_STAT_RUNNING 1))) ∧
    (∀ v, v < 1024 → b.isShadow = true → (ferryState b = 3 ∨ ferryState b = 4) → b.live v = true →
      b.fry.crossed.contains v = false →
      let b1 := { b with fry := { b.fry with crossed := b.fry.crossed ++ [v] } }.wr fFERRY_CROSS_VOICES (b.fry.crossed.length + 1)
      Ends (.voiceSweep v) b (setState (if allCrossed b1 then 5 else 4) b1)) ∧
    (b.isPrimary = true → ferryState b = 8 →
      Ends .crossingTimeout b ((setState 0 (endServing b)).raise evCROSSING_ABANDONED)) ∧
    (∀ v, v < 1024 → b.isPrimary = true → ferryState b = 8 → linked b = true → b.live v = true → slotDone b v = true →
      Ends (.voiceSweep v) b (sendVoice v (hasCrossed v b))) ∧
    (b.fry.retry = true → Ends .autoBoardRetry b (autoBoard { b with fry := { b.fry with retry := false } })) ∧
    (b.isPrimary = false → Ends .heartbeat b { b with fry := { b.fry with missed := 0, edge := b.now } }) ∧
    (b.isShadow = true →
      let b1 := (b.raise evPEER_HEARTBEAT_LOST).countUp fFERRY_HB_MISS_COUNT 1
      let b2 := { b1 with fry := { b1.fry with missed := b1.fry.missed + 1 } }
      ((b2.fry.missed < 2 ∨ mayLand b2 = false) → Ends .peerHeartbeatLost b b2) ∧
      (2 ≤ b2.fry.missed → mayLand b2 = true → b2.fry.landAt = none →
        Ends .peerHeartbeatLost b
          { b2 with fry := { b2.fry with landAt := some (b2.boundAt ((b2.now + 1) % tideMod), false) } })) ∧
    (b.tideRuns = true → b.fry.lowTicks = 0 →
      let b1 := (b.advanceTo ((b.now + 1) % tideMod)).wr fFERRY_STAT_FAULTN_IN 0
      Ends .fryFaultn b { b1 with fry := { b1.fry with lowTicks := 1, lowAt := b1.now } }) ∧
    (b.pwr.porn = false → b.tideRuns = false →
      Ends .outputGuard b (releasePins ({ b with fry := { b.fry with pulls := true } }.wr fFERRY_STAT_GUARD 1))) ∧
    (∀ l, b.fry.landAt = some (l, false) → b.hasCome l = true → b.isShadow = true →
      landBoundary b = land b.lastBound { b with fry := { b.fry with landAt := none } })

/-- The ferry's commands (R497, R507, R516, R520, R525, R526). FERRY_SET_ROLE stores the role and its ways and sends EN to roll
call, or lets the device become unpaired at the next boundary. FERRY_BOARD starts boarding, FERRY_HASH a hash, each replying at its
end; FERRY_LAND waits for its own boundary, and tells the peer where the pair is in step. FERRY_STATUS answers the ferry's registers.
The reasons where no role is held are the model's reading (notes/assumptions/34.md); that a FERRY_HASH joins the hash under way is its
choice (notes/assumptions/50.md). -/
def Obligations.FerryCommands : Prop :=
  ∀ (b : Block) (c : Cmd),
    let p := c.payload
    (b.runsNow 0x0C00 c = true → mFerrySetRole.chk p b = none →
      let fl := leAt p 3 1
      let b1 := writeFerryCtrl (2 ^ 30 * leAt p 1 1 + 2 ^ 29 * leAt p 2 1 + 2 ^ 28 * (fl % 2) + 2 ^ 27 * (fl / 2)) b
      (leAt p 0 1 = 1 → Replies (.ferrySetRole c) 0x0C00 c b .later
        (startCheck rFERRY_CTRL (some (cmdTok 0x0C00 c b)) b.now [(rFERRY_CTRL, b.word rFERRY_CTRL)] b1)) ∧
      (leAt p 0 1 = 0 →
        let b2 := clearEnable rFERRY_CTRL b1
        Replies (.ferrySetRole c) 0x0C00 c b (ok [])
          (if enabled b rFERRY_CTRL then { b2 with fry := { b2.fry with unpair := true } } else b2))) ∧
    (b.runsNow 0x0C01 c = true → b.isShadow = true → b.flag fFERRY_STAT_LINK = true → boarding b = false →
      Replies (.ferryBoard c) 0x0C01 c b .later
        (startBoarding { b with fry := { b.fry with boardTok := some (cmdTok 0x0C01 c b, b.now) } })) ∧
    (∀ i, b.takes = true → b.serving = true → cmdInfo 0x0C02 = some i → precheck i c.due p b = none →
      let tok : Tok := { op := 0x0C02, tag := c.tag.toNat, noReply := c.noReply, late := false, gen := b.proc.gen }
      (∀ r, landRefused p b = some r → Ends (.ferryLand c) b (b.finish tok b.now false (refusedWith r))) ∧
      (landRefused p b = none → ((cmdDue c).any (fun d => !b.isPast d) && decide (256 ≤ b.dueHeld)) = false →
        let planned := ferryState b == 6
        let l := landBound b planned (cmdDue c)
        let late := (cmdDue c).any b.isPast
        let b1 := { b with fry := { b.fry with
          landAt := some (l, planned), landTok := some ({ tok with late := late }, b.now)
          landTimed := (cmdDue c).any (fun d => !b.isPast d) } }
        Ends (.ferryLand c) b (if planned then sendFrame 8 (toLE 6 (b1.pairCount l)) b1 else b1))) ∧
    (b.runsNow 0x0C03 c = true →
      Replies (.ferryHash c) 0x0C03 c b .later
        { b with fry := { b.fry with hashing := some (b.fry.hashing.getD [] ++ [(cmdTok 0x0C03 c b, b.now)]) } }) ∧
    (∀ cs, b.fry.hashing = some cs →
      let h := crc32c (b.lpddrBytes (libBase b) (libSize b))
      let mib := libSize b / 2 ^ 20
      let b1 := ((b.setWord rFERRY_LIB_HASH h).setWord (rFERRY_LIB_HASH + 4) mib).wr fFERRY_STAT_HASH_VALID 1
      let b2 := { b1 with fry := { b1.fry with hashing := none, hashThenBoard := false } }
      let b3 := forL cs (fun c b => b.finish c.1 c.2 false (ok (toLE 4 h ++ toLE 4 mib))) b2
      Ends .ferryHashDone b
        (if b3.isPrimary && ferryState b3 == 8 && b3.rd fFERRY_STAT_PEER_STATE == 1 then serveShadow 1 b3 else b3)) ∧
    (b.runsNow 0x0C04 c = true →
      Replies (.ferryStatus c) 0x0C04 c b
        (ok (toLE 4 (ferryStat b) ++ words4 b [rFERRY_DELTA_LO, rFERRY_DELTA_HI, rFERRY_CROSS, rFERRY_CKSUM_FAIL, rFERRY_HB_MISS,
          rFERRY_REPLAY, rFERRY_LATE, rFERRY_OWN_DROP])) b)
end

