-- ==== Sys2Proof/Laws/Slate.lean ====
section
/-! SUPPORT. What a store to slate leaves: its bytes read back, every other byte reads as before, and the stored bytes keep their
canonical form. -/

namespace Sys2Proof.Machine

variable {b : Block} {o w k : Nat} {bs : List Byte}

/-- Byte i of a number is what its bytes list there. -/
theorem smGet_writeLE (m : List (Nat × Byte)) (n v : Nat) : ∀ k i, i < n →
    smGet (fun _ => 0) (smWriteAll (fun _ => 0) m k (toLE n v)) (k + i) = BitVec.ofNat 8 (v / 256 ^ i) := by
  induction n generalizing m v with
  | zero => intro _ _ h; exact absurd h (Nat.not_lt_zero _)
  | succ n ih =>
    intro k i h
    simp only [toLE, smWriteAll]
    cases i with
    | zero => rw [smGet_writeAll_lt _ (by omega)]; simp
    | succ i =>
      rw [show k + (i + 1) = k + 1 + i by omega, ih _ _ _ _ (by omega)]
      rw [Nat.div_div_eq_div_mul, pow_succ, Nat.mul_comm]

/-- Byte i of the number that a range holds is what the range holds there. -/
theorem ofLE_smRange (m : List (Nat × Byte)) : ∀ n i j, i < n →
    BitVec.ofNat 8 (ofLE (smRange (fun _ => 0) m j n) / 256 ^ i) = smGet (fun _ => 0) m (j + i) := by
  intro n
  induction n with
  | zero => intro _ _ h; exact absurd h (Nat.not_lt_zero _)
  | succ n ih =>
    intro i j hi
    simp only [smRange, ofLE]
    cases i with
    | zero => apply BitVec.eq_of_toNat_eq; simp; exact (smGet (fun _ => (0 : Byte)) m j).isLt
    | succ i =>
      have hb : (smGet (fun _ => (0 : Byte)) m j).toNat < 256 := (smGet (fun _ => (0 : Byte)) m j).isLt
      have h1 : ((smGet (fun _ => (0 : Byte)) m j).toNat + 256 * ofLE (smRange (fun _ => 0) m (j + 1) n)) / 256 =
          ofLE (smRange (fun _ => 0) m (j + 1) n) := by omega
      rw [show j + (i + 1) = j + 1 + i by omega, ← ih i (j + 1) (by omega), pow_succ, Nat.mul_comm (256 ^ i),
        ← Nat.div_div_eq_div_mul, h1]

/-- A byte read, whether bits of its word have flipped or not. -/
theorem slateByte_hurt_nil (h : b.slate.hurt = []) : b.slateByte k = smGet (fun _ => 0) b.slate.mem k := by
  simp [Block.slateByte, Block.damage, h, smGet]

theorem smRange_map {α : Type} (d : Nat → α) (m : List (Nat × α)) :
    ∀ n o, smRange d m o n = (List.range n).map (fun i => smGet d m (o + i)) := by
  intro n
  induction n with
  | zero => intro o; rfl
  | succ n ih =>
    intro o
    rw [smRange, ih, List.range_succ_eq_map]
    simp [Nat.add_assoc, Nat.add_comm 1]

/-- Bytes read one by one. -/
theorem slateBytes_map (n : Nat) : b.slateBytes o n = (List.range n).map (fun i => b.slateByte (o + i)) := by
  unfold Block.slateBytes
  split
  · rename_i h
    rw [smRange_map]
    simp [slateByte_hurt_nil (List.isEmpty_iff.mp h)]
  · rfl

/-- The stored bytes of a word whose bits have not flipped are the bytes read. -/
theorem byte_of_wordRead (h : b.damage (k / 8) = 0) :
    BitVec.ofNat 8 (wordRead b (k / 8) / 256 ^ (k % 8)) = smGet (fun _ => 0) b.slate.mem k := by
  have h1 : wordRead b (k / 8) = ofLE (smRange (fun _ => 0) b.slate.mem (8 * (k / 8)) 8) := by
    unfold wordRead; rw [h]; rfl
  rw [h1, ofLE_smRange _ 8 (k % 8) _ (by omega)]
  congr 1; omega

/-- A word rewritten reads as it did, and so does every other. -/
theorem rewriteWord_byte : (rewriteWord b w).slateByte k = b.slateByte k := by
  have hr : ∀ j, (rewriteWord b w).damage j = if j = w then 0 else b.damage j := by
    intro j
    unfold Block.damage rewriteWord
    split
    · rename_i h; subst h; exact smGet_erase_same
    · rename_i h; exact smGet_erase_ne h
  by_cases h : k / 8 = w
  · subst h
    have hk : 8 * (k / 8) + k % 8 = k := by omega
    have key : smGet (fun _ => 0) (rewriteWord b (k / 8)).slate.mem k = BitVec.ofNat 8 (wordRead b (k / 8) / 256 ^ (k % 8)) := by
      have := smGet_writeLE b.slate.mem 8 (wordRead b (k / 8)) (8 * (k / 8)) (k % 8) (by omega)
      rwa [hk] at this
    unfold Block.slateByte
    rw [hr, if_pos rfl, if_pos rfl, key]
    split
    · rename_i h0; exact byte_of_wordRead h0
    · rw [pow_mul, show (2 : Nat) ^ 8 = 256 from rfl]
  · have g : ∀ j, j / 8 = k / 8 → smGet (fun _ => (0 : Byte)) (rewriteWord b w).slate.mem j = smGet (fun _ => 0) b.slate.mem j := by
      intro j hj
      rcases Nat.lt_or_gt_of_ne h with hlt | hgt
      · exact smGet_writeAll_lt _ (by omega)
      · exact smGet_writeAll_ge _ (by rw [toLE_length]; omega)
    have hw : wordRead (rewriteWord b w) (k / 8) = wordRead b (k / 8) := by
      unfold wordRead
      rw [hr, if_neg h, smRange_map, smRange_map]
      rw [List.map_congr_left (g := fun i => smGet (fun _ => (0 : Byte)) b.slate.mem (8 * (k / 8) + i))
        (fun i hi => g _ (by have := List.mem_range.mp hi; omega))]
    unfold Block.slateByte
    rw [hr, if_neg h, hw, g k rfl]

/-- The words of a list rewritten: every byte reads as before, none of them is hurt, and nothing new is. -/
theorem rewriteWords (l : List (Nat × Nat)) : ∀ b : Block,
    (∀ k, (forL l (fun e b => rewriteWord b e.1) b).slateByte k = b.slateByte k) ∧
    (∀ w, (forL l (fun e b => rewriteWord b e.1) b).damage w = if w ∈ l.map (·.1) then 0 else b.damage w) ∧
    (smWf (fun _ => 0) b.slate.mem = true → smWf (fun _ => 0) (forL l (fun e b => rewriteWord b e.1) b).slate.mem = true) := by
  induction l with
  | nil => intro b; exact ⟨fun _ => rfl, fun _ => by simp [forL], id⟩
  | cons e l ih =>
    intro b
    obtain ⟨h1, h2, h3⟩ := ih (rewriteWord b e.1)
    refine ⟨fun k => (h1 k).trans rewriteWord_byte, fun w => (h2 w).trans ?_, fun h => h3 (smWf_writeAll _ h)⟩
    by_cases hl : w ∈ l.map (·.1)
    · rw [if_pos hl, if_pos (by simp only [List.map_cons, List.mem_cons]; exact Or.inr hl)]
    · rw [if_neg hl]
      unfold Block.damage rewriteWord
      by_cases he : w = e.1
      · subst he; rw [if_pos (by simp)]; exact smGet_erase_same
      · rw [if_neg (by simp only [List.map_cons, List.mem_cons]; exact fun h => h.elim he hl)]; exact smGet_erase_ne he

theorem logJournal_slate {a v : Nat} : (logJournal a v b).slate = b.slate := by unfold logJournal; split <;> rfl

/-- The slate after a store: the touched words that had flipped bits rewritten, then the bytes written. -/
theorem setSlate_slate : (b.setSlate o bs).slate =
    let b1 := forL (b.slate.hurt.filter (fun e => decide (o < 8 * e.1 + 8) && decide (8 * e.1 < o + bs.length)))
      (fun e b => rewriteWord b e.1) b
    { b1.slate with mem := smWriteAll (fun _ => 0) b1.slate.mem o bs } := by
  unfold Block.setSlate
  dsimp only
  split
  · have key : ∀ (l : List Nat) (b : Block), (l.foldl (fun (b : Block) i =>
      if b.fry.copyBanks.contains ((o / 4 * 4 + 4 * i) / 2 ^ 19) then
        logJournal (0x02000000 + (o / 4 * 4 + 4 * i)) (ofLE (b.slateBytes (o / 4 * 4 + 4 * i) 4)) b else b) b).slate = b.slate := by
      intro l
      induction l with
      | nil => intro b; rfl
      | cons x l ih =>
        intro b
        simp only [List.foldl_cons, ih]
        split
        · exact logJournal_slate
        · rfl
    exact key _ _
  · rfl

/-- A store keeps the canonical form of the stored bytes. -/
theorem setSlate_wf (h : smWf (fun _ => 0) b.slate.mem = true) : smWf (fun _ => 0) (b.setSlate o bs).slate.mem = true := by
  rw [setSlate_slate]; exact smWf_writeAll _ ((rewriteWords _ b).2.2 h)

/-- A word that is not listed has no flipped bits. -/
theorem damage_unlisted (h : ∀ e ∈ b.slate.hurt, e.1 ≠ w) : b.damage w = 0 := by
  unfold Block.damage
  generalize b.slate.hurt = l at h
  induction l with
  | nil => rfl
  | cons e l ih =>
    rw [smGet, if_neg (h e (List.mem_cons_self ..)), ih (fun e he => h e (List.mem_cons_of_mem _ he))]

/-- Where a store reaches, its word has no flipped bits; elsewhere every byte reads as before. -/
theorem setSlate_byte :
    (o ≤ k → k < o + bs.length → (b.setSlate o bs).slateByte k = smGet (fun _ => 0) (b.setSlate o bs).slate.mem k) ∧
    (k < o ∨ o + bs.length ≤ k → (b.setSlate o bs).slateByte k = b.slateByte k) := by
  let touched := b.slate.hurt.filter (fun e => decide (o < 8 * e.1 + 8) && decide (8 * e.1 < o + bs.length))
  let b1 := forL touched (fun e b => rewriteWord b e.1) b
  obtain ⟨h1, h2, -⟩ := rewriteWords touched b
  have hs : (b.setSlate o bs).slate = { b1.slate with mem := smWriteAll (fun _ => 0) b1.slate.mem o bs } := setSlate_slate
  have hd : ∀ w, (b.setSlate o bs).damage w = b1.damage w := fun w => by unfold Block.damage; rw [hs]
  have hn : ∀ w, o < 8 * w + 8 → 8 * w < o + bs.length → b1.damage w = 0 := by
    intro w hw hw'
    rw [h2]
    split
    · rfl
    · rename_i hm
      refine damage_unlisted fun e he hew => hm ?_
      exact List.mem_map.mpr ⟨e, List.mem_filter.mpr ⟨he, by simp [hew, hw, hw']⟩, hew⟩
  refine ⟨fun ho hk => ?_, fun hk => ?_⟩
  · unfold Block.slateByte
    rw [hd, hn _ (by omega) (by omega), if_pos rfl]
  · have ho : ∀ j, (j < o ∨ o + bs.length ≤ j) →
        smGet (fun _ => (0 : Byte)) (b.setSlate o bs).slate.mem j = smGet (fun _ => 0) b1.slate.mem j := by
      intro j hj
      rw [hs]
      rcases hj with hj | hj
      · exact smGet_writeAll_lt _ hj
      · exact smGet_writeAll_ge _ hj
    rw [← h1 k]
    unfold Block.slateByte
    rw [hd]
    split
    · exact ho k hk
    · rename_i h0
      have hout : ∀ j, j / 8 = k / 8 → (j < o ∨ o + bs.length ≤ j) := by
        intro j hj
        by_contra hc
        exact h0 (hn _ (by omega) (by omega))
      have : wordRead (b.setSlate o bs) (k / 8) = wordRead b1 (k / 8) := by
        unfold wordRead
        rw [hd, smRange_map, smRange_map]
        rw [List.map_congr_left (g := fun i => smGet (fun _ => (0 : Byte)) b1.slate.mem (8 * (k / 8) + i))
          (fun i hi => ho _ (hout _ (by have := List.mem_range.mp hi; omega)))]
      rw [this]

/-- Bytes stored read back. -/
theorem setSlate_reads : (b.setSlate o bs).slateBytes o bs.length = bs := by
  rw [slateBytes_map, List.map_congr_left (g := fun i => smGet (fun _ => (0 : Byte)) (b.setSlate o bs).slate.mem (o + i))
    (fun i hi => setSlate_byte.1 (by omega) (by have := List.mem_range.mp hi; omega)), ← smRange_map, setSlate_slate]
  exact smRange_writeAll _

end Sys2Proof.Machine
end

