-- ==== Sys2Proof/Tests/Slice0.lean ====
section
/-! SUPPORT. Tests of the model on small states, their expected values taken from the rules named, and for every statement with
hypotheses a state and operands that meet them. -/

namespace Sys2Proof.Tests

set_option Elab.async false

open Sys2Proof Sys2Proof.Machine

/-! ### States and commands to test with -/

/-- Sildacen serves in STANDBY, every domain on, the fuses loaded, clocks proven and locked, LPDDR5 trained, everything
granted, the Tide running at its boundary of count 0. -/
def up : Block :=
  { State.reset.blk with
    regs := [(8, 770), (12, 229375), (65540, 258999311), (65600, 16383), (131088, 2147484672), (720920, 2147483648),
      (851968, 2147483648)]
    host := { HostPort.reset with ready := true, hbusy := false }
    fry := { Ferry.reset with pulls := false }
    pwr := { Power.reset with porn := false, fusesLoaded := true } }

/-- Register fields stored one after the other. -/
def sets (fs : List (Fld × Nat)) (b : Block) : Block := fs.foldl (fun x f => x.wr f.1 f.2) b

def bytes (ns : List Nat) : List Byte := ns.map (BitVec.ofNat 8)

/-- A command without a due time. -/
def cmd (ns : List Nat) : Cmd :=
  { tag := 7, noReply := false, urgent := false, due := false, dueTime := 0, payload := bytes ns }

/-- A command whose due time is one tick past at count 0, which takes effect at once (R64). -/
def late (ns : List Nat) : Cmd := { cmd ns with due := true, dueTime := 0xFFFFFFFFFFFF }

/-- Zeros of a payload. -/
def z (n : Nat) : List Nat := List.replicate n 0

def play : Block := up.wr fHIF_STATUS_MODE mPLAY
def asPrimary : Block := play.wr fHIF_STATUS_FERRY_ROLE 1
/-- A shadow in a state of its boarding, its link up. -/
def shadowAt (state : Nat) : Block :=
  sets [(fHIF_STATUS_FERRY_ROLE, 2), (fFERRY_STAT_LINK, 1), (fFERRY_STAT_STATE, state)] play

/-! ### Operands that name no unit of the part are refused -/

theorem test_wf_lane : (Instr.slotStart 16).wf = false ∧ (Instr.slotStart 15).wf = true := by decide
theorem test_wf_table : (Instr.retiringBanksReturn 128).wf = false ∧ (Instr.retiringBanksReturn 127).wf = true := by decide
theorem test_wf_part : (Instr.write 0 [] 4).wf = false ∧ (Instr.i2cWrite 0 0 [] 4).wf = false ∧ (Instr.write 0 [] 3).wf = true := by
  decide
theorem test_wf_voice : (Instr.voiceArm 1024).wf = false ∧ (Instr.handOff 1024).wf = false ∧ (Instr.voiceSweep 1024).wf = false := by
  decide
theorem test_wf_core : (Instr.passStart 4).wf = false ∧ (Instr.sha 4).wf = false ∧ (Instr.bdspIrq 4 0).wf = false ∧
    (Instr.handlerComplete ⟨8, none⟩).wf = false := by decide
theorem test_wf_slate : (Instr.slateAccess 10 0 .read32 noMeet 0).wf = false ∧
    (Instr.slateAccess 1 0x2000000 .read32 noMeet 0).wf = false ∧ (Instr.atomicAdd 10 0 0 noMeet).wf = false ∧
    (Instr.ownerChange 64).wf = false := by decide
theorem test_wf_tide : (Instr.tideLoRead 3).wf = false ∧ (Instr.tideCmp 16).wf = false ∧ (Instr.pulseEnd 8).wf = false ∧
    (Instr.compareWriteArrive 1).wf = false ∧ (Instr.compareWriteArrive 4).wf = false ∧ (Instr.tideCapLoRead 8 0).wf = false := by
  decide
theorem test_wf_clock : (Instr.sourceProven 4).wf = false ∧ (Instr.pllLock 3).wf = false ∧
    (Instr.monitorWindow 4096 0 0).wf = false := by decide
theorem test_wf_ports : (Instr.serTxCharacter 5).wf = false ∧ (Instr.midiMessage 4).wf = false ∧ (Instr.beacon 2).wf = false ∧
    (Instr.usbSetInterface 256 0).wf = false := by decide
theorem test_wf_audio : (Instr.dacFault 8).wf = false ∧ (Instr.tdmFrameErr 6).wf = false ∧ (Instr.asrcLock 2).wf = false ∧
    (Instr.tdmInputSample 2 0 0).wf = false ∧ (Instr.tdmSlaveFs 4).wf = false ∧ (Instr.spdifLock 262144 false).wf = false := by
  decide
theorem test_wf_power : (Instr.domainPowerGood 14).wf = false ∧ (Instr.pdFault 14).wf = false ∧
    (Instr.eventPendingClear 7 ⟨0, 0⟩).wf = false ∧ (Instr.lineTapArrive 0 8 0).wf = false := by decide
/-- An ill-formed command is refused by name. -/
theorem test_wf_refused : exec (.slotStart 16) State.reset = .refused .illFormed := rfl

/-! ### Witnesses: the queue, registers and host ports -/

theorem witness_StepTakesTheFrontCommand : up.tideRuns = true ∧ State.reset.blk.tideRuns = false := by decide +kernel

theorem witness_EveryCommandAnswers : (Instr.slotStart 15).wf = true ∧ (Instr.slotStart 16).wf = false := by decide

theorem witness_EveryStepKeepsLevelsAndHeldSources : ∃ t, step State.reset = .next t := ⟨_, rfl⟩

/-- A register with fields of each access code that has one: HIF_GRANT, HIF_HOST_STAT, HIF_ID, MIX_CLIP_COUNT. -/
theorem witness_RegisterWriteFollowsAccessCodes :
    (regAt rHIF_GRANT).isSome = true ∧ (regAt rHIF_HOST_STAT).any (fun r => r.1.fields.any (·.acc == .w1c)) = true ∧
    (regAt rHIF_ID).any (fun r => r.1.fields.any (·.acc == .ro)) = true ∧
    (regAt rMIX_CLIP_COUNT).any (fun r => r.1.fields.any (·.acc == .rc)) = true ∧
    (regAt rMIX_CTRL).any (fun r => r.1.fields.any (·.acc == .rw)) = true := by decide +kernel

theorem witness_FieldHoldsWhatWasStored :
    fHIF_STATUS_MODE.lo ≤ fHIF_STATUS_MODE.hi ∧ fHIF_STATUS_MODE.hi < 32 ∧ fHIF_HOST_CFG_DUMMY.addr ≠ fHIF_STATUS_MODE.addr ∧
    fHIF_STATUS_MODE.hi < fHIF_STATUS_PROCTOR_RUN.lo ∧ fHIF_STATUS_PROCTOR_RUN.hi < 32 := by decide

theorem witness_MemoryReadsBackWhatWasWritten : (4 : Nat) < 5 ∧ 5 + ([1] : List Byte).length ≤ 6 := by decide

theorem witness_MemoriesStayCanonical :
    up.regsWf = true ∧ smWf (fun _ => (0 : Byte)) up.proc.mbx = true ∧ smWf (fun _ => (0 : Byte)) up.slate.mem = true ∧
    smWf (fun _ => (0 : Byte)) up.slate.lpddr = true ∧ smWf flashErased up.pwr.flash = true := by decide +kernel

/-- R43: with DUMMY 16, 80 ns of a register read take 16 cycles of 5 ns; a cycle of 4 ns is too short. The IRC has failed: a register
and an LPDDR5 word read. -/
theorem witness_OctalSpiTransactions :
    let lost := { up with clk := { up.clk with backupOsc := true } }
    lost.host.ready = true ∧ lost.clk.backupOsc = true ∧ (0x68000 : Word).toNat / 4 * 4 < 0xF0000 ∧
    accessPs 0x68000 ≤ (openTxn lost).rd fHIF_HOST_CFG_DUMMY * 5000 ∧ isRegisterWord ((0x80000000 : Word).toNat / 4 * 4) = false ∧
    accessPs 0x80000000 ≤ (openTxn lost).rd fHIF_HOST_CFG_DUMMY * 50000 ∧
    up.host.ready = true ∧ accessPs 0x68000 ≤ (openTxn up).rd fHIF_HOST_CFG_DUMMY * 5000 ∧
    (openTxn up).rd fHIF_HOST_CFG_DUMMY * 4000 < accessPs 0x68000 ∧ (0xAA : Byte).toNat ∉ [0x02, 0x0B, 0x05, 0x9F, 0xFF] ∧
    (openTxn up).host.txn = some ⟨0, false, none⟩ ∧
    up.clk.backupOsc = false ∧ (openTxn up).host.txn.bind (·.part) = none ∧
    ({ up with host := { up.host with txn := some ⟨0, false, some 0x68000⟩ } }.host.txn.bind (·.part)) = some 0x68000 := by
  decide +kernel

theorem witness_WordsEnterTheBufferOrAreReported :
    portsServe up = true ∧ up.host.txn = none ∧ (0x68000 : Word).toNat / 4 * 4 = 0x68000 ∧
    granted up 0x68000 = true ∧ granted up 0xEFFFC = true ∧ up.host.wbuf.length + 2 ≤ 64 ∧
    granted State.reset.blk 0x68000 = false ∧ unmapped up 0x1000 = false ∧
    notHosts (up.wr fHIF_DOORBELL_IN_RING 1) 0x1000 = true ∧ notHosts up 0x1000 = false ∧ granted up 0x1000 = true ∧
    ({ up with host := { up.host with wbuf := List.replicate 64 ⟨0x68000, 0, 0⟩ } }.host.wbuf.length = 64) := by
  decide +kernel

theorem witness_I2cTransactions :
    portsServe up = true ∧ (up.rd fHIF_I2C_ADDR_ADDR < 128) ∧
    (i2cWords 0 0x68000 [1, 2] up).1 = true ∧ (i2cWords 0 0x68000 [1, 2] (up.setWord rHIF_GRANT 1)).1 = false := by decide +kernel

/-- A single word to an empty buffer; one that waits behind another; an enable whose own check runs, and whose block's other check
does; the retirement of a word. -/
theorem witness_HostWordTakesEffect :
    let waits := { up with host := { up.host with wbuf := [⟨0x68000, 0, 0⟩] } }
    let own := { up with proc := { up.proc with checks := [⟨rUSB_CTRL, none, 0, [], 0, true⟩] } }
    portsServe up = true ∧ arrivalError 0x68000 up = none ∧ arrivalError 0x68000 waits = none ∧ waits.host.wbuf ≠ [] ∧
    waits.host.ready = true ∧ waits.clk.backupOsc = false ∧ (storeWord rUSB_CTRL 0 own).proc.checks.head?.any (·.addr == rUSB_CTRL) = true ∧
    own.hostMay rUSB_CTRL = true ∧ checking own rUSB_CTRL = true ∧ checking up rUSB_CTRL = false ∧ up.proc.checks.head?.isNone = true ∧
    up.hostMay 0x68000 = true ∧ (up.isPrimary && isMirrored 0x68000) = false ∧
    (asPrimary.isPrimary && isMirrored 0x20000) = false ∧ isEnable rUSB_CTRL = true ∧ up.hostMay rUSB_CTRL = true ∧
    bit 0 31 = false ∧ bit 0x80000000 31 = true ∧ up.hostMay 0x1000 = true ∧ hostOwns up 0 = true ∧ up.hostMay 0x1FFC = true ∧
    hostOwns (up.wr fHIF_DOORBELL_OUT_READY 128) 15 = true ∧ up.hostMay rHIF_DOORBELL_IN = true ∧
    up.hostMay rHIF_DOORBELL_OUT = true ∧ up.hostMay 0x40 = true ∧ up.hostMay 0x58 = true := by decide +kernel

/-- LPDDR5 of 1 GiB, its first and last word; a bank of slate that the host owns. -/
theorem witness_WindowAccesses :
    let lp := { up with clk := { up.clk with memSize := 1 } }
    let mine := up.wr (fSLATE_OWNER_OWNER.at 0) rqHOST
    up.isPrimary = false ∧ portsServe lp = true ∧ lp.host.wbuf = [] ∧ portsServe mine = true ∧
    mine.flag fSLATE_STAT_FUSE_DONE = true ∧ borrowed mine (bankOf 0) = false ∧ lpddrAt lp 0x80000000 = some 0 ∧ granted lp 0x80000000 = true ∧
    lpddrAt lp 0xBFFFFFFC = some 0x3FFFFFFC ∧ granted mine 0x02000000 = true ∧ slateMay mine rqHOST (bankOf 0) = true ∧
    (1 : DWord).toNat ≠ mergedWord mine 0 0 := by decide +kernel

/-! ### Witnesses: mailboxes, abort, roll call, modes -/

theorem witness_ReplyReachesTheLowestFreeMailbox :
    up.proc.replies = [] ∧ up.freeReply = some 0 ∧ (up.wr fHIF_DOORBELL_OUT_READY 127).freeReply = some 7 ∧
    (up.wr fHIF_DOORBELL_OUT_READY 255).freeReply = none := by decide +kernel

/-- TIDE_GET too long, BIST_RESULT in FAULT refused by no check, MON_CONFIG with reserved bytes, a due time that PING does not take. -/
theorem witness_CommandsAreCheckedAndHeld :
    up.takes = true ∧ up.serving = true ∧ (cmdInfo 0x0A10).isSome = true ∧
    (cmdInfo 0x0A10).any (fun i => precheck i false (bytes [1]) up == some .badLength) = true ∧
    (cmdInfo 0x0A10).any (fun i => i.lengthOk (bytes [1]) == false) = true ∧ up.mode ≠ mFAULT ∧
    (cmdInfo 0x0D02).any (fun i => i.lengthOk (bytes (z 4)) && i.zerosOk (bytes (z 4)) && !i.due) = true ∧
    (cmdInfo 0x0D03).any (fun i => i.lengthOk (bytes (z 16)) && !i.zerosOk (bytes (0 :: 1 :: z 14))) = true ∧
    (cmdInfo 0x0A10).any (fun i => precheck i false (bytes (z 4)) up == none) = true ∧
    (cmdInfo 0x0A10).any (fun i => precheck i false (bytes [1, 0, 0, 0]) up == none) = true ∧
    mPowerSet.chk (bytes [1, 0, 0, 0]) up = some .badField ∧
    (cmdInfo 0x0142).any (fun i => precheck i false (bytes (z 4)) up == none && up.waits i none) = true ∧ up.isPrimary = false ∧
    up.dueHeld < 256 ∧
    (cmdInfo 0x0142).any (fun i => up.waits i (cmdDue { cmd (z 4) with due := true, dueTime := 5000 })) = true ∧
    { up with proc := { up.proc with held := List.replicate 256 ⟨cmdTok 0 (cmd []) up, 5000, [], true, 0⟩ } }.dueHeld = 256 ∧
    (meaningOf 0x0140).isSome = true ∧ (cmdInfo 0x0140).any (fun i => precheck i false [] up == some .badLength) = true ∧
    (cmdInfo 0x0140).any (fun i => precheck i false (bytes (z 4)) up == none) = true ∧ mSetTuning.again = true ∧
    mSetTuning.chk (bytes (z 4)) up = some .badField ∧ mSetTuning.chk (bytes [0, 0, 0xB8, 1]) up = none := by
  decide +kernel

/-- A PING in MB0; POST_EVENTS of one WORK record with no descriptor left, and with some. -/
theorem witness_SystemCommandResults :
    let rung := { up with proc := { up.proc with rung := [0] } }
    let bad := rung.putMbx 0 (bytes [0xFF, 0xFF])
    let work := cmd (16 :: z 23)
    rung.takes = true ∧ nextRung rung = some 0 ∧ headerRefusal rung (mbxHeader rung 0) = none ∧
    headerRefusal bad (mbxHeader bad 0) = some .badOpcode ∧
    up.runsNow 0x0000 (cmd [1, 2, 3]) = true ∧ up.runsNow 0x0001 (cmd []) = true ∧ up.runsNow 0x0003 work = true ∧
    (offerAll (hostRecords work.payload) 0 up).1 = 1 ∧ (hostRecords work.payload).length = 1 ∧
    up.runsNow 0x0004 (cmd [2, 0, 0, 0]) = true ∧ Nat.land 2 0x37FFF = 2 ∧
    Nat.land 2 (Nat.lor (Nat.lor 1 (grantable up)) (up.word rHIF_GRANT)) = 2 ∧
    (let s := State.reset.blk.setWord rHIF_GRANT 1
     Nat.land 0x20000 (Nat.lor (Nat.lor 1 (grantable s)) (s.word rHIF_GRANT)) ≠ 0x20000) ∧
    up.runsNow 0x0005 (cmd (z 8)) = true ∧ isEnable rUSB_CTRL = true ∧ enabled up rUSB_CTRL = false ∧
    up.runsNow 0x0005 (cmd [0, 0, 5, 0, 0, 0, 0, 0x80]) = true ∧ leAt (bytes [0, 0, 5, 0, 0, 0, 0, 0x80]) 0 4 = rUSB_CTRL ∧
    bit (leAt (bytes [0, 0, 5, 0, 0, 0, 0, 0x80]) 4 4) 31 = true := by decide +kernel

theorem witness_AbortFunctionsStart : up.hostMay rHIF_ABORT = true ∧ (0x5A : Byte) ≠ 0xA5 := by decide +kernel

theorem witness_AbortDoneEndsTheSequence :
    let b := { up with proc := { up.proc with abortOwed := true } }
    b.proc.abortOwed = true ∧ abortActive b = 0 := by decide +kernel

/-- A check that runs for an enable. -/
def inCheck (a : Nat) : Block := { up with proc := { up.proc with checks := [⟨a, none, 0, [], 0, true⟩] } }

theorem witness_RollCallEndsTheCheck :
    (inCheck rMON_CFG_LAT).serving = true ∧ (inCheck rMON_CFG_LAT).proc.checks = [⟨rMON_CFG_LAT, none, 0, [], 0, true⟩] ∧
    verdict rMON_CFG_LAT (noteChecks up) = none ∧ verdict rFERRY_CTRL (noteChecks up) = some .notInMode ∧
    rUSB_CTRL ≠ rROLLCALL_REASON ∧ rUSB_CTRL ≠ rROLLCALL_ADDR := by decide +kernel

theorem witness_BoundaryWorkRunsInOrder :
    let h := { up with proc := { up.proc with held := [⟨cmdTok 0 (cmd []) up, up.nextBound, [], false, 0⟩] } }
    let m := { up with pwr := { up.pwr with changes := [⟨mLISTEN, 1, 0, 0, none, false, false, none⟩] } }
    up.tideRuns = true ∧ earliestHeld h = some h.nextBound ∧
    m.pwr.changes.any (fun c => changeReady m c && (m.hasCome c.due || m.nextBound == m.boundAt c.due)) = true := by decide +kernel

/-- SET_MODE from STANDBY: to BOOT refused, to STANDBY the mode in use, to LISTEN taken. -/
theorem witness_SetModeIsJudgedAndTaken :
    let f := up.foreseen (modeDue none up)
    up.takes = true ∧ up.serving = true ∧ (cmdInfo 0x0002).any (fun i => precheck i false (bytes [3, 1, 0, 0]) up == none) = true ∧
    f.modeRefusal mBOOT 1 0 0 = some .badField ∧ f.modeRefusal mSTANDBY 1 0 0 = none ∧ f.sameMode mSTANDBY 1 0 = true ∧
    f.modeRefusal mLISTEN 1 0 0 = none ∧ f.sameMode mLISTEN 1 0 = false ∧ up.dueHeld < 256 ∧ up.leads = false := by decide +kernel

theorem witness_ModeTransitions :
    up.isShadow = false ∧ up.flag fFERRY_CTRL_EN = false ∧ up.flag fCPR_CLK_STAT_FALLBACK = false ∧ isPlaying mFULL = true ∧
    clockListed mFULL 1 0 = true ∧ rateListed mFULL 1 = true ∧ 1 % 2 ≠ up.rd fCPR_APLL_CFG_FAMILY ∧
    up.sameMode mFULL 1 0 = false ∧ mSTANDBY ≤ mFULL ∧ mFULL ≤ mSELFTEST ∧ isPlaying mLISTEN = false ∧
    up.sameMode mLISTEN 1 0 = false ∧ play.modeRefusal mSELFTEST 1 0 0 ≠ none := by decide +kernel

/-! ### Witnesses: power, resets, boot, update, clocks -/

theorem witness_PowerEvents :
    bit { up with pwr := { up.pwr with rising := 2 ^ 13 } }.pwr.rising 13 = true ∧ bit { up with pwr := { up.pwr with rising := 1 } }.pwr.rising 0 = true ∧
    up.pwr.porn = false ∧ (up.on 2 || bit up.pwr.rising 2) = true ∧ (up.on 13 || bit up.pwr.rising 13) = true ∧
    { up with pwr := { up.pwr with training := true } }.pwr.training = true ∧ up.rdS fCPR_THERM_TEMP < 115 ∧
    115 ≤ (up.wr fCPR_THERM_TEMP 115).rdS fCPR_THERM_TEMP := by decide +kernel

theorem witness_ResetsAndWatchdog :
    let w (n : Nat) : Block := { up with pwr := { up.pwr with wdogArmed := true, wdog := n } }
    State.reset.blk.pwr.porn = true ∧ up.pwr.porn = false ∧ up.runsNow 0x0006 (cmd [0, 0, 0, 0]) = true ∧
    up.runsNow 0x0006 (cmd [1, 0, 0, 0]) = true ∧ up.runsNow 0x0006 (cmd [2, 0, 0, 0]) = true ∧
    (w 0).pwr.wdogArmed = true ∧ (w 0).pwr.wdog = 0 ∧ (w 1).pwr.wdog ≠ 0 ∧ (w 1).flag fCPR_RST_CFG_WDOG_SYS = false ∧
    ((w 1).wr fCPR_RST_CFG_WDOG_SYS 1).flag fCPR_RST_CFG_WDOG_SYS = true ∧ up.slate.slice = none := by decide +kernel

theorem witness_PowerCommands :
    up.runsNow 0x0A10 (cmd [0x80, 0x3F, 0, 0]) = true ∧ leAt (bytes [0x80, 0x3F, 0, 0]) 0 4 = 127 * 2 ^ 7 ∧
    heldBack up 127 = [] ∧ up.runsNow 0x0A11 (cmd []) = true ∧ up.hostMay rCPR_PD_OPT = true := by decide +kernel

/-- The boot ROM serves the host: BOOT_DONE 0, ROM_STATE 1. -/
theorem witness_BootSequence :
    let waits := { up with pwr := { up.pwr with fusesLoaded := false } }
    let down := up.wr fHIF_STATUS_BOOT_DONE 0
    let rom := down.wr fCPR_BOOT_STAT_ROM_STATE 1
    waits.pwr.porn = false ∧ waits.pwr.fusesLoaded = false ∧ proven waits 0 = true ∧ down.pwr.sysrst = false ∧ down.on dCORE = true ∧
    down.host.ready = true ∧ down.flag fHIF_STATUS_BOOT_DONE = false ∧ rom.takes = true ∧ rom.romServing = true ∧
    rom.mode ≠ mFAULT ∧ (cmd (z 8)).due = false ∧ (bytes (z 8)).length = 8 ∧ (bytes (z 236)).length % 4 = 0 ∧
    leAt (bytes (z 8)) 0 4 + 4 ≤ 2 ^ 19 ∧ (bytes (z 104)).length = 104 := by decide +kernel

theorem witness_FirmwareUpdates :
    let upd (s : Nat) (w : Option (Tok × List Byte)) (d : Option (List Byte)) : Block :=
      { up.wr fHIF_STATUS_MODE mUPDATE with pwr := { up.pwr with update := ⟨s, 0x1000, 2, 1, w, d⟩ } }
    let usb (b : Block) : Block := b.wr fUSB_CTRL_EN 1
    let tok (op : Nat) : Tok := cmdTok op (cmd []) up
    up.runsNow 0x0F00 (cmd [0, 16, 0, 0]) = true ∧ mUpdateBegin.chk (bytes [0, 16, 0, 0]) up = none ∧
    writing (upd 2 none none) = true ∧ (upd 2 none none).pwr.update.waiting = none ∧
    (upd 2 none none).runsNow 0x0F01 (cmd (z 8)) = true ∧ 0 + 4 ≤ (upd 2 none none).pwr.update.length ∧
    (upd 2 none none).runsNow 0x0F02 (cmd (z 104)) = true ∧
    (upd 1 (some (tok 0x0F00, [])) none).pwr.update.waiting = some (tok 0x0F00, []) ∧ (tok 0x0F01).op = 0x0F01 ∧
    (tok 0x0F02).op = 0x0F02 ∧ (upd 4 none none).runsNow 0x0F03 (late []) = true ∧ (upd 4 none none).mode = mUPDATE ∧
    (upd 4 none none).runsNow 0x0F04 (cmd []) = true ∧ (upd 4 none none).pwr.changes = [] ∧ up.runsNow 0x0F05 (cmd []) = true ∧
    usbOn (usb up) = true ∧ (usb up).serving = true ∧
    ((usb up).flag fFERRY_CTRL_EN || (usb up).mode == mBOOT || (usb up).mode == mSELFTEST || (usb up).mode == mFAULT ||
      (usb up).pwr.update.waiting.isSome) = false ∧
    (usb (up.wr fHIF_STATUS_MODE mFAULT)).mode = mFAULT ∧ (usb up).pwr.update.dfu = none ∧
    (usb (upd 0 none (some []))).pwr.update.dfu = some [] ∧ (bytes (z 103)).length < 104 ∧
    lengthOk (usb (upd 0 none (some []))) 0x1000 = true ∧ 4096 < (bytes (z 4097)).length ∧
    (usb (upd 2 none (some []))).pwr.update.state = 2 := by decide +kernel

theorem witness_ClockEventsAndLocks :
    let raw := up.wr fCPR_CLK_STAT_OK 0
    let on := sets [(fCPR_CLK_CFG_XA_MODE, 1), (fCPR_CLK_CFG_XB_MODE, 1), (fCPR_CLK_CFG_MCLK_EN, 1)] raw
    let open_ := up.wr fCPR_CLK_STAT_LOCK 0
    let held := { on with clk := { on.clk with fbHeld := [1] } }
    up.pwr.porn = false ∧ sourceOn on 0 = true ∧ sourceOn on 1 = true ∧ sourceOn on 3 = true ∧ proven on 0 = false ∧
    proven on 3 = false ∧ on.clk.fbHeld = [] ∧ held.clk.fbHeld = [1] ∧
    pllsOn (held.setActRef 0 0) 1 ≠ [] ∧ (Instr.monitorWindow 4095 0 0).wf = true ∧
    (on.clk.windowTainted || !proven on 0) = true ∧ (up.clk.windowTainted || !proven up 0) = false ∧ locked up 0 = true ∧
    locked up 2 = true ∧ bit ((up.setHold 0 true).rd fCPR_CLK_STAT_HOLD) 2 = true ∧ up.clk.fbWait.contains 0 = false ∧
    locked open_ 0 = false ∧ proven open_ (sourceOf 0 (actRef open_ 0)) = true ∧ proven open_ (sourceOf 2 (actRef open_ 2)) = true ∧
    open_.on dCORE = true ∧ open_.clk.clearing = [] ∧ open_.clk.tideHeld = false ∧ open_.clk.fbWait = [] ∧ open_.clk.waiting = [] ∧
    ({ open_ with clk := { open_.clk with fbWait := [2] } }.clk.fbWait = [2]) := by decide +kernel

theorem witness_ClockRegistersAndCommands :
    let fell := { up.wr fCPR_CLK_STAT_FALLBACK 1 with clk := { up.clk with before := some (4, 1, 1) } }
    let back := { up.wr fCPR_CLK_STAT_FALLBACK 1 with clk := { up.clk with before := some (0, 0, 0) } }
    up.hostMay rCPR_IRC_TRIM = true ∧ up.flag fCPR_CLK_STAT_FALLBACK = false ∧ up.hostMay rCPR_CLK_CFG = true ∧
    (up.put rCPR_CLK_CFG 0).flag fCPR_CLK_STAT_FALLBACK = false ∧ (fell.put rCPR_CLK_CFG 0).flag fCPR_CLK_STAT_FALLBACK = true ∧
    up.hostMay rCPR_APLL_CFG = true ∧ (up.put rCPR_APLL_CFG 1).rd fCPR_APLL_CFG_FAMILY ≠ up.rd fCPR_APLL_CFG_FAMILY ∧
    (up.put rCPR_APLL_CFG 0).rd fCPR_APLL_CFG_FAMILY = up.rd fCPR_APLL_CFG_FAMILY ∧
    up.runsNow 0x0A00 (late (z 12)) = true ∧ mClockSetRef.chk (bytes (z 12)) up = none ∧ back.runsNow 0x0A01 (late []) = true ∧
    back.clk.before = some (0, 0, 0) ∧ proven back (sourceOf 0 0) = true ∧ proven back (sourceOf 1 0) = true ∧
    proven back (sourceOf 2 0) = true ∧ up.runsNow 0x0A02 (cmd []) = true ∧ up.runsNow 0x0A03 (cmd (z 4)) = true ∧
    (up.setOn dMEM false).on dMEM = false ∧ regWordOk rCPR_MEM_CFG 0 = true := by decide +kernel

/-! ### Witnesses: the Tide, test and health -/

theorem witness_TideCountsAndReads :
    let stands := up.wr fTIDE_STAT_RUNNING 0
    bit (stands.rd fCPR_CLK_STAT_LOCK) 2 = true ∧ stands.on dCORE = true ∧ stands.flag fTIDE_STAT_RUNNING = false ∧
    up.tideRuns = true ∧ (2 : Nat) ≠ 0 := by decide +kernel

/-- Channels 0 and 15 with a value ahead; a value reached whose comparator is fresh does not match again. -/
theorem witness_ComparesAndCaptures :
    let c0 := (up.setCmpV 0 1000).wr (fTIDE_CMP_CTRL_EN.at 0) 1
    let c15 := (up.setCmpV 15 0).wr (fTIDE_CMP_CTRL_EN.at 15) 1
    let p := up.setPin 7 (fun p => { p with ends := [40] })
    let ending := up.setPin 7 (fun p => { p with ends := [0] })
    let held := { c0 with tide := { c0.tide with cmpHold := [⟨0, c0.now, [0, 0, 0x80000000, 0], [0]⟩] } }
    let od (latch : Nat) : Block := sets [(fTIO_CFG_MODE.at 7, 1), (fTIO_CFG_OD.at 7, 1), (fTIO_CFG_LATCH.at 7, latch)] up
    let w := { up with tide := { up.tide with cmpWrites := [⟨rTIDE_CMP_LO, 5, 0⟩] } }
    let cap (rise : Nat) : Block :=
      { sets [(fTIDE_CAP_CFG_EN.at 7, 1), (fTIDE_CAP_CFG_EDGE.at 7, rise)] up with
        tide := { up.tide with caps := up.tide.caps.set 7 { level := false, since := some 3, landed := none } } }
    c0.flag (fTIDE_CMP_CTRL_EN.at 0) = true ∧ cmpFresh c0 0 = false ∧ c0.tideRuns = true ∧
    c15.flag (fTIDE_CMP_CTRL_EN.at 15) = true ∧ cmpFresh c15 15 = false ∧
    (cmpHeld held 0).isSome = true ∧ held.flag (fTIDE_CMP_CTRL_EN.at 0) = true ∧ cmpV held 0 ≠ held.now ∧
    (cmpHeld held 0).any (fun h => (setCmpWords 0 h.old held).flag (fTIDE_CMP_CTRL_EN.at 0) &&
      cmpV (setCmpWords 0 h.old held) 0 == held.now && h.fresh.contains 0 && !h.fresh.contains 1) = true ∧
    nextOf p (p.tioPin 7).ends = some 40 ∧ p.hasCome 40 = false ∧ p.tideRuns = true ∧ (ending.tioPin 7).ends = [0] ∧
    ending.hasCome 0 = true ∧ (od 0).rd (fTIO_CFG_MODE.at 7) = 1 ∧ up.rd (fTIO_CFG_MODE.at 7) ≠ 1 ∧
    (od 0).flag (fTIO_CFG_OD.at 7) = true ∧ (od 1).flag (fTIO_CFG_LATCH.at 7) ≠ (od 1).flag (fTIO_CFG_INVERT.at 7) ∧
    (od 0).flag (fTIO_CFG_LATCH.at 7) = (od 0).flag (fTIO_CFG_INVERT.at 7) ∧
    (regAt 0x20100).isSome = true ∧ up.hostMay 0x20100 = true ∧ (Instr.compareWriteArrive 2).wf = true ∧
    (Instr.compareWriteArrive 3).wf = true ∧ w.tide.cmpWrites.length = 1 ∧
    (nth CapState.reset (cap 1).tide.caps 7).since = some 3 ∧ (cap 1).flag (fTIDE_CAP_CFG_EN.at 7) = true ∧
    (cap 1).tideRuns = true ∧ bit ((cap 1).rd (fTIDE_CAP_CFG_EDGE.at 7)) 0 = true ∧
    bit ((cap 2).rd (fTIDE_CAP_CFG_EDGE.at 7)) 0 = false := by decide +kernel

theorem witness_TideCommands :
    let arm := cmd ([15, 0, 0, 0, 4, 0, 0, 0, 0, 0, 0, 0, 0, 0, 1, 0x80] ++ z 4)
    up.runsNow 0x0900 (cmd []) = true ∧ up.runsNow 0x0901 arm = true ∧ leAt arm.payload 0 1 < 16 ∧
    regWordOk (rTIDE_CMP_CTRL + 0xF0) (leAt arm.payload 12 4) = true ∧ bit (leAt arm.payload 12 4) 31 = true ∧
    4 ≤ up.ahead (leAt arm.payload 4 6) ∧ up.ahead (leAt arm.payload 4 6) < 2 ^ 47 ∧
    aimedAtInput up (leAt arm.payload 12 4) = false ∧ up.runsNow 0x0902 (cmd ([15, 0, 0, 0, 16] ++ z 23)) = true ∧ typeListed 16 = true ∧
    bit 0 3 = false ∧ bit 0 7 = false ∧ up.flag (fTIDE_CAP_CFG_EN.at 7) = false ∧
    (up.wr (fTIDE_CAP_CFG_EN.at 7) 1).flag (fTIDE_CAP_CFG_EN.at 7) = true ∧
    up.runsNow 0x0903 (cmd (7 :: z 7)) = true ∧ regWordOk (rTIDE_CAP_CFG + 0x70) 0x100 = true ∧
    up.runsNow 0x0904 (cmd (7 :: z 7)) = true ∧ regWordOk (rTIO_CFG + 28) 0 = true ∧ pinAimedAt up 7 = false ∧
    up.runsNow 0x0905 (late [0, 1, 0, 0]) = true ∧ up.hostMay rBELL_CFG = true ∧ up.tideRuns = true := by decide +kernel

theorem witness_SelfTestAndMonitors :
    let test := { up.wr fHIF_STATUS_MODE mSELFTEST with tst := up.tst }
    let bist := { test with tst := { test.tst with bist := some ⟨cmdTok 0x0D00 (cmd []) up, 0, 0x3FF, 0⟩ } }
    let bg := up.wr fTEST_BG_CFG_EN 1
    let sl (k s : Nat) : Block := { up with slate := { up.slate with slice := some (k, s) } }
    test.runsNow 0x0D00 (cmd (1 :: z 15)) = true ∧ mBistStart.chk (bytes (1 :: z 15)) test = none ∧
    up.runsNow 0x0D01 (cmd []) = true ∧ up.runsNow 0x0D02 (cmd (1 :: z 3)) = true ∧ regWordOk rTEST_BG_CFG 1 = true ∧
    bist.tst.bist.isSome = true ∧ bg.flag fTEST_BG_CFG_EN = true ∧ bg.flag fSLATE_STAT_FUSE_DONE = true ∧
    bg.flag fSLATE_STAT_BORROW_ACTIVE = false ∧ memoryBist bg = false ∧ bg.on dCORE = true ∧
    (nextSlice 65 (bg.wr (fSLATE_OWNER_OWNER.at 63) 2)).1.isSome = true ∧ (sl 63 0).slate.slice = some (63, 0) ∧ (sl 0 2047).slate.slice = some (0, 2047) ∧
    up.runsNow 0x0D03 (cmd (z 16)) = true ∧ mMonConfig.chk (bytes (z 16)) up = none ∧
    mMonConfig.chk (bytes ([0, 0, 0, 0, 0, 0, 0, 0x80] ++ z 8)) up = none ∧ up.runsNow 0x0D04 (cmd [23, 1, 1, 1]) = true ∧
    up.runsNow 0x0D05 (cmd []) = true ∧ up.hostMay rTEST_SNAP = true := by decide +kernel

theorem witness_TapAndUnlock :
    let challenged := { up with tst := { up.tst with challenge := some (bytes (z 16)) } }
    up.pwr.porn = false ∧ (up.wr fTEST_JTAG_STAT_LOCKED 0).flag fTEST_JTAG_STAT_LOCKED = false ∧
    (up.wr fTEST_JTAG_STAT_LOCKED 1).flag fTEST_JTAG_STAT_LOCKED = true ∧ up.runsNow 0x0D06 (cmd []) = true ∧
    challenged.runsNow 0x0D07 (cmd (z 128)) = true ∧ challenged.tst.challenge.isSome = true := by decide +kernel

/-! ### Witnesses: voices and the event island -/

/-- A command held for the boundary just opened. -/
def held (op : Nat) (ns : List Nat) : Held := ⟨cmdTok op (cmd []) up, 0, bytes ns, false, 0⟩

theorem witness_VoiceSettings :
    let table := late ([8, 127, 1, 0] ++ z 4)
    let lfo := late ([3, 0, 0, 0, 1, 1, 0, 0] ++ z 16)
    up.mustWait 0x0140 (late [0, 0, 0x90, 1]) = true ∧ (held 0x0140 [0, 0, 0x90, 1]).may 0x0140 up = true ∧ 26214400 ≤ leAt (bytes [0, 0, 0x90, 1]) 0 4 ∧
    leAt (bytes [0, 0, 0xE0, 1]) 0 4 ≤ 31457280 ∧ up.mustWait 0x0141 table = true ∧
    (held 0x0141 ([8, 127, 1, 0] ++ z 4)).may 0x0141 up = true ∧ leAt table.payload 0 1 ≠ 0 ∧ leAt table.payload 0 1 ≤ 8 ∧
    leAt table.payload 1 1 + leAt table.payload 2 1 ≤ 128 ∧ (leAtS table.payload 4 4).natAbs ≤ 786432 ∧
    up.runsNow 0x0142 (late (z 4)) = true ∧ up.runsNow 0x0205 (cmd [255, 15, 0, 0]) = true ∧
    up.runsNow 0x0202 (late ([31, 0, 0, 0] ++ z 4)) = true ∧ up.mustWait 0x0203 (late ([0, 64, 0, 0] ++ z 12)) = true ∧
    (held 0x0203 ([0, 64, 0, 0] ++ z 12)).may 0x0203 up = true ∧ { up.glob with beatStaged := some (1, 2) }.beatStaged = some (1, 2) ∧
    16384 ≤ leAt (bytes [0, 64, 0, 0]) 0 4 ∧ up.mustWait 0x0204 lfo = true ∧
    (held 0x0204 ([3, 0, 0, 0, 1, 1, 0, 0] ++ z 16)).may 0x0204 up = true ∧ mSetGlobalLfo.chk lfo.payload up = none ∧
    up.hostMay rVOICE_BEAT_ORIGIN_HI = true ∧ up.isPrimary = false := by decide +kernel

/-- A voice that renders with an armed seat, in seat 5. -/
def sounding : Block := play.setVoice 5 { Voice.reset with st := 2, armed := true, lay := { Layer.reset with noteId := 9 } }

theorem witness_ModWrites :
    up.mustWait 0x0200 (late ([255, 5, 0, 0] ++ z 4)) = true ∧ (modsBefore (some 0) up).glob.mods = [] ∧
    (held 0x0200 ([255, 5, 0, 0] ++ z 4)).may 0x0200 (modsBefore (some 0) up) = true ∧
    (held 0x0201 ([0, 0, 9, 0] ++ z 8)).may 0x0201 (modsBefore (some 0) up) = true ∧ destReserved 0 = false ∧
    leAt (bytes [0, 5, 0, 0]) 0 4 < 2 ^ 18 ∧ sounding.live 1023 = false ∧ sounding.live 5 = true ∧ modTarget (sounding.voice 5) = true ∧
    modTarget ((sounding.setVoice 5 { Voice.reset with st := 2 }).voice 5) = false ∧
    (sounding.setVoice 5 { Voice.reset with st := 2 }).live 5 = true ∧ (sounding.voice 5).base.length = 256 ∧
    ({ sounding with glob := { sounding.glob with smooth := 0 } }.glob.smooth = 0) ∧
    up.mustWait 0x0201 (late ([0, 0, 9, 0] ++ z 8)) = true ∧ mModWriteNote.chk (bytes ([0, 0, 9, 0] ++ z 8)) up = none := by
  decide +kernel

/-- A note-on record due now, and one due at tick 5000. -/
def rec (type flags : Nat) (due : Nat) : EventRecord :=
  { type := BitVec.ofNat 8 type, flags := BitVec.ofNat 8 flags, port := 0, note := 60, target := 0, noteId := 1, value := 0
    dueTime := BitVec.ofNat 48 due, seq := 0, value2 := 0 }

theorem witness_RecordsEnterTheIsland :
    let full := { up with sched := { up.sched with tts := List.replicate 4 (List.replicate 2048 ⟨rec 1 1 5000, 5000, false, ⟨0, 0⟩⟩) } }
    let listen := up.wr fHIF_STATUS_MODE mLISTEN
    (up.setOn dEVT false).on dEVT = false ∧ up.on dEVT = true ∧ (shadowAt 6).isShadow = true ∧ (shadowAt 6).on dEVT = true ∧
    up.isShadow = false ∧ up.isPrimary = false ∧ badRecord (rec 1 0x80 0) = true ∧ badRecord (rec 1 1 5000) = false ∧
    (rDue (rec 1 1 5000) && !up.hasCome 5000 && 1 != 10) = true ∧ (rDue (rec 1 0 0) && !up.hasCome 0 && 1 != 10) = false ∧
    (nth [] up.sched.tts (ttOf 1)).length < 2048 ∧ 2048 ≤ (nth [] full.sched.tts (ttOf 1)).length ∧ isDirect 1 = true ∧
    isDirect 16 = false ∧ badRecord (rec 16 0 0) = false ∧ up.effMode ≠ mLISTEN ∧ listen.effMode = mLISTEN ∧ poolFree up ≠ 0 := by
  decide +kernel

theorem witness_SeatsAndTimetablesKeepTheirOrder :
    let tt : List TTEntry := [⟨rec 1 1 5000, 5000, false, ⟨0, 0⟩⟩, ⟨rec 1 1 6000, 6000, false, ⟨0, 1⟩⟩]
    let b := { up with sched := { up.sched with tts := up.sched.tts.set 3 [⟨rec 1 1 0, 0, false, ⟨0, 0⟩⟩] } }
    bestSeat up [17, 16, 3] = some 3 ∧ tt.Pairwise (fun x y => dueKey up x.due ≤ dueKey up y.due) ∧
    (nextRelease b).any (fun r => r.1 == 3) = true ∧ (up.wr fSCHED_NOTE_ID_NEXT_NEXT 65535).rd fSCHED_NOTE_ID_NEXT_NEXT ≠ 0 := by
  decide +kernel

theorem witness_EventIslandRuns :
    let it : Item := ⟨rec 16 0 0, 0, 7, false, false, 0, 0, ⟨0, 0⟩⟩
    let rolls := { up with sched := { up.sched with rolls := up.sched.rolls.set 7 [it] } }
    let runs := { up with sched := { up.sched with cores := up.sched.cores.set 7 (some it) } }
    let slips := { up with tide := { up.tide with releasing := true } }
    (List.range 8).find? (fun c => (nth none rolls.sched.cores c).isNone) = some 0 ∧
    (List.range 8).find? (fun i => !(nth [] rolls.sched.rolls i).isEmpty) = some 7 ∧ nth [] rolls.sched.rolls 7 = [it] ∧
    nth none runs.sched.cores 7 = some it ∧ nth none runs.sched.posts 7 = none ∧
    (offer (rec 16 0 0) runs.now runs).1 = true ∧ (offer (rec 16 0 0) runs.now (runs.setOn dEVT false)).1 = false ∧
    (nth none { runs.sched with posts := runs.sched.posts.set 7 (some (rec 16 0 0)) }.posts 7).isSome = true ∧ up.tideRuns = true ∧ up.on dEVT = true ∧ up.tide.releasing = false ∧
    slips.tide.releasing = true ∧ (up.setOn dEVT false).on dEVT = false := by decide +kernel

theorem witness_LanesRender :
    let open_ := { play with tide := { play.tide with bound := some 0 } }
    let pend := open_.setVoice 5 { Voice.reset with st := 1 }
    let busy := open_.modLane 15 (fun k => { k with busy := some 3 })
    (pend.voice 5).st = 1 ∧ (pend.voice 5).armed = false ∧ open_.tideRuns = true ∧ open_.tide.bound.isSome = true ∧
    15 < open_.laneCount ∧ (open_.lane 15).busy = none ∧ nextSlot (laneHandOffs 15 open_) 15 = none ∧
    (nextSlot (laneHandOffs 5 pend) 5).isSome = true ∧ (busy.lane 15).busy = some 3 ∧ (busy.lane 15).saved = none := by decide +kernel

/-- A patch image that PATCH_LOAD takes: the amplitude envelope ON, every LFO with steps and cycle of 1. -/
def image : List Byte :=
  [0x180, 0x303, 0x304, 0x343, 0x344, 0x383, 0x384, 0x3C3, 0x3C4].foldl (fun p o => patchBytes p o [1]) (List.replicate 2048 0)

theorem witness_ClassAndSchedulerCommands :
    let trace : List Nat := [0, 0, 0, 0, 16, 0] ++ z 6
    let staged : Block := { up with store := { up.store with staging := [(0, image)] } }
    up.runsNow 0x0100 (cmd ([255, 1, 0, 0] ++ z 4)) = true ∧ leAt (bytes [255, 1]) 0 2 ≤ 511 ∧
    staged.runsNow 0x0101 (cmd (z 4)) = true ∧ patchInUse staged 0 = false ∧ validatePatch (stagingOf staged 0) = none ∧
    up.runsNow 0x0102 (cmd (63 :: z 15 ++ [1, 0, 0, 0])) = true ∧ mClassSet.chk (bytes (63 :: z 15 ++ [1, 0, 0, 0])) up = none ∧
    up.runsNow 0x0103 (cmd [63, 1, 0, 0]) = true ∧ up.runsNow 0x0103 (cmd [63, 0, 0, 0]) = true ∧
    up.runsNow 0x0104 (cmd ([0, 1, 0, 0] ++ z 16)) = true ∧ mRuleWrite.chk (bytes ([0, 1, 0, 0] ++ z 16)) up = none ∧
    up.runsNow 0x0105 (cmd (z 8)) = true ∧ mSetReserve.chk (bytes (z 8)) up = none ∧ up.runsNow 0x0106 (late (z 4)) = true ∧
    up.runsNow 0x0E00 (cmd [64, 0, 255, 15, 0, 4, 0, 0]) = true ∧ up.runsNow 0x0E01 (cmd trace) = true ∧
    mSetTrace.chk (bytes trace) up = none ∧ up.runsNow 0x0E02 (cmd []) = true := by decide +kernel

/-! ### Witnesses: tables, library, streams, mix bus, slate -/

/-- Bank 5 and 6 of slate belong to the table builder, bank 7 to the voices, bank 9 to the Proctor. -/
def lent : Block := sets [(fSLATE_OWNER_OWNER.at 5, rqTBLD), (fSLATE_OWNER_OWNER.at 6, rqTBLD), (fSLATE_OWNER_OWNER.at 7, rqVOICE),
  (fSLATE_OWNER_OWNER.at 9, rqPROCTOR)] up

/-- LPDDR5 of 1 GiB, trained. -/
def ddr : Block := { lent.wr fSTRM_LIB_STAT_LPDDR_TRAINED 1 with clk := { lent.clk with memSize := 1 } }

theorem witness_TableCommands :
    let def127 := [127, 1, 0, 1, 0, 4, 0, 0]
    let defined := sets [(fTBL_DESC_W0_STATE.at 127, 1), (fTBL_DESC_W0_FRAMES.at 127, 1), (fTBL_DESC_W1_NBANKS.at 127, 1)] ddr
    let job : Build := ⟨cmdTok 0x0301 (cmd []) ddr, 0, 127, 0, 0, 64, []⟩
    let asked := { defined with store := { defined.store with builds := [job] } }
    let pending := defined.setTableX 127 { TableX.reset with pend := some ⟨[5], none⟩ }
    let retiring (k : Nat) := up.setTableX 127 { TableX.reset with retire := some ([5], k) }
    up.runsNow 0x0300 (cmd def127) = true ∧ mTableDefine.chk (bytes def127) up = none ∧
    defined.runsNow 0x0301 (cmd (127 :: z 11)) = true ∧ mTableBuild.chk (bytes (127 :: z 11)) defined = none ∧
    pending.runsNow 0x0302 (cmd [1, 0, 0, 0, 127]) = true ∧ mTableCommit.chk (bytes [1, 0, 0, 0, 127]) pending = none ∧
    up.runsNow 0x0303 (cmd [127, 0, 0, 0]) = true ∧ classReads up oscModeTable 127 = false ∧
    up.runsNow 0x0304 (cmd [127, 0, 0, 0]) = true ∧ asked.store.running = none ∧ asked.store.builds = [job] ∧ asked.on dTBLD = true ∧
    asked.rd (fTBL_DESC_W1_NBANKS.at 127) ≤ (freePool asked).length ∧
    (freePool asked).length < (asked.wr (fTBL_DESC_W1_NBANKS.at 127) 3).rd (fTBL_DESC_W1_NBANKS.at 127) ∧
    ({ asked with store := { asked.store with running := some { job with banks := [5] } } }.store.running.isSome) = true ∧
    (tableX (retiring 1) 127).retire = some ([5], 1) ∧ (tableX (retiring 1) 127).freed = none ∧
    (tableX (retiring 9) 127).retire = some ([5], 9) := by decide +kernel

theorem witness_LibraryMapsAndStreams :
    let lib := (sets [(fSTRM_LIB_BASE_BASE, 0), (fSTRM_LIB_BASE_SIZE, 1)] ddr).setWord64 rSTRM_HEAD 0x80
    let tok := cmdTok 0 (cmd []) ddr
    let ns := [0, 0, 0, 0, 0, 4, 0, 0, 0, 0, 0xEE, 2] ++ z 18 ++ [64, 0, 0, 0, 0, 127, 0, 255, 0, 0]
    let zone : List Byte := (bytes ns)
    let defining := lib.setMap 255 ⟨1, [none, none], []⟩
    let whole (d : Block) : Block := d.setMap 255 ⟨2, [some zone], []⟩
    let sealing (d : Block) : Block := { whole d with store := { (whole d).store with sealing := [(tok, 0, 255)] } }
    let slot : Slot := ⟨3, 0, 255, 0, 0, 0, 0, 0, 0⟩
    let runs := { (whole lib).wr fSTRM_CTRL_ENABLE 1 with store := { (whole lib).store with
      seen := { lib.store.seen with maps := (whole lib).store.maps } } }
    let streams (l : List Slot) (rq : List Nat) : Block := { runs with store := { runs.store with slots := l, requests := rq } }
    let loads := { lib with store := { lib.store with loading := [(tok, 0, 0x300000, 0, 100)] } }
    ddr.runsNow 0x0400 (cmd [0, 0, 1, 0]) = true ∧ mLibrarySet.chk (bytes [0, 0, 1, 0]) ddr = none ∧
    lib.runsNow 0x0401 (cmd ([0, 0, 48, 0] ++ z 8)) = true ∧ mLibraryLoad.chk (bytes ([0, 0, 48, 0] ++ z 8)) lib = none ∧
    lib.runsNow 0x0402 (cmd ([63, 3, 0, 4, 0, 8, 0, 0] ++ z 8)) = true ∧
    mStreamConfig.chk (bytes ([63, 3, 0, 4, 0, 8, 0, 0] ++ z 8)) lib = none ∧
    lib.runsNow 0x0403 (cmd [1, 1, 0, 0]) = true ∧ lib.runsNow 0x0403 (cmd [0, 1, 0, 0]) = true ∧ trained lib = true ∧
    lib.runsNow 0x0410 (cmd [255, 0, 0, 2]) = true ∧ mSampleMapBegin.chk (bytes [255, 0, 0, 2]) lib = none ∧
    (sampleMap defining 255).zones.length = 2 ∧ defining.runsNow 0x0411 (cmd ([255, 0, 1, 0] ++ ns)) = true ∧
    mSampleMapZones.chk (bytes ([255, 0, 1, 0] ++ ns)) defining = none ∧ (whole lib).runsNow 0x0412 (cmd [255, 0, 0, 0]) = true ∧
    mSampleMapSeal.chk (bytes [255, 0, 0, 0]) (whole lib) = none ∧
    lib.runsNow 0x0413 (cmd [255, 0, 0, 0]) = true ∧ classReads lib oscModeSample 255 = false ∧
    loads.store.loading = [(tok, 0, 0x300000, 0, 100)] ∧ (sealing lib).store.sealing = [(tok, 0, 255)] ∧
    (placeMap (sealing lib) 255).isSome = true ∧
    (streams [slot] []).flag fSTRM_CTRL_ENABLE = true ∧ trained (streams [slot] []) = true ∧
    (streams [slot] []).store.slots.filter (eligible (streams [slot] [])) ≠ [] ∧
    (streams [] []).store.slots.filter (eligible (streams [] [])) = [] ∧ (streams [slot] [3]).store.requests = [3] ∧
    (streams [slot] [3]).store.slots.find? (fun s => s.id == 3) = some slot := by decide +kernel

theorem witness_MixBus :
    let one := [0, 1, 0, 0] ++ z 8
    up.runsNow 0x0B80 (late one) = true ∧ mMixSetOut.chk (bytes one) up = none ∧ up.runsNow 0x0B81 (late one) = true ∧
    mMixSetLive.chk (bytes one) up = none ∧ up.runsNow 0x0B82 (late one) = true ∧ mMixSetReturn.chk (bytes one) up = none ∧
    up.runsNow 0x0B83 (late (z 12)) = true ∧ regWordOk rMIX_CTRL 0 = true ∧ regWordOk rMIX_FOLLOW_CFG 0 = true ∧
    regWordOk rMIX_CKSUM_MASK 0 = true ∧ up.runsNow 0x0B84 (cmd []) = true ∧ up.host.ready = true ∧
    up.clk.backupOsc = false ∧ (regAt rMIX_CLIP_COUNT).isSome = true ∧ regAt 0x4C = none := by decide +kernel

/-- The first and the last byte of slate; the Proctor's bank 9 and its last word. -/
theorem witness_SlateAccesses :
    let mine := lent.wr (fSLATE_OWNER_OWNER.at 63) rqVOICE
    let lends := sets [(fSLATE_STAT_BORROW_ACTIVE, 1), (fSLATE_STAT_BORROW_BANK, 7)] lent
    let owes := { lent with slate := { lent.slate with writeBacks := [(7 * 2 ^ 19, 5)] } }
    lent.flag fSLATE_STAT_FUSE_DONE = true ∧ slateMay lent rqVOICE (bankOf 0) = false ∧ slateMay mine rqVOICE (bankOf (2 ^ 25 - 1)) = true ∧
    slateMay lent rqPROCTOR (bankOf (9 * 2 ^ 19)) = true ∧ slateMay lent rqPROCTOR (bankOf (10 * 2 ^ 19 - 4)) = true ∧
    0 < rqVOICE ∧ rqVOICE < 10 ∧ slateMay lent rqPROCTOR (bankOf 0) = false ∧ lent.damage 0 = 0 ∧ (5 : BitVec 64) ≠ 6 ∧ (6 : BitVec 64).toNat ≠ 5 ∧ slateMay lends rqVOICE (bankOf (7 * 2 ^ 19)) = true ∧
    borrowed lends (bankOf (7 * 2 ^ 19)) = true ∧ owes.slate.writeBacks = [(7 * 2 ^ 19, 5)] ∧
    borrowed owes (bankOf (7 * 2 ^ 19)) = false := by decide +kernel

theorem witness_SlateOwnership :
    let asks := lent.wr (fSLATE_OWNER_PENDING.at 63) rqVOICE
    let give := [0x20, 0, 0, 0, 0, 0, 0, 0, 6, 0, 0, 0]
    let copy := [rqVOICE, 0, 0, 0] ++ z 8 ++ [0, 0, 0x38, 0, 16, 0, 0, 0]
    let e : Escort := ⟨cmdTok 0x0602 (cmd []) lent, 0, rqVOICE, 0, 0, 7 * 2 ^ 19, 16, 0⟩
    let works (m : Nat) := { lent with slate := { lent.slate with escorts := [{ e with moved := m }] } }
    ownerPends asks 63 = true ∧ asks.flag (fSLATE_OWNER_AT_BOUNDARY.at 63) = false ∧ borrowed asks 63 = false ∧
    lent.runsNow 0x0600 (cmd give) = true ∧ mSlateHandover.chk (bytes give) lent = none ∧
    lent.runsNow 0x0600 (cmd (z 12)) = true ∧ mSlateHandover.chk (bytes (z 12)) lent = none ∧
    lent.runsNow 0x0601 (cmd (z 12)) = true ∧ mSlatePin.chk (bytes (z 12)) lent = none ∧
    lent.runsNow 0x0602 (cmd copy) = true ∧ mSlateEscort.chk (bytes copy) lent = none ∧
    lent.runsNow 0x0603 (cmd [0xC6, 3, 0, 0]) = true ∧ Nat.land 0x03C6 (0xFFFF - 0x03C6) = 0 ∧ lent.runsNow 0x0604 (cmd []) = true ∧
    (works 0).slate.escorts = [e] ∧ (banksOfRange e.dst e.len).any (fun k => (works 0).owner k != e.req) = false ∧
    borrowed (works 0) (bankOf e.dst) = false ∧ 0 + 8 < e.len ∧ e.len ≤ 8 + 8 ∧ (works 8).slate.escorts = [{ e with moved := 8 }] := by
  decide +kernel

/-! ### Witnesses: the bus DSP -/

/-- Core 3 with a program of two words, which begins with the word given, running. -/
def dsp (w : Nat) : Block :=
  (sets [(fBDSP_CTRL_RUN.at 3, 1), (fBDSP_ENTRY_LENGTH.at 3, 2)] up).modCore 3 (fun g =>
    { g with waiting := false, loaded := true, prog := if w = 0 then [] else [(0, w)] })

/-- A control word by its COP (R310). -/
def cop (k : Nat) : Nat := 2 ^ 62 + k * 2 ^ 56

theorem witness_GralonIssuesOneInstruction :
    issuing up 3 = false ∧ issuing (dsp 0) 3 = true ∧ fetchWord (landed 3 (dsp 0)) 3 = some 0 ∧
    farStall ((landed 3 (dsp 0)).core 3) 0 = false ∧ wordLegal ((landed 3 (dsp 0)).core 3) 0 = true ∧ kindOf 0 = some .parallel ∧
    fetchWord (landed 3 ((dsp 0).wr (fBDSP_ENTRY_LENGTH.at 3) 0)) 3 = none ∧
    wordLegal ((landed 3 (dsp (2 ^ 63))).core 3) (2 ^ 63) = false ∧
    farStall (((dsp 0).modCore 3 (fun g => { g with far := [⟨some 0, 0, 0, 0, false⟩] })).core 3) 0 = true ∧
    [(cop 1, GKind.jump), (cop 2, .call), (cop 3, .ret), (cop 4 + 2 ^ 32 + 1, .loop), (cop 5, .endloop), (cop 6, .ldi), (cop 7, .movr),
      (cop 8, .far), (cop 9, .wait), (cop 10, .swi), (cop 11, .rti), (cop 12, .sha)].all (fun x =>
        kindOf x.1 == some x.2 && wordLegal ((dsp x.1).core 3) x.1 && fetchWord (dsp x.1) 3 == some x.1) = true := by decide +kernel

/-- Level 0, END 1, with a count of 1 and with a count of 0. -/
theorem witness_LoopActivatesItsLevel :
    let one := cop 4 + 2 ^ 32 + 1
    let none_ := cop 4 + 1
    issuing (dsp one) 3 = true ∧ fetchWord (landed 3 (dsp one)) 3 = some one ∧ farStall ((landed 3 (dsp one)).core 3) one = false ∧
    wordLegal ((landed 3 (dsp one)).core 3) one = true ∧ kindOf one = some .loop ∧ bitsOf one 47 32 ≠ 0 ∧ bit one 53 = false ∧
    fetchWord (landed 3 (dsp none_)) 3 = some none_ ∧ wordLegal ((landed 3 (dsp none_)).core 3) none_ = true ∧
    kindOf none_ = some .loop ∧ bitsOf none_ 47 32 = 0 := by decide +kernel

/-- A buffer at the top of memory; operands whose product is exact; a core outside every loop. -/
theorem witness_GralonArithmeticAndFlow :
    (0 : Int) ≤ 2 ^ 24 - 8 ∧ (2 : Int) ^ 24 - 8 + 8 ≤ 2 ^ 24 ∧ (2 : Int) ^ 24 - 1 < 2 ^ 24 - 8 + 8 ∧ (7 : Int).natAbs < (8 : Int) ∧
    3 < up.bdsp.length ∧ (up.core 3).active 0 = false ∧ (up.core 3).active 1 = false ∧ (up.core 3).active 2 = false := by decide +kernel

theorem witness_GralonPassesAndInterrupts :
    let waits := (dsp 0).modCore 3 (fun g => { g with waiting := true, startOk := true })
    let f : FarLoad := ⟨some 5, 4, 9, 0, false⟩
    let stays : FarLoad := ⟨none, 4, 0, 7, true⟩
    let loads := (dsp 0).modCore 3 (fun g => { g with far := [⟨none, 3, 0, 0, false⟩, f] })
    let lends := sets [(fSLATE_STAT_BORROW_ACTIVE, 1), (fSLATE_STAT_BORROW_BANK, 7)] up
    let lines := (ddr.wr (fBDSP_CTRL_RUN.at 3) 1).wr (fBDSP_CTRL_LINE_EN.at 3) 0xFF
    let asks := (dsp 0).modCore 3 (fun g => { g with ipend := 8, imask := 0x8008 })
    let b1 := (dsp 0).modCore 3 (fun g => { g with missNow := true })
    let wide := b1.wr (fBDSP_CTRL_BLOCK.at 3) 4
    coreRuns waits 3 = true ∧ waits.on dBDSP = true ∧ (waits.core 3).waiting = true ∧ (waits.core 3).startOk = true ∧
    inPass (dsp 0) 3 = true ∧ deadlineOf b1 3 ≤ boundaryNo b1 b1.lastBound + 1 ∧
    boundaryNo wide wide.lastBound + 1 < deadlineOf wide 3 ∧
    (loads.core 3).far = [⟨none, 3, 0, 0, false⟩] ++ f :: [] ∧ (loads.core 3).stalled = false ∧ f.reg = some 5 ∧
    ([⟨none, 3, 0, 0, false⟩, f] : List FarLoad).all (fun x => !(x.borrowed && borrowed loads x.bank)) = true ∧
    (stays.borrowed && borrowed lends stays.bank) = true ∧ stays.reg.isNone = true ∧ coreRuns lines 3 = true ∧ trained lines = true ∧
    bit (lines.rd (fBDSP_CTRL_LINE_EN.at 3)) 7 = true ∧ blockSize lines 3 = 1 ∧ up.hostMay (rBDSP_IRQ + 0x3000) = true ∧
    (up.setOn dBDSP false).on dBDSP = false ∧ (up.setOn dBDSP false).hostMay (rBDSP_IRQ + 0x3000) = true ∧
    (List.range 4).find? (fun s => bit ((landed 3 asks).core 3).ipend s && bit ((landed 3 asks).core 3).imask s) = some 3 ∧
    bit ((landed 3 asks).core 3).imask 15 = true ∧ shielded ((landed 3 asks).core 3) = false := by decide +kernel

theorem witness_BdspCommands :
    let begin_ := [3, 0, 0, 64, 255, 63, 0, 0, 255, 255, 15, 0] ++ z 8
    let sum := (toLE 4 (crc32c (programBytes up 3))).map (·.toNat)
    up.runsNow 0x0500 (cmd begin_) = true ∧ mBdspLoadBegin.chk (bytes begin_) up = none ∧
    up.runsNow 0x0501 (cmd (3 :: z 11)) = true ∧ 0 + (12 - 4) / 8 ≤ (up.wr (fBDSP_ENTRY_LENGTH.at 3) 1).rd (fBDSP_ENTRY_LENGTH.at 3) ∧
    up.runsNow 0x0502 (cmd ([3, 0, 0, 0] ++ sum)) = true ∧ crc32c (programBytes up 3) = leAt (bytes ([3, 0, 0, 0] ++ sum)) 4 4 ∧
    up.runsNow 0x0503 (late ([3, 1, 255, 63] ++ z 4)) = true ∧ 0x3FFF + (8 - 4) / 4 ≤ 0x4000 ∧
    up.runsNow 0x0504 (cmd [3, 1, 196, 63, 60, 0, 0, 0]) = true ∧ mBdspReadData.chk (bytes [3, 1, 196, 63, 60, 0, 0, 0]) up = none ∧
    up.runsNow 0x0505 (late [3, 1, 4, 3]) = true ∧ up.runsNow 0x0505 (late [3, 0, 4, 3]) = true ∧
    up.runsNow 0x0506 (late ([3, 63, 1, 0] ++ z 4)) = true ∧ up.runsNow 0x0507 (late ([3, 7, 1, 0] ++ z 16)) = true ∧
    mBdspSetLine.chk (bytes ([3, 7, 1, 0] ++ z 16)) up = none ∧ up.runsNow 0x0508 (cmd [3, 0, 0, 0]) = true := by decide +kernel

/-! ### Witnesses: ports, network, audio, ferry -/

theorem witness_SerialPorts :
    let on4 := up.wr (fSER_CFG_EN.at 4) 1
    let on0 := up.wr (fSER_CFG_EN.at 0) 1
    let auto := on4.wr (fSER_CFG_AUTOBAUD.at 4) 1
    let flows := on4.modSer 4 (fun s => { s with flow := some true })
    let holds := on4.modSer 4 (fun s => { s with rx := [(65, 0)], tx := [66] })
    let full := on4.modSer 4 (fun s => { s with rx := List.replicate 64 (65, 0) })
    let senses := (on0.wr (fSER_CFG_SENSE.at 0) 1).modSer 0 (fun s => { s with sense := true })
    let xon := on4.wr (fSER_CFG_XON_EN.at 4) 1
    let conf := [4, 0, 0, 0, 0, 0, 0, 0x60, 0, 4, 0, 0, 48, 16, 0, 0]
    let f8 : SerFormat := ⟨8, 0, 1⟩
    let chars (c : Nat) : List Bool := (f8.frame c).flatMap (List.replicate 16)
    serOn on4 4 = true ∧ (serGeneral auto 4 && auto.flag (fSER_CFG_AUTOBAUD.at 4) && !auto.flag (fSER_CFG_DATA7.at 4)) = true ∧
    (serGeneral on4 4 && on4.flag (fSER_CFG_AUTOBAUD.at 4) && !on4.flag (fSER_CFG_DATA7.at 4)) = false ∧
    decideChar f8 true (chars 65) = some ⟨65, false, false, true⟩ ∧ decideChar f8 true [] = none ∧
    (decideChar f8 true (List.replicate 160 false)).any (fun d => d.framing || d.parity) = true ∧
    (decideChar f8 false (List.replicate 200 false)).isNone = true ∧
    (decideChar f8 true (chars 65)).any (fun d => d.framing || d.parity || d.data == 0x13) = false ∧
    (decideChar f8 true (chars 0x13)).any (fun d => xonOn xon 4 && (d.data == 0x13 || d.data == 0x11)) = true ∧
    0 < f8.bits ∧ f8.parity ≤ 2 ∧ 1 ≤ f8.stops ∧ (on4.serial 4).rx.length < 64 ∧
    64 ≤ (full.serial 4).rx.length ∧ (flows.serial 4).flow = some true ∧ (holds.serial 4).flow = none ∧
    holds.flag (fSER_STAT_TX_PAUSED.at 4) = false ∧ (holds.serial 4).tx = [66] ∧ (on4.serial 4).tx = [] ∧
    serOn on0 0 = true ∧ serRaw on0 0 = false ∧ on0.on dEVT = true ∧ (senses.serial 0).sense = true ∧
    senses.flag (fSER_CFG_SENSE.at 0) = true ∧ on4.hostMay (rSER_TXDATA + 0x100) = true ∧ on4.on dCOMM = true ∧
    (up.setOn dCOMM false).on dCOMM = false ∧ (up.setOn dCOMM false).hostMay (rSER_TXDATA + 0x100) = true ∧
    (holds.serial 4).rx = [(65, 0)] ∧ serRaw holds 4 = true ∧ holds.host.ready = true ∧ leAt (bytes conf) 0 1 = 4 ∧
    up.runsNow 0x0700 (cmd conf) = true ∧ mSerConfig.chk (bytes conf) up = none ∧ leAt (bytes [4, 0, 64, 0]) 0 1 = 4 ∧
    on4.runsNow 0x0701 (cmd ([4, 0, 64, 0] ++ z 64)) = true ∧ on4.flag (fSER_CFG_EN.at 4) = true ∧
    (on4.serial 4).tx.length + 64 ≤ 64 := by decide +kernel

theorem witness_UsbFunction :
    let on := sets [(fUSB_CTRL_EN, 1), (fUSB_STAT_CONFIGURED, 1)] up
    let hs := on.wr fUSB_STAT_HIGH_SPEED 1
    let plays := sets [(fUSB_STAT_ALT_OUT, 1), (fUSB_STAT_ALT_IN, 2), (fUSB_STAT_ALT_MIDI, 1)] hs
    let full := { plays with usb := { plays.usb with outBuf := List.replicate 64 [], inBuf := [[1]] } }
    usbOn on = true ∧ on.flag fUSB_STAT_CONFIGURED = true ∧ on.flag fUSB_STAT_HIGH_SPEED = false ∧
    hs.flag fUSB_STAT_HIGH_SPEED = true ∧ plays.rd fUSB_STAT_ALT_OUT ≠ 0 ∧ plays.usb.outBuf.length < 64 ∧
    64 ≤ full.usb.outBuf.length ∧ full.usb.inBuf = [[1]] ∧ full.rd fUSB_STAT_ALT_IN ≠ 0 ∧ plays.flag fUSB_STAT_ALT_MIDI = true ∧
    plays.serving = true ∧ plays.on dEVT = true ∧ usbOn plays = true ∧ up.runsNow 0x0702 (cmd (1 :: z 3)) = true ∧
    up.runsNow 0x0702 (cmd (z 4)) = true ∧ plays.runsNow 0x0703 (cmd (z 4)) = true ∧ up.runsNow 0x0704 (cmd []) = true := by
  decide +kernel

/-- Frames of 64 and of 1,518 octets, and one octet to either side. -/
theorem witness_NetworkFrames :
    let on := up.wr (fNET_CTRL_EN.at 1) 1
    let f (sym : Bool) (len : Nat) (fcs : Bool) (dst : Nat) : NetFrame := ⟨sym, len, fcs, BitVec.ofNat 48 dst, 0, 0, [], 0⟩
    let holds := on.modNet 1 (fun p => { p with rx := [⟨[rec 16 0 0], false, 5⟩], tx := [⟨0, 0, 0, []⟩] })
    let tried := holds.modNet 1 (fun p => { p with tries := 15 })
    let plca := sets [(fNET_CTRL_PLCA_EN.at 1, 1), (fNET_PLCA_NODE_ID.at 1, 3)] on
    netOn on 1 = true ∧ (Instr.netFrameReceive 1 (f true 64 true 0)).wf = true ∧ (Instr.netFrameReceive 1 (f false 63 true 0)).wf = true ∧
    (Instr.netFrameReceive 1 (f false 1519 true 0)).wf = true ∧ (Instr.netFrameReceive 1 (f false 64 false 0)).wf = true ∧
    (Instr.netFrameReceive 1 (f false 1518 true 0)).wf = true ∧ passesFilter on 1 (f false 1518 true 0x7A9) = false ∧
    passesFilter on 1 (f false 1518 true (netMac on 1)) = true ∧ (holds.netPort 1).rx = [⟨[rec 16 0 0], false, 5⟩] ∧ holds.on dEVT = true ∧
    placesFor holds 5 [] = true ∧ placesFor (play.wr fHIF_STATUS_MODE mLISTEN) 5 [rec 16 0 0] = true ∧
    (holds.netPort 1).tx = [⟨0, 0, 0, []⟩] ∧ (holds.netPort 1).tries < 15 ∧
    15 ≤ (tried.netPort 1).tries ∧ usesPlca plca 1 = true ∧ isCoord plca 1 = false ∧
    (on.wr (fNET_BCAST_RATE.at 1) 5).rd (fNET_BCAST_RATE.at 1) ≠ 0 := by decide +kernel

theorem witness_NetworkTimeAndCommands :
    let on := sets [(fNET_CTRL_EN.at 0, 1), (fNET_PTP_CFG_EN, 1)] up
    let near := { on with ptp := { on.ptp with good := 7, heard := true } }
    let listens := up.modNet 1 (fun p => { p with listen := some (cmdTok 0x0800 (cmd []) up, 0, []) })
    let full := up.wr (fNET_FILT_HI_VALID.at2 1 31) 1
    let on1 := up.wr (fNET_CTRL_EN.at 1) 1
    let conf (b : Nat) (l : Nat) := [1, l, 0, 0, 0xB5, 0x88, 0, b, 32, 0, 8, 255, 128, 0, 0, 0, 100, 0, 0, 16]
    ptpServes on = true ∧ (5 : DWord).toNat ≠ on.word64 rNET_PTP_GM ∧ (0 : DWord).toNat = on.word64 rNET_PTP_GM ∧
    on.serving = true ∧ (on.wr fHIF_STATUS_PROCTOR_RUN 0).serving = false ∧ near.ptp.heard = true ∧
    (0 : Int).natAbs ≤ 8 * on.rd fNET_PTP_LOCK_LOCK_NS ∧ 8 * on.rd fNET_PTP_LOCK_LOCK_NS < (10000000 : Int).natAbs ∧
    (if (0 : Int).natAbs ≤ near.rd fNET_PTP_LOCK_LOCK_NS then min 8 (near.ptp.good + 1) else 0) = 8 ∧
    near.flag fNET_PTP_STAT_LOCKED = false ∧ (listens.netPort 1).listen.isSome = true ∧ on.on dCOMM = true ∧
    up.runsNow 0x0800 (cmd (conf 0 0)) = true ∧ mNetConfig.chk (bytes (conf 0 0)) up = none ∧
    bit (leAt (bytes (conf 0 0)) 4 4) 31 = false ∧ bit (leAt (bytes (conf 0x80 0)) 4 4) 31 = true ∧
    mNetConfig.chk (bytes (conf 0x80 1)) up = none ∧ up.runsNow 0x0800 (cmd (conf 0x80 1)) = true ∧
    up.runsNow 0x0801 (cmd (1 :: z 7)) = true ∧ mNetFilterAdd.chk (bytes (1 :: z 7)) up = none ∧ filtFind up 1 0 0 = none ∧
    filtFind full 1 0 0 = some 31 ∧ up.runsNow 0x0802 (cmd (1 :: z 7)) = true ∧ up.runsNow 0x0803 (cmd (1 :: z 11)) = true ∧
    up.runsNow 0x0804 (cmd (z 16 ++ [0xF4, 1, 0, 0])) = true ∧ regWordOk rNET_PTP_CFG 0 = true ∧
    regWordOk rNET_PTP_LOCK 500 = true ∧
    on1.runsNow 0x0805 (cmd ([1, 0, 1, 0] ++ z 32)) = true ∧ mNetSendEvents.chk (bytes ([1, 0, 1, 0] ++ z 32)) on1 = none ∧
    up.runsNow 0x0806 (cmd [1, 0, 0, 0]) = true := by decide +kernel

theorem witness_AudioOutputs :
    let live := sets [(fDAC_CFG_EN.at 7, 1), (fDAC_CFG_MODE.at 7, 1), (fDAC_STAT_CONNECTED.at 7, 1)] up
    let ranging := live.modDac 7 (fun d => { d with next := some 3 })
    let closing := live.modDac 7 (fun d => { d with closing := true })
    let strobes := { up with tide := { up.tide with bound := some 0 }, mix := { up.mix with handed := false } }
    let tin := sets [(fTDM_IN_CFG_EN.at 1, 1), (fTDM_IN_CFG_MASTER.at 1, 0), (fTDM_IN_CFG_SLOTS.at 1, 2)] up
    let din := up.wr fSPDIF_IN_CFG_EN 1
    let locked_ := din.wr fSPDIF_IN_STAT_LOCK 1
    let conv := sets [(fASRC_CFG_EN, 1), (fASRC_CFG_SRC1, 1), (fASRC_STAT_LOCK, 2)] up
    strobes.tide.bound = some 0 ∧ strobes.mix.handed = false ∧ strobes.tideRuns = true ∧ up.hostMay rDAC_STROBE = true ∧
    up.flag fAOUT_CTRL_LDACN_OUT = false ∧ live.flag (fDAC_CFG_EN.at 7) = true ∧ (live.dac 7).closing = false ∧
    live.flag (fDAC_STAT_RANGE_BUSY.at 7) = false ∧ live.flag (fDAC_STAT_CONNECTED.at 7) = true ∧
    live.flag (fDAC_CFG_MODE.at 7) = true ∧ live.rd (fDAC_CFG_RANGE.at 7) ≠ 3 ∧ live.hostMay (rDAC_CFG + 0x70) = true ∧
    live.on dDACA = true ∧ muted live = false ∧
    muted { live.wr fMIX_CTRL_MUTE 1 with mix := { live.mix with muted := true } } = true ∧ live.flag (fDAC_CFG_DSRC.at 7) = false ∧
    (up.wr fAOUT_CTRL_LDACN_OUT 1).flag fAOUT_CTRL_LDACN_OUT = true ∧
    codeBefore live 7 = none ∧ codeBefore (writeDacCode 7 9 live) 7 = some 32768 ∧ enabled live (rDAC_CFG + 0x70) = true ∧ (ranging.dac 7).next = some 3 ∧ (closing.dac 7).closing = true ∧
    slaveOut (sets [(fTDM_OUT_CFG_EN.at 3, 1), (fTDM_OUT_CFG_MASTER.at 3, 0)] up) 3 = true ∧ tin.flag (fTDM_IN_CFG_EN.at 1) = true ∧
    0 < up.rd (fTDM_OUT_CFG_SLOTS.at 3) ∧ tin.flag (fTDM_IN_CFG_MASTER.at 1) = false ∧ 1 < tin.rd (fTDM_IN_CFG_SLOTS.at 1) ∧ (Instr.spdifLock 48000 true).wf = true ∧
    din.flag fSPDIF_IN_CFG_EN = true ∧ din.on dAIO = true ∧ locked_.flag fSPDIF_IN_STAT_LOCK = true ∧ locked_.clk.spdifClock = false ∧
    locked_.aout.spdifNew = false ∧ conv.flag fASRC_CFG_EN = true ∧ asrcSource conv 1 ≠ 0 ∧ bit (conv.rd fASRC_STAT_LOCK) 1 = true ∧
    up.runsNow 0x0B00 (cmd (7 :: z 11)) = true ∧ mDacConfig.chk (bytes (7 :: z 11)) up = none ∧
    up.runsNow 0x0B01 (cmd [255, 3, 0, 0]) = true ∧ rangeBusy up 255 = false ∧ up.runsNow 0x0B02 (late (255 :: z 19)) = true ∧
    up.runsNow 0x0B03 (cmd [3, 3, 15, 1]) = true ∧ up.runsNow 0x0B04 (cmd (2 :: z 11)) = true ∧ portReg 2 0 = some rSPDIF_OUT_CFG ∧
    mPortConfig.chk (bytes (2 :: z 11)) up = none ∧ mPortConfig.chk (bytes ([0, 0, 0, 0, 0, 0, 0, 0x80] ++ z 4)) up = none ∧
    up.runsNow 0x0B05 (cmd []) = true ∧
    codesForwarded up = false ∧ codesForwarded (shadowAt 6) = true := by decide +kernel

/-- The worked example of 14: 0xA111 at 10 mA is 2.583313 mA of differential current. -/
theorem test_pinCurrents :
    let b := (sets [(fDAC_STAT_CONNECTED.at 2, 1), (fDAC_STAT_ACTIVE.at 2, 0xA111)] up).modDac 2 (fun d => { d with range := 2 })
    (pinCurrents b 2).map (fun i => ((i.1 : Int) - i.2) / 65536) = some 2583 := by decide +kernel

theorem witness_ErrorCountersStick :
    let b := up.wr fTDM_ERR_COUNT_COUNT (2 ^ 32 - 1)
    b.rd fTDM_ERR_COUNT_COUNT = 2 ^ 32 - 1 ∧ up.rd fMIX_CLIP_COUNT_COUNT < 2 ^ 32 - 1 ∧
    2 ^ 32 - 1 ≤ up.rd fMIX_CLIP_COUNT_COUNT + (2 ^ 32 - 1) ∧ rMIX_CTRL ≠ fMIX_CLIP_COUNT_COUNT.addr := by decide +kernel

/-- R494: ABORT is taken before STATUS, and STATUS before COPY. -/
theorem test_frame_order :
    nextFrame [(5, []), (3, []), (7, [])] = some (7, []) ∧ nextFrame [(5, []), (3, [])] = some (3, []) := by decide

/-- R500: a word pair of a Tide value carries from its low word to its high word. -/
theorem test_pair_words : shiftLow 5 0xFFFFFFFE = 3 ∧ shiftHigh 5 0xFFFFFFFE 1 = 2 := by decide

/-- R504: what the builder holds of a table crosses whole. -/
theorem test_table_words :
    let x : TableX := { pend := some { banks := [3, 35], commitAt := none }, retire := some ([1], 2), freed := none }
    tableOf (tableWords x) = x := by decide +kernel

theorem witness_FerryFramesAndPeer :
    let step := shadowAt 6
    let sums := { step with fry := { step.fry with sums := [(0, 5)] } }
    let waits (d : Block) : Block := { d with fry := { d.fry with sent := [⟨0, 0, []⟩] } }
    let alone := sets [(fFERRY_CTRL_AUTO_LAND, 1), (fFERRY_STAT_STATE, 6)] step
    let missed := { alone with fry := { alone.fry with missed := 1 } }
    let lands := { step with fry := { step.fry with landAt := some (0, false) } }
    let swept := (shadowAt 4)
    let serves := sets [(fFERRY_STAT_STATE, 8), (fFERRY_STAT_LINK, 1)] { asPrimary with lanes := asPrimary.lanes.set 0 { asPrimary.lane 0 with next := 1 } }
    serves.isPrimary = true ∧ ferryState serves = 8 ∧ linked serves = true ∧ serves.live 0 = true ∧ slotDone serves 0 = true ∧
    up.on dFERRY = true ∧ up.flag fFERRY_STAT_LINK = false ∧ (up.wr fFERRY_CTRL_AUTO_BOARD 0).flag fFERRY_CTRL_AUTO_BOARD = false ∧ step.flag fFERRY_STAT_LINK = true ∧
    ferryState step = 6 ∧ step.isShadow = true ∧ (asPrimary.wr fFERRY_STAT_STATE 6).isShadow = false ∧ linked step = true ∧
    (waits step).fry.sent ≠ [] ∧ (waits step).fry.replays < 3 ∧ step.on dEVT = true ∧ localCount sums 0 = 0 ∧
    sums.fry.sums.lookup (localCount sums 0) = some 5 ∧ (0 + tideMod - sums.fry.compareFrom) % tideMod < 2 ^ 47 ∧
    ferryState (shadowAt 3) = 3 ∧ ferryState (shadowAt 5) = 5 ∧ boarding (doAbort 1 (heard step)) = false ∧
    ferryState (shadowAt 2) = 2 ∧ (shadowAt 2).fry.hold = none ∧ { up with fry := { up.fry with hold := some (1, 2) } }.fry.hold = some (1, 2) ∧
    up.clk.tideHeld = false ∧ swept.live 0 = true ∧ swept.fry.crossed.contains 0 = false ∧
    (asPrimary.wr fFERRY_STAT_STATE 8).isPrimary = true ∧ ferryState (asPrimary.wr fFERRY_STAT_STATE 8) = 8 ∧
    up.isPrimary = false ∧ mayLand (step.wr fFERRY_CTRL_AUTO_LAND 0) = false ∧ mayLand missed = true ∧ missed.fry.landAt = none ∧ up.fry.lowTicks = 0 ∧
    (up.wr fTIDE_STAT_RUNNING 0).tideRuns = false ∧ lands.fry.landAt = some (0, false) ∧ lands.hasCome 0 = true := by decide +kernel

theorem witness_FerryCommands :
    let step := shadowAt 6
    let board := (shadowAt 7)
    let tok := cmdTok 0x0C03 (cmd []) up
    let hashes := { up with fry := { up.fry with hashing := some [(tok, 0)] } }
    up.runsNow 0x0C00 (cmd [1, 1, 1, 3]) = true ∧ mFerrySetRole.chk (bytes [1, 1, 1, 3]) up = none ∧
    up.runsNow 0x0C00 (cmd [0, 1, 1, 3]) = true ∧ board.runsNow 0x0C01 (cmd []) = true ∧ board.isShadow = true ∧ boarding board = false ∧
    step.takes = true ∧ step.serving = true ∧
    (cmdInfo 0x0C02).any (fun i => precheck i false (bytes [1, 0, 0, 0]) step == none) = true ∧
    landRefused (bytes [1, 0, 0, 0]) step = none ∧ landRefused (bytes [1, 0, 0, 0]) up = some .noPeer ∧
    up.runsNow 0x0C03 (cmd []) = true ∧ hashes.fry.hashing = some [(tok, 0)] ∧
    up.runsNow 0x0C04 (cmd []) = true := by decide +kernel

theorem witness_HostStatusByte : up.host.ready = true ∧ (settle (openTxn up)).host.ready = true := by decide +kernel

/-! ### Values that the spec's worked examples give -/

/-- "A cue from the lighting desk" (13, R455): one second of network time after the anchor, rate -85,899. -/
theorem test_network_time_example :
    tideOfNet 0x001200000000 0x7F4000000000 (-85899) (0x7F4000000000 + 49152000) = 0x001202EDFC29 := by decide +kernel

/-- "Lantern Reed at 48 kHz" (03, R93, R94): level 5, and w = 24,394,497,981,568 / 2^47. -/
theorem test_mip_level_example : mipLevel 2580187286514 = 5 ∧
    mipWeight 5 2580187286514 = 24394497981568 * 2 ^ 16 / 140737488355328 := by decide +kernel

/-- Copperleaf (06, R219): 256 + 2 * 64 * 4,094 = 524,288 bytes, one bank. -/
theorem test_table_banks_example : banksNeeded 64 false = 1 ∧ banksNeeded 65 false = 2 := by decide

/-- "Lantern Reed" (R113): VA SAW 4 cycles, WAVETABLE of several frames with blend and morph 3 + 8. -/
theorem test_oscillator_cost_example :
    let p := patchBytes (patchBytes image 0 [3]) 64 (bytes [1, 8, 0, 0, 0, 0, 0, 0, 12])
    let b := sets [(fTBL_DESC_W0_STATE.at 12, 2), (fTBL_DESC_W0_FRAMES.at 12, 64), (fTBL_DESC_W0_MORPH_LEN.at 12, 256)] up
    oscCost b p 0 = some 4 ∧ oscCost b p 1 = some 11 ∧ oscCost b p 2 = some 0 := by decide +kernel

/-- "A sound bar at the edge of clipping" (07, R271, R281, R283): the close, the words of gains 0.8 and 1.0, the follower. -/
theorem test_mix_example :
    let acc := { up with mix := { up.mix with accL := (up.mix.accL.set 0 (140928615 * 2 ^ 30)) } }
    let closed := (closeBuses acc).1
    let map (g : Int) : Block := (closed.wr (fMIX_OUT_MAP_KIND.at 8) 1).wr (fMIX_OUT_MAP_INDEX.at 8) 0 |>
      fun b => { b with mix := { b.mix with outGain := b.mix.outGain.set 8 { Glide.reset with cur := g } } }
    nth 0 closed.mix.closed 0 = 140928615 ∧ outSum (map 858993459) 8 = 1803886272 ∧
    outSum (map (2 ^ 30)) 8 = 2254857840 ∧ followStep 4 0 140928615 0 = 8808038 := by decide +kernel

/-- "A due-timed mode change" (02, R59): the 20 bytes in MB2. -/
theorem test_mailbox_example :
    let b := up.putMbx 0x200 (bytes [2, 0, 0x31, 0, 4, 0, 4, 0, 0, 0x50, 0x34, 0x12, 0, 0, 0, 0, 6, 1, 0, 0])
    let h := mbxHeader b 2
    leAt h 0 2 = 0x0002 ∧ leAt h 2 2 = 0x31 ∧ leAt h 4 2 = 4 ∧ headerFlags h = 4 ∧ leAt h 8 6 = 0x12345000 ∧
    headerRefusal b h = none := by decide +kernel

/-- "Riverbank Echo" (08): the word at 0x00B is parallel, MAC A0, D1, D5 beside an X load of D3 by P1 in mode 2. -/
theorem test_gralon_word_example :
    let w := 0x10A8004650000000
    kindOf w = some .parallel ∧ bitsOf w 39 38 = 1 ∧ bitsOf w 37 33 = 3 ∧ bitsOf w 32 30 = 1 ∧ bitsOf w 29 27 = 2 ∧
    wordLegal (up.core 0) w = true := by decide +kernel

/-- R482: slots 2 and 3 of port 1 at 24 bits carry output channels 26 and 27, rounded and clamped. -/
theorem test_output_slots :
    let b := sets [(fTDM_OUT_CFG_EN.at 1, 1), (fTDM_OUT_CFG_MASTER.at 1, 1), (fTDM_OUT_CFG_WIDTH.at 1, 1), (fTDM_OUT_CFG_SLOTS.at 1, 4)] up
    let b := { b with mix := { b.mix with words := (List.replicate 26 0) ++ [0x7FFFFFFF, -0x180] } }
    (nth [] (formFrames b).aout.tdmOut 1).drop 2 = [0x7FFFFF00, 0xFFFFFF00] := by decide +kernel

end Sys2Proof.Tests
end

section
/-! PROOFS. Register fields: the fields of every listed register lie apart, so a host write gives each field its own bits. -/

namespace Sys2Proof.Machine

/-! ### The fields of a listed register -/

/-- The fields of a register lie within its 32 bits, and no two of them share a bit. -/
def RegDef.FieldsApart (r : RegDef) : Prop :=
  (∀ f ∈ r.fields, f.lo ≤ f.hi ∧ f.hi < 32) ∧ r.fields.Pairwise (fun f g => f.hi < g.lo ∨ g.hi < f.lo)

/-- The register found for an address is one of those searched. -/
theorem mem_of_findReg {l : List RegDef} {a i : Nat} {r : RegDef} (h : findReg l a = some (r, i)) : r ∈ l := by
  induction l with
  | nil => simp [findReg] at h
  | cons d l ih =>
    unfold findReg at h
    split at h
    · simp only [Option.some.injEq, Prod.mk.injEq] at h
      simp [h.1]
    · exact List.mem_cons_of_mem _ (ih h)

/-- Checked of the register table, block by block. -/
theorem blockRegs_fieldsApart (a : Nat) : ∀ r ∈ blockRegs a, r.FieldsApart := by
  unfold blockRegs RegDef.FieldsApart
  split <;> decide +kernel

theorem regAt_fieldsApart {a i : Nat} {r : RegDef} (h : regAt a = some (r, i)) : r.FieldsApart :=
  blockRegs_fieldsApart a r (mem_of_findReg h)

/-! ### A word with several fields stored -/

/-- The word with every field of a list stored in turn. -/
def putFields (l : List RegField) (v : RegField → Nat) (w : Nat) : Nat := l.foldl (fun w f => putBits w f.hi f.lo (v f)) w

section
variable {l : List RegField} {v : RegField → Nat} {f : RegField}

theorem putFields_cons (g : RegField) (w : Nat) : putFields (g :: l) v w = putFields l v (putBits w g.hi g.lo (v g)) := rfl

/-- A field apart from all those stored reads as before. -/
theorem bitsOf_putFields_apart (hl : ∀ g ∈ l, g.lo ≤ g.hi) (hf : ∀ g ∈ l, g.hi < f.lo ∨ f.hi < g.lo) (w : Nat) :
    bitsOf (putFields l v w) f.hi f.lo = bitsOf w f.hi f.lo := by
  induction l generalizing w with
  | nil => rfl
  | cons g l ih =>
    rw [List.forall_mem_cons] at hl hf
    rw [putFields_cons, ih hl.2 hf.2]
    rcases hf.1 with h | h
    · exact bitsOf_putBits_gt hl.1 h
    · exact bitsOf_putBits_lt hl.1 h

/-- A field stored, apart from the others stored, reads what was stored in it. -/
theorem bitsOf_putFields_mem (hl : ∀ g ∈ l, g.lo ≤ g.hi) (ha : l.Pairwise (fun f g => f.hi < g.lo ∨ g.hi < f.lo)) (hf : f ∈ l)
    (w : Nat) : bitsOf (putFields l v w) f.hi f.lo = v f % 2 ^ (f.hi + 1 - f.lo) := by
  induction l generalizing w with
  | nil => simp at hf
  | cons g l ih =>
    rw [List.forall_mem_cons] at hl
    rw [List.pairwise_cons] at ha
    rcases List.mem_cons.mp hf with rfl | hf
    · rw [putFields_cons, bitsOf_putFields_apart hl.2 (fun g hg => (ha.1 g hg).symm), bitsOf_putBits_same hl.1]
    · exact ih hl.2 ha.2 hf _

/-! ### A host write to a register (R9, R12) -/

/-- What a write makes of a field fits the field's bits. -/
theorem RegField.write_lt (f : RegField) (old new : Nat) : f.write old new < 2 ^ (f.hi + 1 - f.lo) := by
  have hold : bitsOf old f.hi f.lo < 2 ^ (f.hi + 1 - f.lo) := bitsOf_lt
  have hnew : bitsOf new f.hi f.lo < 2 ^ (f.hi + 1 - f.lo) := bitsOf_lt
  have hor := Nat.or_lt_two_pow hold hnew
  unfold RegField.write
  cases f.acc with
  | rw => dsimp only; split <;> assumption
  | w1c => exact Nat.xor_lt_two_pow hor hnew
  | w1s => exact hor
  | ro | wo | rc => exact hold

theorem RegDef.write_eq_putFields (r : RegDef) (old new : Nat) :
    r.write old new = putFields r.fields (fun f => f.write old new) old := rfl

/-- Each field of a register written becomes what its access code says. -/
theorem bitsOf_regWrite {r : RegDef} (h : r.FieldsApart) (hf : f ∈ r.fields) (old new : Nat) :
    bitsOf (r.write old new) f.hi f.lo = f.write old new := by
  obtain ⟨hbits, hapart⟩ := h
  rw [r.write_eq_putFields, bitsOf_putFields_mem (fun g hg => (hbits g hg).1) hapart hf, Nat.mod_eq_of_lt (f.write_lt old new)]

variable (b : Block) {a i : Nat} {r : RegDef}

theorem Block.put_listed (h : regAt a = some (r, i)) (n : Nat) : b.put a n = b.setWord a (r.write (b.word a) n) := by
  simp [Block.put, h]

/-- A field of a register written holds what its access code says. -/
theorem Block.put_field (h : regAt a = some (r, i)) (hf : f ∈ r.fields) (n : Nat) :
    bitsOf ((b.put a n).word a) f.hi f.lo = f.write (b.word a) n := by
  have hr := regAt_fieldsApart h
  rw [b.put_listed h, Block.setWord_word_same, bitsOf_mod (hr.1 f hf).2, bitsOf_regWrite hr hf]

end

/-- Settles O5: a field of a written register holds what `RegField.write` makes of it, which goes by the access code. -/
theorem registerWriteFollowsAccessCodes : Obligations.RegisterWriteFollowsAccessCodes := by
  unfold Obligations.RegisterWriteFollowsAccessCodes
  intro b a n r i h _
  refine ⟨fun f hf => b.put_field h hf n, fun a' ha' => ?_⟩
  rw [b.put_listed h, Block.setWord_word_ne b _ ha']

/-- Settles O6: the field stored reads its bits back, and a field elsewhere reads bits that the store leaves alone. -/
theorem fieldHoldsWhatWasStored : Obligations.FieldHoldsWhatWasStored := by
  unfold Obligations.FieldHoldsWhatWasStored
  intro b f v hlo hhi
  exact ⟨b.wr_rd_same v hlo hhi, fun _ hg => b.wr_rd_other v hlo hhi hg⟩

end Sys2Proof.Machine
end

section
/-! PROOFS. The mix bus: its commands, its reads and its close (07). -/

namespace Sys2Proof.Machine

section
variable {b : Block}

/-! ### A word read by the octal-SPI port (R9, R11) -/

/-- A read of one word drives the word as the host reads it. -/
theorem readOne_drives (a : Nat) (hr : b.host.ready = true) (hc : b.clk.backupOsc = false) :
    readOne a b = (hostRead 0 noHit a b).2.drive (toLE 4 (hostRead 0 noHit a b).1) := by
  simp [readOne, hr, hostReads, hc]

theorem rcCounterRead_unlisted {a : Nat} (sets : Nat) (h : regAt a = none) : rcCounterRead a sets b = readOne a b := by
  simp [rcCounterRead, h]

/-- What hardware sets in the cycle of a read stands in the RC fields after it (R11). -/
theorem rcCounterRead_listed {a i : Nat} {d : RegDef} (sets : Nat) (h : regAt a = some (d, i)) :
    rcCounterRead a sets b =
      forL (d.fields.filter (fun f => f.acc == .rc)) (fun f y =>
        y.setWord a (Nat.lor (y.word a) (bitsOf sets f.hi f.lo * 2 ^ f.lo))) (readOne a b) := by
  simp [rcCounterRead, h]

theorem readClear_listed {a i : Nat} {r : RegDef} (h : regAt a = some (r, i)) :
    readClear a b = (b.word a, b.setWord a (r.afterRead i (b.word a))) := by
  simp [readClear, h]

/-! ### MIX_SET_CTRL (R290) -/

theorem mMixSetCtrl_chk {p : List Byte} (h0 : regWordOk rMIX_CTRL (leAt p 0 4) = true)
    (h1 : regWordOk rMIX_FOLLOW_CFG (leAt p 4 4) = true) (h2 : regWordOk rMIX_CKSUM_MASK (leAt p 8 4) = true) :
    mMixSetCtrl.chk p b = none := by
  simp [mMixSetCtrl, h0, h1, h2]

/-! ### The close (R271) -/

/-- Entries 2k and 2k + 1 of a list of pairs are the two of pair k. -/
theorem nth_pairs {α : Type} (d : α) (f g : Nat → α) {k n : Nat} (h : k < n) :
    nth d ((List.range n).flatMap (fun k => [f k, g k])) (2 * k) = f k ∧
    nth d ((List.range n).flatMap (fun k => [f k, g k])) (2 * k + 1) = g k := by
  induction n with
  | zero => omega
  | succ n ih =>
    have hlen : ((List.range n).flatMap (fun k => [f k, g k])).length = 2 * n := by simp [List.length_flatMap, Nat.mul_comm]
    simp only [nth, List.range_succ, List.flatMap_append, List.flatMap_singleton] at ih ⊢
    rcases Nat.lt_succ_iff_lt_or_eq.mp h with h | rfl
    · rw [List.getD_append _ _ _ _ (by omega), List.getD_append _ _ _ _ (by omega)]
      exact ih h
    · rw [List.getD_append_right _ _ _ _ (by omega), List.getD_append_right _ _ _ _ (by omega), hlen]
      simp

/-- A closed value: the accumulator rounded at 30 fractional bits and saturated to 32 bits. -/
def closedValue (x : Int) : Int := satAudio (closeSum x)

theorem closedValue_eq (x : Int) : closedValue x = clamp (-(2 ^ 31)) (2 ^ 31 - 1) ((x + 2 ^ 29) / 2 ^ 30) := rfl

theorem closeBuses_closed :
    (closeBuses b).1.mix.closed =
      (List.range 16).flatMap (fun k => [closedValue (nth 0 b.mix.accL k), closedValue (nth 0 b.mix.accR k)]) := by
  simp only [closeBuses, List.map_flatMap, List.map_cons, List.map_nil, closedValue]

theorem closeBuses_cleared {k : Nat} (h : k < 16) :
    nth 0 (closeBuses b).1.mix.accL k = 0 ∧ nth 0 (closeBuses b).1.mix.accR k = 0 :=
  ⟨List.getD_replicate 0 h, List.getD_replicate 0 h⟩

end

/-- Settles O45: each command by what its meaning answers, each read by what the port drives, the close value by value. -/
theorem mixBus : Obligations.MixBus := by
  unfold Obligations.MixBus
  intro b
  refine ⟨fun c => ⟨?setOut, ?setLive, ?setReturn, ?setCtrl, ?getStat⟩, ⟨rfl, fun _ => rfl, ?cksumRead⟩, ?counterRead,
    fun _ _ _ h => readClear_listed h, fun k hk => ?close⟩
  case setOut | setLive | setReturn => exact fun hr hc => replies_of_meets (fun _ => rfl) hr hc rfl
  case setCtrl => exact fun hr h0 h1 h2 => replies_of_meets (fun _ => rfl) hr (mMixSetCtrl_chk h0 h1 h2) rfl
  case getStat => exact fun hr => replies_of_meets (m := mMixGetStat) (fun _ => rfl) hr rfl rfl
  case cksumRead => exact ends_done (f := mixCksumRead) (fun _ => rfl)
  case counterRead =>
    intro addr sets hr hc
    have hread := readOne_drives (addr.toNat / 4 * 4) hr hc
    have hends : Ends (.rcCounterRead ⟨addr, sets⟩) b (rcCounterRead (addr.toNat / 4 * 4) sets.toNat b) :=
      ends_done (fun _ => rfl)
    refine ⟨fun h => ?_, fun d i h => ?_⟩
    · rwa [rcCounterRead_unlisted _ h, hread] at hends
    · rwa [rcCounterRead_listed _ h, hread] at hends
  case close =>
    obtain ⟨hl, hr⟩ := nth_pairs 0 (fun k => closedValue (nth 0 b.mix.accL k)) (fun k => closedValue (nth 0 b.mix.accR k)) hk
    rw [← closeBuses_closed] at hl hr
    exact ⟨hl.trans (closedValue_eq _), hr.trans (closedValue_eq _), closeBuses_cleared hk⟩

end Sys2Proof.Machine
end

section
/-! PROOFS. One sample period: the boundary's work, and the lanes that arm, render and close their slots (01). -/

namespace Sys2Proof.Machine

section
variable {b : Block}

/-! ### The boundary (R16, R17) -/

/-- Where the Tide runs, the boundary's work is done at the next multiple of P. -/
theorem sampleBoundary_runs (h : b.tideRuns = true) :
    sampleBoundary b =
      let b1 := b.advanceTo b.nextBound
      let b2 := closeLanes b1
      let b3 := { b2 with tide := { b2.tide with bound := some b.nextBound } }
      endWork (handoverMissed b1) (openWork (mixWork (dueWork (closeWindow b3)))) :=
  if_neg (by simp [h])

theorem dueCommandEffect_next (h : earliestHeld b = some b.nextBound) : dueCommandEffect b = sampleBoundary b := by
  simp [dueCommandEffect, h]

theorem modeChange_ready
    (h : b.pwr.changes.any (fun c => changeReady b c && (b.hasCome c.due || b.nextBound == b.boundAt c.due)) = true) :
    modeChange b = sampleBoundary b :=
  if_pos h

/-! ### Arming and hand-offs (R25, R187) -/

theorem voiceArm_pending {v : Nat} (hst : (b.voice v).st = 1) (ha : (b.voice v).armed = false) :
    voiceArm v b = latArm (armVoice b v (b.voice v)).2 ((armVoice b v (b.voice v)).1.setVoice v (armVoice b v (b.voice v)).2) :=
  if_pos ⟨hst, by simp [ha]⟩

theorem handOff_ready {v : Nat} {h : HandOff}
    (hf : b.sched.handoffs.find? (fun h => h.victim == v && handOffReady b h) = some h) : handOff v b = doHandOff h b := by
  simp only [handOff, hf]

/-! ### A lane's slot starts (R18, R28, R197) -/

/-- The count comes to the slot's mark, an arming still in progress joins the open window, and the slot's voice is armed. -/
def reachSlot (l s : Nat) (b : Block) : Block :=
  let b := if b.hasCome (slotMark b s) then b else b.advanceTo (slotMark b s)
  voiceArm (16 * s + l) (noteLate s (if arming b l s then b.modVoice (16 * s + l) (fun x => { x with start := b.lastBound }) else b))

/-- The lane is busy with the slot. -/
def takeSlot (l s : Nat) (b : Block) : Block :=
  b.modLane l (fun k => { k with next := s + 1, busy := some s, saved := none, push := [] })

/-- The voice x of a slot taken is rendered; the lane keeps the voice as it was and the pushes. -/
def renderSlot (l s : Nat) (x : Voice) (b : Block) : Block :=
  let v := 16 * s + l
  let r := renderVoice b v { x with st := if x.st = 1 then 2 else x.st }
  ((r.1.setVoice v r.2.1).modLane l
    (fun k => { k with saved := some (v, x, b.store.slots.filter (fun t => t.voice == v)), push := r.2.2.1 })).raiseIf
      r.2.2.2 evVOICE_CLIP

/-- The slot reached is taken, and its voice rendered where it is live and its start has come. -/
def playSlot (l s : Nat) (b : Block) : Block :=
  let x := b.voice (16 * s + l)
  let b4 := takeSlot l s b
  if x.st != 0 && startCome b4 x then renderSlot l s x b4 else b4

/-- `renderSlot` by what the render answers. -/
theorem renderSlot_of {l s : Nat} {x y : Voice} {c : Block} {ps : List Push} {clip : Bool}
    (h : renderVoice b (16 * s + l) { x with st := if x.st = 1 then 2 else x.st } = (c, y, ps, clip)) :
    renderSlot l s x b =
      ((c.setVoice (16 * s + l) y).modLane l (fun k => { k with
        saved := some (16 * s + l, x, b.store.slots.filter (fun t => t.voice == 16 * s + l)), push := ps })).raiseIf
          clip evVOICE_CLIP := by
  simp only [renderSlot, h]

theorem playSlot_renders {l s : Nat} (hst : (b.voice (16 * s + l)).st ≠ 0)
    (hcome : startCome (takeSlot l s b) (b.voice (16 * s + l)) = true) :
    playSlot l s b = renderSlot l s (b.voice (16 * s + l)) (takeSlot l s b) :=
  if_pos (by simp [hst, hcome])

theorem playSlot_passes {l s : Nat}
    (h : (b.voice (16 * s + l)).st = 0 ∨ startCome (takeSlot l s b) (b.voice (16 * s + l)) = false) :
    playSlot l s b = takeSlot l s b :=
  if_neg (by rcases h with h | h <;> simp [h])

/-- A row that plays a slot answers by the voice found there, whatever machine b3 it plays the slot on: for a b3 written out,
comparing the two sides would evaluate the render. -/
theorem ends_playSlot {i : Instr} {l s : Nat} {b3 : Block} (h : Ends i b (playSlot l s b3)) :
    let v := 16 * s + l
    let x := b3.voice v
    let b4 := b3.modLane l (fun k => { k with next := s + 1, busy := some s, saved := none, push := [] })
    let r := renderVoice b4 v { x with st := if x.st = 1 then 2 else x.st }
    (x.st ≠ 0 → startCome b4 x = true →
      Ends i b (((r.1.setVoice v r.2.1).modLane l
        (fun k => { k with saved := some (v, x, b4.store.slots.filter (fun t => t.voice == v)), push := r.2.2.1 })).raiseIf
          r.2.2.2 evVOICE_CLIP)) ∧
    ((x.st = 0 ∨ startCome b4 x = false) → Ends i b b4) := by
  refine ⟨fun hst hcome => ?_, fun hnot => ?_⟩
  · rw [playSlot_renders hst hcome] at h
    unfold renderSlot takeSlot at h
    exact h
  · rwa [playSlot_passes hnot] at h

section
variable {l s : Nat} (ht : b.tideRuns = true) (ho : b.tide.bound.isSome = true) (hl : l < b.laneCount)
  (hb : (b.lane l).busy = none)
include ht ho hl hb

/-- None of the conditions that keep a lane from starting a slot holds. -/
theorem slotStart_guard :
    ¬(!b.tideRuns || b.tide.bound.isNone || decide (b.laneCount ≤ l) || (b.lane l).busy.isSome) = true := by
  have hopen : b.tide.bound.isNone = false := by simpa using ho
  simp [ht, hopen, hl, hb]

/-- A lane that may start a slot and finds no voice to render does its hand-offs only. -/
theorem slotStart_none (hn : nextSlot (laneHandOffs l b) l = none) : slotStart l b = laneHandOffs l b := by
  rw [slotStart, if_neg (slotStart_guard ht ho hl hb)]
  simp only [hn]

/-- A lane that may start a slot comes to its next slot and plays it. The render's answer is taken apart before the two sides
meet, so that the comparison never evaluates the render. -/
theorem slotStart_some (hn : nextSlot (laneHandOffs l b) l = some s) :
    slotStart l b = playSlot l s (reachSlot l s (laneHandOffs l b)) := by
  rw [slotStart, if_neg (slotStart_guard ht ho hl hb)]
  extract_lets handed
  split
  next hnone => exact absurd (hnone.symm.trans hn) (by simp)
  next t hsome =>
    obtain rfl := Option.some.inj (hsome.symm.trans hn)
    extract_lets v marked joined armed x taken was
    by_cases hplay : (x.st != 0 && startCome taken x) = true
    · rw [if_pos hplay]
      rcases hr : renderVoice taken v { x with st := if x.st = 1 then 2 else x.st } with ⟨c, y, ps, clip⟩
      exact ((if_pos hplay).trans (renderSlot_of hr)).symm
    · rw [if_neg hplay]
      exact (if_neg hplay).symm

end

/-! ### A lane's slot ends (R22, R120) -/

/-- The lane is free again; the VOICE cycles of the slot are a free value. -/
def freeLane (l : Nat) (b : Block) : Block :=
  (b.fresh 569).2.modLane l (fun k =>
    { k with busy := none, saved := none, push := [], cycles := k.cycles + (b.fresh 569).1, doneAt := some b.now })

theorem slotComplete_busy {l s : Nat} (h : (b.lane l).busy = some s) :
    slotComplete l b =
      if (b.lane l).saved.isSome then endRender (16 * s + l) (pushAll (b.lane l).push (freeLane l b))
      else pushAll (b.lane l).push (freeLane l b) := by
  simp only [slotComplete, h]
  rfl

end

/-- Settles O21: each of the three rows does the work of the boundary, where its own condition brings it there. -/
theorem boundaryWorkRunsInOrder : Obligations.BoundaryWorkRunsInOrder := by
  unfold Obligations.BoundaryWorkRunsInOrder
  intro b t b1 b2 b3 done ht
  have hdone : sampleBoundary b = done := sampleBoundary_runs ht
  refine ⟨?boundary, fun hdue => ?dueCommand, fun hready => ?change⟩
  case boundary => exact hdone ▸ ends_done (fun _ => rfl)
  case dueCommand =>
    rw [← hdone, ← dueCommandEffect_next hdue]
    exact ends_done (fun _ => rfl)
  case change =>
    rw [← hdone, ← modeChange_ready hready]
    exact ends_done (fun _ => rfl)

/-- Settles O41: arming and hand-off by their conditions, a slot's start by the slot found and the voice in it, its end by
whether a render stood in the lane. -/
theorem lanesRender : Obligations.LanesRender := by
  unfold Obligations.LanesRender
  intro b
  refine ⟨fun v hv hst ha => ?arm, fun v h hv hf => ?handOff, fun l hl ht ho hlc hb => ?start, fun l s hl hb => ?complete⟩
  case arm =>
    intro r
    rw [← voiceArm_pending hst ha]
    exact ends_doneIf (fun _ => rfl) (decide_eq_true hv)
  case handOff =>
    rw [← handOff_ready hf]
    exact ends_doneIf (fun _ => rfl) (decide_eq_true hv)
  case start =>
    have hends : Ends (.slotStart l) b (slotStart l b) := ends_doneIf (fun _ => rfl) (decide_eq_true hl)
    refine ⟨fun hn => slotStart_none ht ho hlc hb hn ▸ hends, fun s hn => ?_⟩
    rw [slotStart_some ht ho hlc hb hn] at hends
    exact ends_playSlot hends
  case complete =>
    have hends : Ends (.slotComplete l) b (slotComplete l b) := ends_doneIf (fun _ => rfl) (decide_eq_true hl)
    rw [slotComplete_busy hb] at hends
    exact ⟨fun hs => by rwa [if_pos hs] at hends, fun hs => by rwa [if_neg (by simp [hs])] at hends⟩

end Sys2Proof.Machine
end

section
/-! PROOFS. The words of the host ports: a word is buffered, or discarded and reported (02 R33, R45, R46, R58). -/

namespace Sys2Proof.Machine

section
variable {b : Block} {a v txn : Nat}

/-! ### One-bit fields set (R55) -/

/-- A field of one bit within a register word. -/
def Fld.OneBit (f : Fld) : Prop := f.lo = f.hi ∧ f.hi < 32

/-- Setting one bit leaves every bit that reads 1 as it was. -/
theorem Block.wr_one_keeps {f g : Fld} (hg : g.OneBit) (hf : f.OneBit) (h : b.flag f = true) : (b.wr g 1).flag f = true := by
  obtain ⟨hglo, hghi⟩ := hg
  obtain ⟨hflo, hfhi⟩ := hf
  by_cases hsame : f.addr = g.addr ∧ f.hi = g.hi
  · have hrd : (b.wr g 1).rd f = (b.wr g 1).rd g := by simp only [Block.rd, hsame.1, hsame.2, hflo, hglo]
    rw [Block.flag, hrd, b.wr_rd_same 1 hglo.le hghi, hglo]
    simp
  · rw [Block.flag, b.wr_rd_other 1 hglo.le hghi (by omega)]
    exact h

theorem Block.wr_one_flag {f : Fld} (hf : f.OneBit) : (b.wr f 1).flag f = true := by
  rw [Block.flag, b.wr_rd_same 1 hf.1.le hf.2, hf.1]
  simp

/-- Bits set one after the other: each reads 1, and so does every bit that read 1 before. -/
theorem wrAll_flag {l : List Fld} {f : Fld} (hl : ∀ g ∈ l, g.OneBit) (hf : f.OneBit) (h : f ∈ l ∨ b.flag f = true) :
    (l.foldl (fun b f => b.wr f 1) b).flag f = true := by
  induction l generalizing b with
  | nil => simpa using h
  | cons g l ih =>
    rw [List.forall_mem_cons] at hl
    refine ih hl.2 ?_
    rcases h with h | h
    · rcases List.mem_cons.mp h with rfl | h
      · exact .inr (Block.wr_one_flag hf)
      · exact .inl h
    · exact .inr (Block.wr_one_keeps hl.1 hf h)

theorem wrAll_word_ne {l : List Fld} {a : Nat} (hl : ∀ g ∈ l, g.addr ≠ a) :
    (l.foldl (fun b f => b.wr f 1) b).word a = b.word a := by
  induction l generalizing b with
  | nil => rfl
  | cons g l ih =>
    rw [List.forall_mem_cons] at hl
    rw [List.foldl_cons, ih hl.2, b.wr_word_ne 1 (Ne.symm hl.1)]

/-! ### A port error reported (R33, R55) -/

/-- The bits of HIF_HOST_STAT that a port error may set, all of one bit. -/
def hostStatBits : List Fld :=
  [fHIF_HOST_STAT_WINDOW_UNMAPPED, fHIF_HOST_STAT_MBX_OWNER, fHIF_HOST_STAT_ABORT_KEY, fHIF_HOST_STAT_PARTIAL_WORD,
   fHIF_HOST_STAT_BAD_OPCODE, fHIF_HOST_STAT_READ_UNDERRUN, fHIF_HOST_STAT_WRITE_DISCARDED, fHIF_HOST_STAT_GRANT_VIOLATION]

theorem hostStatBits_oneBit : ∀ f ∈ hostStatBits, f.OneBit ∧ f.addr = rHIF_HOST_STAT := by
  unfold hostStatBits Fld.OneBit
  decide

variable {bits : List Fld}

/-- Each bit that names a port error reads 1. -/
theorem Block.hostErr_flag {f : Fld} (hb : bits ⊆ hostStatBits) (hf : f ∈ bits) (o : Option Nat) :
    (b.hostErr bits o).flag f = true := by
  simp only [Block.hostErr, Block.raise_flag]
  exact wrAll_flag (fun g hg => (hostStatBits_oneBit g (hb hg)).1) (hostStatBits_oneBit f (hb hf)).1 (.inl hf)

theorem Block.hostErr_pending (o : Option Nat) : (b.hostErr bits o).ev.pend.getLsbD evHOST_PORT_ERR = true :=
  Block.raise_pending _ (by decide)

theorem Block.wr_errAddr (v : Nat) : (b.wr fHIF_ERR_ADDR_ADDR v).word rHIF_ERR_ADDR = v % 2 ^ 32 := by
  have hrd : (b.wr fHIF_ERR_ADDR_ADDR v).rd fHIF_ERR_ADDR_ADDR = v % 2 ^ 32 := b.wr_rd_same v (by decide) (by decide)
  rw [← hrd, Block.rd, bitsOf, Nat.mod_eq_of_lt] <;> simp [fHIF_ERR_ADDR_ADDR, rHIF_ERR_ADDR]
  exact Block.word_lt _ _

/-- The first error's address is captured (R55). -/
theorem Block.hostErr_address (hb : bits ⊆ hostStatBits) (h0 : b.word rHIF_HOST_STAT = 0) (a : Nat) :
    (b.hostErr bits (some a)).word rHIF_ERR_ADDR = a / 4 * 4 % 2 ^ 32 := by
  have hne : ∀ g ∈ bits, g.addr ≠ rHIF_ERR_ADDR := fun g hg => by
    rw [(hostStatBits_oneBit g (hb hg)).2]
    decide
  simp only [Block.hostErr, Block.raise_word, wrAll_word_ne hne, if_pos h0]
  exact Block.wr_errAddr _

/-! ### A word discarded (R46) -/

/-- A word discarded reports its error, and beside that touches the host port only. -/
theorem Block.discardWord_keeps {α : Type} (p : Block → α)
    (h : ∀ (x : Block) (host : HostPort), p { x with host := host } = p x) (bits : List Fld) (a txn : Nat) :
    p (b.discardWord bits a txn) = p (b.hostErr (bits ++ [fHIF_HOST_STAT_WRITE_DISCARDED]) (some a)) := by
  unfold Block.discardWord
  generalize b.hostErr _ _ = e
  dsimp only
  split
  · split
    · exact h e _
    · rfl
  · rfl

theorem Block.discardWord_wbuf (bits : List Fld) (a txn : Nat) : (b.discardWord bits a txn).host.wbuf = b.host.wbuf := by
  have hhost := Block.hostErr_host b (bits ++ [fHIF_HOST_STAT_WRITE_DISCARDED]) (some a)
  unfold Block.discardWord
  generalize b.hostErr _ _ = e at hhost ⊢
  rw [← hhost]
  dsimp only
  split
  · split <;> rfl
  · rfl

/-- What a word discarded leaves for the host to see. -/
theorem Block.discardWord_reports (hb : bits ⊆ hostStatBits) (a txn : Nat) :
    (∀ f ∈ bits, (b.discardWord bits a txn).flag f = true) ∧
    (b.discardWord bits a txn).flag fHIF_HOST_STAT_WRITE_DISCARDED = true ∧
    (b.discardWord bits a txn).ev.pend.getLsbD evHOST_PORT_ERR = true ∧
    (b.discardWord bits a txn).host.wbuf = b.host.wbuf ∧
    (b.word rHIF_HOST_STAT = 0 → (b.discardWord bits a txn).word rHIF_ERR_ADDR = a / 4 * 4 % 2 ^ 32) := by
  have hsub : bits ++ [fHIF_HOST_STAT_WRITE_DISCARDED] ⊆ hostStatBits :=
    List.append_subset.mpr ⟨hb, by simp [hostStatBits]⟩
  have hflag (f : Fld) := Block.discardWord_keeps (b := b) (·.flag f) (fun _ _ => rfl) bits a txn
  have hev := Block.discardWord_keeps (b := b) (·.ev) (fun _ _ => rfl) bits a txn
  have hword := Block.discardWord_keeps (b := b) (·.word rHIF_ERR_ADDR) (fun _ _ => rfl) bits a txn
  refine ⟨fun f hf => ?_, ?_, ?_, Block.discardWord_wbuf bits a txn, fun h0 => ?_⟩
  · rw [hflag, Block.hostErr_flag hsub (List.mem_append_left _ hf)]
  · rw [hflag, Block.hostErr_flag hsub (by simp)]
  · rw [hev, Block.hostErr_pending]
  · rw [hword, Block.hostErr_address hsub h0]

/-! ### A word that arrives (R33, R45, R58) -/

/-- The machine with words behind those of the write buffer. -/
def Block.buffered (b : Block) (ws : List BufWord) : Block := { b with host := { b.host with wbuf := b.host.wbuf ++ ws } }

theorem Block.buffered_nil : b.buffered [] = b := by simp [Block.buffered]

theorem Block.buffered_append (ws ws' : List BufWord) : (b.buffered ws).buffered ws' = b.buffered (ws ++ ws') := by
  simp [Block.buffered]

theorem granted_buffered (ws : List BufWord) : granted (b.buffered ws) a = granted b a := rfl

theorem arrive_refused {bits : List Fld} (h : arrivalError a b = some bits) : arrive a v txn b = b.discardWord bits a txn := by
  simp [arrive, h]

theorem arrive_accepted (h : arrivalError a b = none) : arrive a v txn b = b.buffered [⟨a, v, txn⟩] := by
  simp [arrive, h, Block.buffered]

theorem arrivalError_ungranted (h : granted b a = false) : arrivalError a b = some [fHIF_HOST_STAT_GRANT_VIOLATION] := by
  simp [arrivalError, h]

theorem arrivalError_notOwned (hg : granted b a = true) (hu : unmapped b a = false) (hn : notHosts b a = true) :
    arrivalError a b = some [fHIF_HOST_STAT_MBX_OWNER] := by
  simp [arrivalError, hg, hu, hn]

theorem arrivalError_full (hg : granted b a = true) (hu : unmapped b a = false) (hn : notHosts b a = false)
    (hf : 64 ≤ b.host.wbuf.length) : arrivalError a b = some [] := by
  simp [arrivalError, hg, hu, hn, hf]

/-- A granted word that finds room arrives, where its window maps it and its mailbox is the host's. -/
theorem arrivalError_accepts (hg : granted b a = true) (hu : unmapped b a = false) (hn : notHosts b a = false)
    (hf : b.host.wbuf.length < 64) : arrivalError a b = none := by
  simp [arrivalError, hg, hu, hn, hf]

/-- An address below the LPDDR window has no page to miss. -/
theorem unmapped_below (h : a < 0x80000000) : unmapped b a = false := by
  simp [unmapped, h]

/-- An address above the mailboxes is in none. -/
theorem notHosts_above (h : 0x2000 ≤ a) : notHosts b a = false := by
  simp [notHosts, h]

/-- The bits that name why a word is discarded are bits of HIF_HOST_STAT. -/
theorem arrivalError_bits {bits : List Fld} (h : arrivalError a b = some bits) : bits ⊆ hostStatBits := by
  unfold arrivalError at h
  split_ifs at h <;> simp only [Option.some.injEq] at h <;> subst h <;> simp [hostStatBits]

/-- The write buffer never grows past 64 words (R45). -/
theorem arrive_keeps_bound (h : b.host.wbuf.length ≤ 64) : (arrive a v txn b).host.wbuf.length ≤ 64 := by
  cases he : arrivalError a b with
  | some bits =>
    obtain ⟨-, -, -, hbuf, -⟩ := Block.discardWord_reports (b := b) (arrivalError_bits he) a txn
    rwa [arrive_refused he, hbuf]
  | none =>
    have hroom : ¬ 64 ≤ b.host.wbuf.length := fun hfull => by
      unfold arrivalError at he
      split_ifs at he
    rw [arrive_accepted he]
    simp [Block.buffered]
    omega

/-! ### The words of a WRITE (R39, R40, R45) -/

/-- With no transaction open, one opens and nothing else changes. -/
theorem openTxn_none (h : b.host.txn = none) :
    openTxn b = { b with host := { b.host with
      txn := some { id := b.host.txnNext, busy := false, part := none }, txnNext := b.host.txnNext + 1, out := [] } } := by
  simp [openTxn, hcsnRise, h]

/-- Granted words for registers of the blocks enter the buffer in order while it has room for them. -/
theorem arriveAll_buffers {ws : List Word} (h1 : 0x10000 ≤ a) (h2 : a + 4 * ws.length ≤ 0xF0000)
    (hg : ∀ k < ws.length, granted b (a + 4 * k) = true) (hroom : b.host.wbuf.length + ws.length ≤ 64) :
    arriveAll txn a ws b = b.buffered (ws.mapIdx (fun k w => ⟨a + 4 * k, w.toNat, txn⟩)) := by
  induction ws generalizing a b with
  | nil => simp [arriveAll, Block.buffered_nil]
  | cons w ws ih =>
    simp only [List.length_cons] at h2 hg hroom
    have hfirst : arrivalError a b = none :=
      arrivalError_accepts (hg 0 (by omega)) (unmapped_below (by omega)) (notHosts_above (by omega)) (by omega)
    have hlen : (b.buffered [⟨a, w.toNat, txn⟩]).host.wbuf.length = b.host.wbuf.length + 1 := by simp [Block.buffered]
    rw [arriveAll, arrive_accepted hfirst, Nat.mod_eq_of_lt (by omega),
      ih (by omega) (by omega) (fun k hk => by
        rw [granted_buffered, show a + 4 + 4 * k = a + 4 * (k + 1) by omega]
        exact hg _ (by omega)) (by omega),
      Block.buffered_append]
    simp [List.mapIdx_cons, Nat.mul_add, Nat.add_assoc, Nat.add_comm]

end

/-- Settles O11: the words of a WRITE by induction on them, a word that arrives by the reason for which it is discarded. -/
theorem wordsEnterTheBufferOrAreReported : Obligations.WordsEnterTheBufferOrAreReported := by
  unfold Obligations.WordsEnterTheBufferOrAreReported
  refine ⟨fun b addr words hserve htxn h1 h2 hg hroom => ?words,
    fun b a v txn => ⟨arrive_keeps_bound, fun hg => ?ungranted, fun hg hu hn => ?notOwned, fun hg hu hn hfull => ?full⟩⟩
  case words =>
    have hopen := openTxn_none htxn
    have hends : Ends (.write addr words 0) b (spiWrite addr words 0 b) :=
      ends_doneIf (ok := Instr.wf (.write addr words 0)) (fun _ => rfl) rfl
    simp only [spiWrite, hserve] at hends
    rw [arriveAll_buffers h1 h2 (by rw [hopen]; exact hg) (by rw [hopen]; exact hroom), hopen] at hends
    exact hends
  case ungranted =>
    have he := arrivalError_ungranted hg
    obtain ⟨hbits, hdisc, hpend, hbuf, haddr⟩ := Block.discardWord_reports (b := b) (arrivalError_bits he) a txn
    rw [arrive_refused he]
    exact ⟨hbits _ (by simp), hdisc, hpend, hbuf, haddr⟩
  case notOwned =>
    have he := arrivalError_notOwned hg hu hn
    obtain ⟨hbits, hdisc, -, hbuf, -⟩ := Block.discardWord_reports (b := b) (arrivalError_bits he) a txn
    rw [arrive_refused he]
    exact ⟨hbits _ (by simp), hdisc, hbuf⟩
  case full =>
    have he := arrivalError_full hg hu hn hfull.ge
    obtain ⟨-, hdisc, hpend, hbuf, -⟩ := Block.discardWord_reports (b := b) (arrivalError_bits he) a txn
    rw [arrive_refused he]
    exact ⟨hdisc, hpend, hbuf⟩

end Sys2Proof.Machine
end

section
/-! PROOFS. The transactions of the octal-SPI port and of the I2C port (02 R36 to R51; 11 R412). -/

namespace Sys2Proof.Machine

/-! ### What a row answers, by an equation of its function -/

section
variable {i : Instr} {b b' : Block} {f : Block → Block}

theorem ends_of_eq (h : ∀ s, exec i s = done f s) (he : f b = b') : Ends i b b' := he ▸ ends_done h

theorem ends_of_eqIf {ok : Bool} (h : ∀ s, exec i s = doneIf ok f s) (hw : ok = true) (he : f b = b') : Ends i b b' :=
  he ▸ ends_doneIf h hw

end

section
variable {b : Block} {addr : Word} {ps : Nat}

/-! ### The octal-SPI port accepts (R36 to R47) -/

theorem portsServe_of_ready (hr : b.host.ready = true) (hc : b.clk.backupOsc = false) : portsServe b = true := by
  simp [portsServe, hr, hc]

theorem spiWrite_serves (h : portsServe b = true) (words : List Word) (part : Nat) :
    spiWrite addr words part b =
      let a := addr.toNat / 4 * 4
      let w := arriveAll b.host.txnNext a words (openTxn b)
      if part = 0 then w
      else { w with host := { w.host with
        txn := w.host.txn.map (fun t => { t with part := some ((a + 4 * words.length) % 2 ^ 32) }) } } := by
  simp [spiWrite, h]

/-- A read with dummy cycles enough, or of no word, drives the words (R43). -/
theorem spiRead_inTime (hr : b.host.ready = true) {words : List SlateHit}
    (h : words = [] ∨ accessPs (addr.toNat / 4 * 4) ≤ (openTxn b).rd fHIF_HOST_CFG_DUMMY * ps) :
    spiRead addr words ps b =
      (hostReads 0 words (addr.toNat / 4 * 4) (openTxn b)).2.drive (hostReads 0 words (addr.toNat / 4 * 4) (openTxn b)).1 := by
  have hnot : ¬ ((openTxn b).rd fHIF_HOST_CFG_DUMMY * ps < accessPs (addr.toNat / 4 * 4) ∧ words ≠ []) := by
    rintro ⟨hearly, hne⟩
    rcases h with h | h
    · exact hne h
    · omega
  simp [spiRead, hr, hnot]

/-- A read that comes too early leaves the first word open and reports it (R43). -/
theorem spiRead_early (hr : b.host.ready = true) {words : List SlateHit} (hw : words ≠ [])
    (h : (openTxn b).rd fHIF_HOST_CFG_DUMMY * ps < accessPs (addr.toNat / 4 * 4)) :
    spiRead addr words ps b =
      let a := addr.toNat / 4 * 4
      let u := ((openTxn b).hostErr [fHIF_HOST_STAT_READ_UNDERRUN] (some a)).freshWord
      let r := hostReads 0 words a u.2
      r.2.drive (toLE 4 u.1 ++ r.1.drop 4) := by
  simp [spiRead, hr, h, hw]

theorem spiStatus_ready (hr : b.host.ready = true) (count : Nat) :
    spiStatus count b =
      (settle (openTxn b)).drive (List.replicate count (BitVec.ofNat 8 (statusByte (settle (openTxn b))))) :=
  if_pos hr

theorem spiId_ready (hr : b.host.ready = true) (count : Nat) :
    spiId count b = (openTxn b).drive (List.replicate count (toLE 4 ((openTxn b).word rHIF_ID))).flatten :=
  if_pos hr

/-- PORT_RESET writes the reset value 0x10 of HIF_HOST_CFG (R41, R54). -/
theorem portReset_ready (hr : b.host.ready = true) : portReset b = (openTxn b).setWord rHIF_HOST_CFG 0x10 := by
  have hreset : (regReset rHIF_HOST_CFG).toNat = 0x10 := by decide
  rw [portReset, if_pos hr, hreset]

theorem badOpcode_ready (hr : b.host.ready = true) {op : Byte} (ho : op.toNat ∉ [0x02, 0x0B, 0x05, 0x9F, 0xFF]) :
    badOpcode op b = (openTxn b).hostErr [fHIF_HOST_STAT_BAD_OPCODE] none := by
  have hc : spiOpcodes.contains op.toNat = false := by simpa [spiOpcodes] using ho
  rw [badOpcode, hr, hc]
  rfl

theorem hcsnRise_whole {t : Txn} (h : b.host.txn = some t) (hp : t.part = none) :
    hcsnRise b = { b with host := { b.host with txn := none } } := by
  simp [hcsnRise, h, hp]

theorem hcsnRise_partial {t : Txn} (h : b.host.txn = some t) {a : Nat} (hp : t.part = some a) :
    hcsnRise b = { b with host := { b.host with txn := none } }.hostErr
      [fHIF_HOST_STAT_PARTIAL_WORD, fHIF_HOST_STAT_WRITE_DISCARDED] (some a) := by
  simp [hcsnRise, h, hp]

/-! ### After a failure of the IRC (R412) -/

theorem portsServe_failed (hc : b.clk.backupOsc = true) : portsServe b = false := by
  simp [portsServe, hc]

theorem spiWrite_unserved (h : portsServe b = false) (words : List Word) (part : Nat) : spiWrite addr words part b = b := by
  simp [spiWrite, h]

theorem hostWordWith_unserved (h : portsServe b = false) (p : TwoCycles) (v : Word) : hostWordWith p addr v b = b := by
  simp [hostWordWith, h]

theorem openTxn_clk : (openTxn b).clk = b.clk := by
  unfold openTxn hcsnRise
  split
  · rfl
  · dsimp only
    split <;> simp

/-- A register word is read also after the failure. -/
theorem hostReads_register {a : Nat} (h : isRegisterWord a = true) (req : Nat) (hit : SlateHit) :
    hostReads req [hit] a b = (toLE 4 (hostRead req hit a b).1, (hostRead req hit a b).2) := by
  simp [hostReads, h]

/-- Any other word then reads 0 (notes/assumptions/45.md). -/
theorem hostReads_failed {a : Nat} (hc : b.clk.backupOsc = true) (h : isRegisterWord a = false) (req : Nat) (hit : SlateHit) :
    hostReads req [hit] a b = ([0, 0, 0, 0], b) := by
  simp [hostReads, h, hc, toLE]

/-! ### The host status byte (R42) -/

/-- Eight flags, the first in bit 7, read back from the byte they make. -/
theorem getLsbD_flagByte : ∀ s7 s6 s5 s4 s3 s2 s1 s0 : Bool,
    let s := BitVec.ofNat 8 (b2n s7 * 128 + b2n s6 * 64 + b2n s5 * 32 + b2n s4 * 16 + b2n s3 * 8 + b2n s2 * 4 + b2n s1 * 2 + b2n s0)
    s.getLsbD 7 = s7 ∧ s.getLsbD 6 = s6 ∧ s.getLsbD 5 = s5 ∧ s.getLsbD 4 = s4 ∧ s.getLsbD 3 = s3 ∧ s.getLsbD 2 = s2 ∧
    s.getLsbD 1 = s1 ∧ s.getLsbD 0 = s0 := by
  decide

theorem Block.flag_iff (f : Fld) : b.flag f = true ↔ b.rd f ≠ 0 := by
  simp [Block.flag]

/-! ### The I2C port (R49 to R51) -/

variable {target : BitVec 7}

theorem i2cMine_of_serves (h : portsServe b = true) (ht : target.toNat = b.rd fHIF_I2C_ADDR_ADDR) : i2cMine b target = true := by
  simp only [portsServe, Bool.and_eq_true] at h
  simp [i2cMine, h.1, ht]

/-- A write to the port's address takes its words, and reports a partial last word where all of them were acknowledged. -/
theorem i2cWrite_mine (h : portsServe b = true) (ht : target.toNat = b.rd fHIF_I2C_ADDR_ADDR) (words : List Word) (part : Nat) :
    i2cWrite target addr words part b =
      let a := addr.toNat / 4 * 4
      let r := i2cWords b.host.txnNext a words
        { b with host := { b.host with txnNext := b.host.txnNext + 1, out := [], nack := false } }
      let n := { r.2 with host := { r.2.host with nack := !r.1 } }
      if r.1 = true ∧ part ≠ 0 then
        n.hostErr [fHIF_HOST_STAT_PARTIAL_WORD, fHIF_HOST_STAT_WRITE_DISCARDED] (some ((a + 4 * words.length) % 2 ^ 32))
      else n := by
  unfold i2cWrite
  rw [if_neg (by simp [i2cMine_of_serves h ht, h])]

theorem i2cRead_mine (h : portsServe b = true) (ht : target.toNat = b.rd fHIF_I2C_ADDR_ADDR) (words : List SlateHit) :
    i2cRead target addr words b =
      let r := hostReads 1 words (addr.toNat / 4 * 4) { b with host := { b.host with nack := false } }
      r.2.drive r.1 := by
  unfold i2cRead
  rw [if_neg (by simp [i2cMine_of_serves h ht])]

end

/-- Settles O9: each transaction by what its function does where the port accepts, and where the IRC has failed. -/
theorem octalSpiTransactions : Obligations.OctalSpiTransactions := by
  unfold Obligations.OctalSpiTransactions
  refine ⟨fun b => ⟨fun hr => ⟨fun addr words part hp hc => ?write,
      fun addr ps words => ⟨fun h => ?inTime, fun hw h => ?early⟩, fun count => ⟨?status, ?id⟩, ?reset, fun op ho => ?opcode⟩, fun t ht => ⟨fun hp => ?whole, fun a hp => ?part⟩⟩,
    fun b hr hc => ⟨fun addr v words part p hp => ?writes, fun addr ps hit hreg h => ?register, fun addr ps hit hreg h => ?other,
      ?resetFailed⟩⟩
  case write => exact ends_of_eqIf (fun _ => rfl) (decide_eq_true hp) (spiWrite_serves (portsServe_of_ready hr hc) words part)
  case inTime => exact ends_of_eq (fun _ => rfl) (spiRead_inTime hr h)
  case early => exact ends_of_eq (fun _ => rfl) (spiRead_early hr hw h)
  case status => exact ends_of_eq (fun _ => rfl) (spiStatus_ready hr count)
  case id => exact ends_of_eq (fun _ => rfl) (spiId_ready hr count)
  case reset | resetFailed => exact ends_of_eq (fun _ => rfl) (portReset_ready hr)
  case opcode => exact ends_of_eq (fun _ => rfl) (badOpcode_ready hr ho)
  case whole => exact ends_of_eq (fun _ => rfl) (hcsnRise_whole ht hp)
  case part => exact ends_of_eq (fun _ => rfl) (hcsnRise_partial ht hp)
  case writes =>
    have hno := portsServe_failed hc
    have hword (q : TwoCycles) : hostWordWith q addr v b = b := hostWordWith_unserved hno q v
    exact ⟨ends_of_eqIf (fun _ => rfl) (decide_eq_true hp) (spiWrite_unserved hno words part),
      ends_of_eq (fun _ => rfl) (hword noMeet), ends_of_eq (fun _ => rfl) (hword noMeet), ends_of_eq (fun _ => rfl) (hword p),
      ends_of_eq (f := fun b => if portsServe b then writeRetire b else b) (fun _ => rfl) (if_neg (by simp [hno]))⟩
  case register =>
    have hread := spiRead_inTime hr (words := [hit]) (.inr h)
    rw [hostReads_register hreg] at hread
    exact ends_of_eq (fun _ => rfl) hread
  case other =>
    have hread := spiRead_inTime hr (words := [hit]) (.inr h)
    rw [hostReads_failed (by rw [openTxn_clk, hc]) hreg] at hread
    exact ends_of_eq (fun _ => rfl) hread

/-- Settles O10: the byte is made of eight flags, and gives each of them back. -/
theorem hostStatusByte : Obligations.HostStatusByte := by
  unfold Obligations.HostStatusByte
  intro b count hr now
  refine ⟨_, ends_of_eq (fun _ => rfl) (spiStatus_ready hr count), ?_⟩
  obtain ⟨h7, h6, h5, h4, h3, h2, h1, h0⟩ := getLsbD_flagByte (now.word rHIF_HOST_STAT != 0) (now.flag fHIF_STATUS_ABORT_BUSY)
    (now.flag fHIF_STATUS_PROCTOR_RUN) (now.flag fHIF_DOORBELL_OUT_READY) (now.flag fHIF_HOST_STAT_READ_UNDERRUN)
    (now.flag fHIF_HOST_STAT_WRITE_DISCARDED) now.host.hirq now.host.hbusy
  simp only [← Block.flag_iff]
  unfold statusByte
  exact ⟨by rw [h7]; simp, by rw [h6], by rw [h5], by rw [h4], by rw [h3], by rw [h2], by rw [h1], by rw [h0]⟩

/-- Settles O12: a write by whether its words were acknowledged, a read by the words it drives. -/
theorem i2cTransactions : Obligations.I2cTransactions := by
  unfold Obligations.I2cTransactions
  intro b target addr hs ht
  refine ⟨fun words part hp => ?write, fun words => ?read⟩
  case write =>
    have hends : Ends (.i2cWrite target addr words part) b (i2cWrite target addr words part b) :=
      ends_doneIf (fun _ => rfl) (decide_eq_true hp)
    rw [i2cWrite_mine hs ht] at hends
    refine ⟨fun hack => ?_, fun hack hp0 => ?_, fun hack hp0 => ?_⟩
    · simpa [hack] using hends
    · simpa [hack, hp0] using hends
    · simpa [hack, hp0] using hends
  case read => exact ends_of_eq (fun _ => rfl) (i2cRead_mine hs ht words)

end Sys2Proof.Machine
end

section
/-! PROOFS. A host word reaches its target: mailboxes, doorbells, registers and their enables, and the windows (02 R33 to R35, R45,
R52 to R58, R70, R72; 09 R343, R349 to R351). -/

namespace Sys2Proof.Machine

section
variable {b : Block} {addr v : Word} {a : Nat}

/-! ### From arrival to the target (R45) -/

/-- The number of the transaction that a single word belongs to. -/
def Block.wordTxn (b : Block) : Nat := match b.host.txn with | some t => t.id | none => b.host.txnNext

/-- A word that is not discarded retires behind those that wait. -/
theorem hostWordWith_retires (hs : portsServe b = true) (he : arrivalError (addr.toNat / 4 * 4) b = none) (p : TwoCycles) :
    hostWordWith p addr v b = retireWord (addr.toNat / 4 * 4) v.toNat b.wordTxn p b.drained := by
  unfold hostWordWith
  rw [if_neg (by simp [hs])]
  simp only [he]
  rfl

theorem Block.drained_empty (h : b.host.wbuf = []) : b.drained = b := by
  simp [Block.drained, h, forN]

/-- What `hostMay` gives. -/
theorem hostMay_parts (h : b.hostMay a = true) : portsServe b = true ∧ b.host.wbuf = [] ∧ granted b a = true := by
  simp only [Block.hostMay, Bool.and_eq_true, List.isEmpty_iff] at h
  exact ⟨h.1.1, h.1.2, h.2⟩

/-- A granted word retires at once where none waits. -/
theorem hostWordWith_empty (hs : portsServe b = true) (hw : b.host.wbuf = []) (hg : granted b (addr.toNat / 4 * 4) = true)
    (hu : unmapped b (addr.toNat / 4 * 4) = false) (hn : notHosts b (addr.toNat / 4 * 4) = false) (p : TwoCycles) :
    hostWordWith p addr v b = retireWord (addr.toNat / 4 * 4) v.toNat b.wordTxn p b := by
  rw [hostWordWith_retires hs (arrivalError_accepts hg hu hn (by simp [hw])), Block.drained_empty hw]

/-! ### Enables (R70, R72) -/

section
variable {n : Nat} (he : isEnable a = true)
include he

/-- A write of 0 to the enable whose check runs ends that check and disturbs no other. -/
theorem writeReg_zero_own (hz : bit n 31 = false) {c : Check} (hc : (storeWord a n b).proc.checks.head? = some c)
    (hca : c.addr = a) :
    writeReg a n b = writeZero a (storeWord a n b) := by
  simp [writeReg, he, hz, hc, hca]

/-- A write of 0 to another enable: the running check of its block starts again. -/
theorem writeReg_zero_other (hz : bit n 31 = false) (hc : ∀ c, (storeWord a n b).proc.checks.head? = some c → c.addr ≠ a) :
    writeReg a n b = restartCheck a (writeZero a (storeWord a n b)) := by
  have hown : (((storeWord a n b).proc.checks.head?.map (fun c => c.addr == a)).getD false) = false := by
    cases hh : (storeWord a n b).proc.checks.head? with
    | none => rfl
    | some c => simpa using hc c hh
  simp [writeReg, he, hz, hown]

/-- A write of 1 to an enable without a check starts one. -/
theorem writeReg_one_new (ho : bit n 31 = true) (hc : checking b a = false) :
    writeReg a n b =
      startCheck a none (restartCheck a (storeWord a n b)).now [] (restartCheck a (storeWord a n b)) := by
  simp [writeReg, he, ho, hc]

/-- A write of 1 to an enable whose check waits or runs starts none. -/
theorem writeReg_one_checking (ho : bit n 31 = true) (hc : checking b a = true) :
    writeReg a n b = restartCheck a (storeWord a n b) := by
  simp [writeReg, he, ho, hc]

end

/-! ### The HIF block (R54 to R58) -/

theorem retireWord_mailbox {n txn : Nat} (p : TwoCycles) (hg : granted b a = true) (h1 : 0x1000 ≤ a) (h2 : a < 0x2000) :
    retireWord a n txn p b = b.putMbx (a - 0x1000) (toLE 4 n) := by
  have h3 : ¬ a < 0x1000 := by omega
  simp [retireWord, hg, h2, h3]

/-- A word for a mailbox that the host owns. -/
theorem hostWord_mailbox (h1 : 0x1000 ≤ addr.toNat / 4 * 4) (h2 : addr.toNat / 4 * 4 < 0x2000)
    (hm : b.hostMay (addr.toNat / 4 * 4) = true) (ho : hostOwns b ((addr.toNat / 4 * 4 - 0x1000) / 0x100) = true) :
    hostWord addr v b = b.putMbx (addr.toNat / 4 * 4 - 0x1000) (toLE 4 v.toNat) := by
  obtain ⟨hs, hw, hg⟩ := hostMay_parts hm
  rw [hostWord, hostWordWith_empty hs hw hg (unmapped_below (by omega)) (by simp [notHosts, ho]),
    retireWord_mailbox noMeet hg h1 h2]

/-- READY bits written 1 clear (R57). -/
theorem put_doorbellOut (n : Nat) :
    b.put rHIF_DOORBELL_OUT n =
      b.wr fHIF_DOORBELL_OUT_READY
        (Nat.xor (Nat.lor (b.rd fHIF_DOORBELL_OUT_READY) (bitsOf n 15 8)) (bitsOf n 15 8)) := by
  have hreg : regAt rHIF_DOORBELL_OUT = some (⟨rHIF_DOORBELL_OUT, 1, 0, 1, 0, [⟨15, 8, .w1c, 0, 0, []⟩]⟩, 0) := rfl
  rw [b.put_listed hreg]
  rfl

/-- A word for one of the seven words of EVENT_PENDING clears the bits it gives. -/
theorem hostReg_eventPending {n : Nat} (hn : n < 7) (hm : b.hostMay (0x40 + 4 * n) = true) :
    hostReg (0x40 + 4 * n) v b =
      { b with ev := { b.ev with pend := b.ev.pend &&& ~~~ (BitVec.ofNat 224 (v.toNat * 2 ^ (32 * n))) } } := by
  have hk : (0x40 + 4 * n - 0x40) / 4 = n := by omega
  have hv : v.toNat % 2 ^ 32 = v.toNat := Nat.mod_eq_of_lt v.isLt
  rw [hostReg_hif hm (by omega) (by omega)]
  unfold writeHif
  rw [if_neg (by unfold rHIF_DOORBELL_IN; omega), if_neg (by unfold rHIF_DOORBELL_OUT; omega),
    if_neg (by unfold rHIF_ABORT; omega), if_pos (by omega), hk, clearPending, hv]

/-! ### The write buffer retires (R34, R45) -/

theorem writeRetire_oldest {w : BufWord} {ws : List BufWord} (hb : b.host.wbuf = w :: ws) :
    writeRetire b =
      let b1 := { b with host := { b.host with wbuf := ws } }
      let r := portAMeets w.addr b1
      retireWord w.addr w.data w.txn r.1 r.2 := by
  unfold writeRetire
  rw [hb]

theorem portAMeets_outside (h : a < 0x02000000 ∨ 0x04000000 ≤ a) : portAMeets a b = (noMeet, b) :=
  if_neg (by omega)

end

/-- Settles O13: a word by the target of its address, an enable by the bit written and the check that runs. -/
theorem hostWordTakesEffect : Obligations.HostWordTakesEffect := by
  unfold Obligations.HostWordTakesEffect
  intro b addr v a logged txn
  refine ⟨fun hs he => ?single, fun h1 h2 hm hp => ?register, fun h1 h2 hm ho => ?mailbox, fun hm => ?doorbellIn,
    fun hm => ?doorbellOut, fun w ws hc hr hb => ⟨?retire, portAMeets_outside⟩, fun n hn sets hm => ?pending⟩
  case single => exact ends_of_eq (f := hostWord addr v) (fun _ => rfl) (hostWordWith_retires hs he noMeet)
  case register =>
    have hword : hostWord addr v b = logged (writeReg a v.toNat b) := hostWord_writes rfl hm h1 h2 hp
    refine ⟨ends_of_eq (fun _ => rfl) hword, fun he hz => ⟨fun c hc hca => ?_, fun hc => ?_⟩, fun he ho hc => ?_,
      fun he ho hc => ?_⟩
    · exact ends_of_eq (fun _ => rfl) (hword.trans (congrArg logged (writeReg_zero_own he hz hc hca)))
    · exact ends_of_eq (fun _ => rfl) (hword.trans (congrArg logged (writeReg_zero_other he hz hc)))
    · exact ends_of_eq (fun _ => rfl) (hword.trans (congrArg logged (writeReg_one_new he ho hc)))
    · exact ends_of_eq (fun _ => rfl) (hword.trans (congrArg logged (writeReg_one_checking he ho hc)))
  case mailbox => exact ends_of_eq (fun _ => rfl) (hostWord_mailbox h1 h2 hm ho)
  case doorbellIn => exact ends_of_eq (fun _ => rfl) (hostReg_hif hm (by decide) (by decide))
  case doorbellOut =>
    have hreg : hostReg rHIF_DOORBELL_OUT v b = (b.put rHIF_DOORBELL_OUT v.toNat).drainReplies 64 :=
      hostReg_hif hm (by decide) (by decide)
    rw [put_doorbellOut] at hreg
    exact ends_of_eq (fun _ => rfl) hreg
  case retire =>
    refine ends_of_eq (f := fun b => if portsServe b then writeRetire b else b) (fun _ => rfl) ?_
    exact (if_pos (portsServe_of_ready hr hc)).trans (writeRetire_oldest hb)
  case pending =>
    have hreg := hostReg_eventPending (v := v) hn hm
    refine ends_of_eqIf (f := eventPendingClear n ⟨v, sets⟩) (fun _ => rfl) (decide_eq_true hn) ?_
    rw [eventPendingClear, hreg]

end Sys2Proof.Machine
end

section
/-! PROOFS. The windows on LPDDR5 and on slate memory (02 R35, R53; 09 R343, R349 to R351). -/

namespace Sys2Proof.Machine

section
variable {b : Block} {addr v : Word} {a o : Nat}

/-! ### The LPDDR window (R53) -/

theorem Block.rd_lt (f : Fld) : b.rd f < 2 ^ (f.hi + 1 - f.lo) := bitsOf_lt

/-- A field stored as it stands reads as it stood. -/
theorem Block.wr_rd_self {f : Fld} (h : f.lo ≤ f.hi) (h' : f.hi < 32) : (b.wr f (b.rd f)).rd f = b.rd f := by
  rw [b.wr_rd_same _ h h', Nat.mod_eq_of_lt (b.rd_lt f)]

/-- A window access looks at the page, at MEM and at LPDDR_TRAINED; storing the page as it stands changes none of them. -/
theorem lpddrAt_samePage (a : Nat) : lpddrAt (b.wr fHIF_LPDDR_PAGE_PAGE (b.rd fHIF_LPDDR_PAGE_PAGE)) a = lpddrAt b a := by
  have hpage := b.wr_rd_self (f := fHIF_LPDDR_PAGE_PAGE) (by decide) (by decide)
  have hother (f : Fld) (hf : f.addr ≠ rHIF_LPDDR_PAGE) :
      (b.wr fHIF_LPDDR_PAGE_PAGE (b.rd fHIF_LPDDR_PAGE_PAGE)).rd f = b.rd f :=
    b.wr_rd_other _ (by decide) (by decide) (.inl hf)
  have hbyte : pageByte (b.wr fHIF_LPDDR_PAGE_PAGE (b.rd fHIF_LPDDR_PAGE_PAGE)) a = pageByte b a := by
    unfold pageByte
    rw [hpage]
  have hreach (o : Nat) : lpddrReached (b.wr fHIF_LPDDR_PAGE_PAGE (b.rd fHIF_LPDDR_PAGE_PAGE)) o = lpddrReached b o := by
    have hfit : fittedBytes (b.wr fHIF_LPDDR_PAGE_PAGE (b.rd fHIF_LPDDR_PAGE_PAGE)) = fittedBytes b := rfl
    simp only [lpddrReached, Block.on, Block.flag, hfit, hother fCPR_PD_STAT_ON (by decide),
      hother fSTRM_LIB_STAT_LPDDR_TRAINED (by decide)]
  rw [lpddrAt, hbyte, hreach, ← lpddrAt]

/-- With no word waiting, the page is judged as it stands. -/
theorem unmapped_empty (hw : b.host.wbuf = []) (h : lpddrAt b a = some o) : unmapped b a = false := by
  simp [unmapped, hw, lpddrAt_samePage, h]

/-- The byte that an address of the LPDDR window reaches. -/
theorem lpddrAt_some (h : lpddrAt b a = some o) : pageByte b a = o ∧ lpddrReached b o = true := by
  unfold lpddrAt at h
  split at h
  · next hreach =>
    obtain rfl := Option.some.inj h
    exact ⟨rfl, hreach⟩
  · cases h

/-- A word for mirrored state on a device that does not forward it. -/
theorem takeWord_window (hp : b.isPrimary = false) (ha : 0x80000000 ≤ a) (n : Nat) :
    takeWord a n b = applyWord true (pairLpddr (pageByte b a)) n b := by
  have hm : isMirrored (pairLpddr (pageByte b a)) = true := by simp [isMirrored, pairLpddr]
  simp [takeWord, ha, hp, hm]

/-- The pair's address of a word-aligned byte names that byte. -/
theorem applyWord_lpddr (h4 : o % 4 = 0) (hreach : lpddrReached b o = true) (n : Nat) :
    applyWord true (pairLpddr o) n b = logJournal (pairLpddr o) n (storeLpddr o n b) := by
  have hback : 4 * (pairLpddr o - 0x80000000) = o := by simp only [pairLpddr]; omega
  unfold applyWord
  rw [if_pos (by unfold pairLpddr; omega)]
  dsimp only
  rw [hback, if_pos hreach]

/-- A granted word that its window maps is stored at the byte it names. -/
theorem retireWord_lpddr (hp : b.isPrimary = false) (hg : granted b a = true) (h4 : a % 4 = 0) (ha : 0x80000000 ≤ a)
    (h : lpddrAt b a = some o) (n txn : Nat) (p : TwoCycles) :
    retireWord a n txn p b = logJournal (pairLpddr o) n (hashStale (b.setLpddr o (toLE 4 n))) := by
  obtain ⟨hbyte, hreach⟩ := lpddrAt_some h
  have ho4 : o % 4 = 0 := by
    unfold pageByte at hbyte
    omega
  have h1 : ¬ a < 0x1000 := by omega
  have h2 : ¬ a < 0x2000 := by omega
  simp only [retireWord, hg, h1, h2, ha, h, Bool.not_true, Bool.false_eq_true, Option.isSome_some, if_false, if_true]
  rw [takeWord_window hp ha, hbyte, applyWord_lpddr ho4 hreach]
  rfl

/-- A read of the LPDDR window drives the four bytes. -/
theorem readOne_lpddr (hr : b.host.ready = true) (hc : b.clk.backupOsc = false) (ha : 0x80000000 ≤ a) (h : lpddrAt b a = some o) :
    readOne a b = b.drive (toLE 4 (leAt (b.lpddrBytes o 4) 0 4)) := by
  have hread : hostRead 0 noHit a b = (leAt (b.lpddrBytes o 4) 0 4, b) := by
    unfold hostRead
    rw [if_neg (by omega), if_neg (by omega), if_neg (by omega), if_neg (by omega), if_neg (by omega), if_pos ha]
    simp only [readLpddr, h]
  rw [readOne_drives a hr hc, hread]

/-! ### The slate window (R35, R343, R350) -/

section
variable {n txn : Nat} {p : TwoCycles} {c : Block} (hp : b.isPrimary = false) (hg : granted b a = true) (h1 : 0x02000000 ≤ a)
  (h2 : a < 0x04000000) (hmay : slateMay b rqHOST (bankOf (a - 0x02000000)) = true)
include hp hg h1 h2 hmay

omit hp hmay in
theorem retireWord_slate : retireWord a n txn p b = slateHostWrite a n txn p b := by
  have h3 : ¬ a < 0x1000 := by omega
  have h4 : ¬ a < 0x2000 := by omega
  have h5 : ¬ 0x80000000 ≤ a := by omega
  simp only [retireWord, hg, h1, h3, h4, h5, Bool.not_true, Bool.false_eq_true, if_false, if_true]

/-- A word that port B stores has landed. -/
theorem retireWord_lands (h : portBStore (a - 0x02000000) n p b = (true, c)) : retireWord a n txn p b = c := by
  simp [retireWord_slate hg h1 h2, slateHostWrite, hmay, hp, h]

/-- A word that port A keeps port B from storing is discarded. -/
theorem retireWord_misses (h : portBStore (a - 0x02000000) n p b = (false, c)) :
    retireWord a n txn p b = c.discardWord [] a txn := by
  simp [retireWord_slate hg h1 h2, slateHostWrite, hmay, hp, h]

end

section
variable (hf : b.flag fSLATE_STAT_FUSE_DONE = true) (hb : borrowed b (bankOf o) = false)
include hf hb

/-- Port A writes in the cycle of the read: the word does not land. -/
theorem portBStore_metFirst (n : Nat) (d : DWord) (q : OtherPort) :
    portBStore o n ⟨.write d, q⟩ b = (false, portAStore (o / 8 * 8) (toLE 8 d.toNat) (collision 1 o b)) := by
  simp [portBStore, hf, hb]

omit hf hb in
/-- What port B does once port A has left its cycle of the read alone goes by port A's second cycle. -/
theorem portBStore_second (n : Nat) {p : OtherPort} (hp : ∀ d, p ≠ .write d) (q : OtherPort) :
    portBStore o n ⟨p, q⟩ b = portBStore o n ⟨.none, q⟩ b := by
  cases p with
  | write d => exact absurd rfl (hp d)
  | none | read => rfl

variable {p : OtherPort} (hp : ∀ d, p ≠ .write d)
include hp

theorem portBStore_alone (n : Nat) : portBStore o n ⟨p, .none⟩ b = (true, portAStore o (toLE 4 n) (checkMerge o b)) := by
  rw [portBStore_second n hp]
  simp [portBStore, hf, hb]

theorem portBStore_metByRead (n : Nat) :
    portBStore o n ⟨p, .read⟩ b =
      let read := checkMerge o b
      (false, collision 1 o { read.freshWord.2 with slate := { read.freshWord.2.slate with readOut := read.freshWord.1 } }) := by
  rw [portBStore_second n hp]
  simp [portBStore, hf, hb]

theorem portBStore_metByWrite {n : Nat} {d : DWord} (hd : d.toNat ≠ mergedWord b o n) :
    portBStore o n ⟨p, .write d⟩ b = (false, collision 0 o (portAStore (o / 8 * 8) (toLE 8 d.toNat) (checkMerge o b))) := by
  rw [portBStore_second n hp]
  simp [portBStore, hf, hb, hd]

end

end

/-- Settles O14: a word of the LPDDR window by the byte it names, a word of the slate window by what port A does in its cycles. -/
theorem windowAccesses : Obligations.WindowAccesses := by
  unfold Obligations.WindowAccesses
  intro b addr v hprim hs hw a txn
  have ha4 : a % 4 = 0 := by show addr.toNat / 4 * 4 % 4 = 0; omega
  refine ⟨fun o ha h => ⟨fun hg => ?store, ?read⟩, fun h1 h2 hg hmay hf hb => ?slate⟩
  case store =>
    have hword : hostWord addr v b = retireWord a v.toNat b.wordTxn noMeet b :=
      hostWordWith_empty hs hw hg (unmapped_empty hw h) (notHosts_above (by omega)) noMeet
    rw [retireWord_lpddr hprim hg ha4 ha h] at hword
    exact ends_of_eq (f := hostWord addr v) (fun _ => rfl) hword
  case read =>
    simp only [portsServe, Bool.and_eq_true, Bool.not_eq_true'] at hs
    exact ends_of_eq (f := readOne a) (fun _ => rfl) (readOne_lpddr hs.1 hs.2 ha h)
  case slate =>
    have hword (p : TwoCycles) : hostWordWith p addr v b = retireWord a v.toNat b.wordTxn p b :=
      hostWordWith_empty hs hw hg (unmapped_below (by omega)) (notHosts_above (by omega)) p
    have lands {p : TwoCycles} {c : Block} (h : portBStore (a - 0x02000000) v.toNat p b = (true, c)) :
        Ends (.slateWindowWrite addr v p) b c :=
      ends_of_eq (fun _ => rfl) ((hword p).trans (retireWord_lands hprim hg h1 h2 hmay h))
    have misses {p : TwoCycles} {c : Block} (h : portBStore (a - 0x02000000) v.toNat p b = (false, c)) :
        Ends (.slateWindowWrite addr v p) b (c.discardWord [] a txn) :=
      ends_of_eq (fun _ => rfl) ((hword p).trans (retireWord_misses hprim hg h1 h2 hmay h))
    exact ⟨fun p hp => ⟨lands (portBStore_alone hf hb hp _), misses (portBStore_metByRead hf hb hp _),
      fun d hd => misses (portBStore_metByWrite hf hb hp hd)⟩, fun d q => misses (portBStore_metFirst hf hb _ d q)⟩

end Sys2Proof.Machine
end

section
/-! PROOFS. Replies and their queue (02 R57, R60, R62). -/

namespace Sys2Proof.Machine

section
variable {b : Block} {r : Reply} {i : Nat}

/-! ### Where a reply goes -/

/-- The lowest reply mailbox whose READY bit is 0. -/
theorem freeReply_lowest (h : b.freeReply = some i) :
    i < 8 ∧ bit (b.rd fHIF_DOORBELL_OUT_READY) i = false ∧ ∀ j < i, bit (b.rd fHIF_DOORBELL_OUT_READY) j = true := by
  unfold Block.freeReply at h
  rw [List.find?_range_eq_some] at h
  obtain ⟨hfree, hi, hbelow⟩ := h
  exact ⟨List.mem_range.mp hi, by simpa using hfree, fun j hj => by simpa using hbelow j hj⟩

theorem deliver_placed (hq : b.proc.replies = []) (hf : b.freeReply = some i) : b.deliver r = b.placeReply i r := by
  unfold Block.deliver
  rw [hq, hf]

/-- A reply that finds others waiting, or no mailbox free, waits behind them. -/
theorem deliver_waits (h : b.proc.replies ≠ [] ∨ b.freeReply = none) :
    b.deliver r = { b with proc := { b.proc with replies := b.proc.replies ++ [r] } }.noteOverflow := by
  unfold Block.deliver
  split
  · next hq hf => simp [hq, hf] at h
  · rfl

/-! ### A reply in its mailbox (R57, R60) -/

theorem Reply.bytes_length (r : Reply) : r.bytes.length = 16 + r.payload.length := by
  simp only [Reply.bytes, List.length_append, toLE_length]

theorem placeReply_ready (hi : i < 8) :
    (b.placeReply i r).rd fHIF_DOORBELL_OUT_READY = Nat.lor (b.rd fHIF_DOORBELL_OUT_READY) (2 ^ i) := by
  have hfits : Nat.lor (b.rd fHIF_DOORBELL_OUT_READY) (2 ^ i) < 2 ^ 8 :=
    Nat.or_lt_two_pow (b.rd_lt fHIF_DOORBELL_OUT_READY) (Nat.pow_lt_pow_right (by decide) hi)
  unfold Block.placeReply
  rw [Block.wr_rd_same _ _ (by decide) (by decide)]
  exact Nat.mod_eq_of_lt hfits

/-- Mailbox bytes read back as they were written. -/
theorem getMbx_putMbx (o : Nat) (bs : List Byte) : (b.putMbx o bs).getMbx o bs.length = bs := by
  simp only [Block.getMbx, Block.putMbx, smRange_writeAll]

theorem placeReply_proc : (b.placeReply i r).proc = (b.putMbx ((8 + i) * 0x100) r.bytes).proc :=
  Block.wr_proc _ _ _

theorem placeReply_mailbox : (b.placeReply i r).getMbx (0x800 + 0x100 * i) (16 + r.payload.length) = r.bytes := by
  have hoff : 0x800 + 0x100 * i = (8 + i) * 0x100 := by omega
  rw [Block.getMbx, placeReply_proc, ← Block.getMbx, ← r.bytes_length, hoff, getMbx_putMbx]

theorem putMbx_replies (o : Nat) (bs : List Byte) : (b.putMbx o bs).proc.replies = b.proc.replies := rfl

theorem placeReply_replies : (b.placeReply i r).proc.replies = b.proc.replies := by
  rw [placeReply_proc, putMbx_replies]

/-! ### The queue of replies (R62) -/

theorem Block.raise_replies (n : Nat) : (b.raise n).proc.replies = b.proc.replies := by
  unfold Block.raise
  dsimp only
  split <;> rfl

theorem noteOverflow_replies : b.noteOverflow.proc.replies = b.proc.replies := by
  unfold Block.noteOverflow
  split
  · split
    · rfl
    · exact Block.raise_replies _
  · rfl

theorem noteOverflow_rd (f : Fld) : b.noteOverflow.rd f = b.rd f := by
  unfold Block.noteOverflow
  split
  · split
    · rfl
    · exact Block.raise_rd _ _ _
  · rfl

/-- The queue that becomes full raises MBX_OVERFLOW. -/
theorem noteOverflow_raises (hl : b.proc.replies.length = 64) (ho : b.proc.overflow = false) :
    b.noteOverflow.ev.pend.getLsbD evMBX_OVERFLOW = true := by
  simp only [Block.noteOverflow, hl, ho, le_refl, if_true, Bool.false_eq_true, if_false]
  exact Block.raise_pending _ (by decide)

end

/-- Settles O15: a reply placed by its mailbox, one that waits by the queue. -/
theorem replyReachesTheLowestFreeMailbox : Obligations.ReplyReachesTheLowestFreeMailbox := by
  unfold Obligations.ReplyReachesTheLowestFreeMailbox
  refine fun b r => ⟨fun i hq hf => ?placed, fun h => ?waits⟩
  case placed =>
    obtain ⟨hi, hfree, hbelow⟩ := freeReply_lowest hf
    rw [deliver_placed hq hf]
    exact ⟨hi, hfree, hbelow, placeReply_ready hi, placeReply_mailbox, placeReply_replies.trans hq⟩
  case waits =>
    rw [deliver_waits h]
    exact ⟨noteOverflow_replies, fun hl ho => noteOverflow_raises (by simp [hl]) ho, noteOverflow_rd _⟩

end Sys2Proof.Machine
end

section
/-! PROOFS. The checks that every command meets, and commands held for a boundary (02 R61, R64, R77; 15 R498; 16 R528, R537). -/

namespace Sys2Proof.Machine

section
variable {b : Block} {op : Nat} {m : Meaning} {c : Cmd} {i : CmdInfo}

/-! ### The order of the common checks (R61, R64, R537) -/

section
variable {due : Bool} {p : List Byte} (hm : b.mode ≠ mFAULT)
include hm

theorem precheck_length (hl : i.lengthOk p = false) : precheck i due p b = some .badLength := by
  simp [precheck, hm, hl]

theorem precheck_zeros (hl : i.lengthOk p = true) (hz : i.zerosOk p = false) : precheck i due p b = some .badField := by
  simp [precheck, hm, hl, hz]

theorem precheck_due (hl : i.lengthOk p = true) (hz : i.zerosOk p = true) (hd : i.due = false) :
    precheck i true p b = some .badField := by
  simp [precheck, hm, hl, hz, hd]

end

/-! ### A command taken (R61, R64) -/

/-- Sildacen takes the command and begins it. -/
theorem command_begins (ht : b.takes = true) (hs : b.serving = true) : command op m c b = begin_ op m c b := by
  simp [command, ht, hs]

section
variable (hi : cmdInfo op = some i)
include hi

/-- A command refused by the checks that every command meets has no effect but its reply. -/
theorem begin_refused {r : Reason} (hp : precheck i c.due c.payload b = some r) :
    begin_ op m c b = b.finish { cmdTok op c b with late := false } b.now false (refusedWith r) := by
  simp only [begin_, hi, hp]
  rfl

/-- A command that its chapter's checks refuse has no effect but its reply. -/
theorem begin_chapterRefused {r : Reason} (hp : precheck i c.due c.payload b = none) (hc : m.chk c.payload b = some r) :
    begin_ op m c b = b.finish { cmdTok op c b with late := false } b.now false (refusedWith r) := by
  simp only [begin_, hi, hp, hc]
  rfl

theorem heldFor_eq :
    b.heldFor op c = { b with
      proc := { b.proc with held := b.proc.held ++ [⟨cmdTok op c b, b.boundaryFor i (cmdDue c), c.payload,
        (cmdDue c).isSome && !(cmdDue c).any b.isPast, b.sched.arrivals⟩] }
      sched := { b.sched with arrivals := b.sched.arrivals + 1 } } := by
  simp only [Block.heldFor, hi, isSome_and_not_any]
  rfl

/-- A command with a due time still to come that finds 256 held is refused (R64). -/
theorem begin_full (hp : precheck i c.due c.payload b = none) (hc : m.chk c.payload b = none)
    (hw : b.waits i (cmdDue c) = true) (ht : ((cmdDue c).isSome && !(cmdDue c).any b.isPast) = true) (hf : 256 ≤ b.dueHeld) :
    begin_ op m c b = b.finish (cmdTok op c b) b.now false (refusedWith .busyBackpressure) := by
  have hlate : cmdTok op c b = { cmdTok op c b with late := false } := by
    simp only [Bool.and_eq_true, Bool.not_eq_true'] at ht
    simp only [cmdTok, ht.2]
  rw [hlate]
  unfold cmdDue at hw ht
  simp only [begin_, hi, hp, hc, hw, ht, hf, decide_true, Bool.and_self, if_true]
  rfl

end

/-! ### A held command at its boundary (R64) -/

section
variable {h : Held} (hi : cmdInfo h.tok.op = some i) (hm : meaningOf h.tok.op = some m) (h2 : h.tok.op ≠ 0x0200)
  (h3 : h.tok.op ≠ 0x0201)
include hi hm h2 h3

theorem runHeld_refused {r : Reason} (hp : precheck i false h.payload b = some r) :
    runHeld h b = b.finish h.tok h.at_ false (refusedWith r) := by
  simp only [runHeld, h2, h3, or_self, if_false, hi, hm, hp]

theorem runHeld_runs (hp : precheck i false h.payload b = none) :
    runHeld h b = b.runMeaning m h.tok h.at_ false h.payload := by
  simp only [runHeld, h2, h3, or_self, if_false, hi, hm, hp]

end

section
variable {tok : Tok} {stamp : Nat} {late : Bool} {p : List Byte}

theorem runMeaning_refused {r : Reason} (ha : m.again = true) (hc : m.chk p b = some r) :
    b.runMeaning m tok stamp late p = b.finish tok stamp late (refusedWith r) := by
  simp only [Block.runMeaning, ha, hc, if_true]

theorem runMeaning_meets (h : m.again = false ∨ m.chk p b = none) :
    b.runMeaning m tok stamp late p = (m.eff tok stamp p b).2.finish tok stamp late (m.eff tok stamp p b).1 := by
  have hnone : (if m.again then m.chk p b else none) = none := by
    rcases h with h | h <;> simp [h]
  simp only [Block.runMeaning, hnone]

end

end

/-- Settles O16: a command by the first check that fails, one that waits by the limit of 256, a held one by the checks it meets
again. -/
theorem commandsAreCheckedAndHeld : Obligations.CommandsAreCheckedAndHeld := by
  unfold Obligations.CommandsAreCheckedAndHeld
  refine ⟨fun b op m c i ht hs hi => ?checks, fun b op m c i ht hs hprim hi hp hc hw => ?held,
    fun b h m i hi hm h2 h3 => ⟨fun r hp => runHeld_refused hi hm h2 h3 hp, fun hp => ?again⟩⟩
  case checks =>
    rw [command_begins ht hs]
    exact ⟨fun r hp => begin_refused hi hp, fun hf hl => begin_refused hi (precheck_length hf hl),
      fun hf hl hz => begin_refused hi (precheck_zeros hf hl hz),
      fun hf hl hz hd hno => begin_refused hi (by rw [hd, precheck_due hf hl hz hno]),
      fun hp r hc => begin_chapterRefused hi hp hc⟩
  case held =>
    rw [command_begins ht hs]
    refine ⟨fun hroom => ?_, fun htimed hfull => begin_full hi hp hc hw htimed hfull⟩
    rw [← heldFor_eq hi]
    refine begin_holds hi hp hc hw (by rw [hprim, Bool.and_false]) ?_
    rw [← isSome_and_not_any]
    rcases hroom with hroom | hroom
    · rw [hroom, Bool.false_and]
    · rw [decide_eq_false (by omega), Bool.and_false]
  case again =>
    rw [runHeld_runs hi hm h2 h3 hp]
    exact ⟨fun r ha hc => runMeaning_refused ha hc, runMeaning_meets⟩

end Sys2Proof.Machine
end

section
/-! PROOFS. Taking a command from its mailbox, and the commands of the system range (02 R57, R61, R66 to R69). -/

namespace Sys2Proof.Machine

section
variable {b : Block} {c : Cmd}

/-! ### Taking a command (R57, R61) -/

/-- The mailbox n goes back to the host. -/
def Block.returned (b : Block) (n : Nat) : Block :=
  { b with proc := { b.proc with rung := b.proc.rung.filter (· != n) } }.wr fHIF_DOORBELL_IN_RING
    (putBits (b.rd fHIF_DOORBELL_IN_RING) n n 0)

section
variable {n : Nat} (ht : b.takes = true) (hn : nextRung b = some n)
include ht hn

/-- A command whose header R59 allows runs. -/
theorem commandTake_runs (hh : headerRefusal (b.returned n) (mbxHeader b n) = none) :
    commandTake b = runCommand (leAt (mbxHeader b n) 0 2) (mbxCommand b n (mbxHeader b n)) (b.returned n) := by
  unfold Block.returned at hh ⊢
  unfold commandTake
  rw [if_neg (by simp [ht])]
  simp only [hn]
  split
  · next r hr => exact absurd (hr.symm.trans hh) (by simp)
  · rfl

/-- A header that breaks R59 is refused. -/
theorem commandTake_refuses {r : Reason} (hh : headerRefusal (b.returned n) (mbxHeader b n) = some r) :
    let h := mbxHeader b n
    let x := mbxCommand b n h
    commandTake b =
      (b.returned n).finish ⟨leAt h 0 2, x.tag.toNat, x.noReply, false, b.proc.gen⟩ b.now false (refusedWith r) := by
  unfold Block.returned at hh ⊢
  unfold commandTake
  rw [if_neg (by simp [ht])]
  simp only [hn]
  split
  · next r' hr =>
    obtain rfl := Option.some.inj (hr.symm.trans hh)
    rfl
  · next hr => exact absurd (hr.symm.trans hh) (by simp)

end

/-! ### The system range (R66 to R69) -/

variable {p : List Byte} {tok : Tok} {t : Nat}

theorem mPostEvents_all (h : (offerAll (hostRecords p) 0 b).1 = (hostRecords p).length) :
    mPostEvents.eff tok t p b = (ok (toLE 2 (offerAll (hostRecords p) 0 b).1), (offerAll (hostRecords p) 0 b).2) := by
  simp [mPostEvents, plain, h]

theorem mPostEvents_some (h : (offerAll (hostRecords p) 0 b).1 < (hostRecords p).length) :
    mPostEvents.eff tok t p b =
      (failedWith .busyBackpressure (toLE 2 (offerAll (hostRecords p) 0 b).1), (offerAll (hostRecords p) 0 b).2) := by
  simp [mPostEvents, plain, h]

/-- HIF_GRANT with the bits added that are asked for and allowed (R68). -/
def Block.granting (b : Block) (asked : Nat) : Block :=
  b.setGrants (Nat.lor (b.word rHIF_GRANT) (Nat.land asked (Nat.lor 1 (grantable b))))

/-- Every bit asked for is allowed or stands. -/
def Block.grantsAll (b : Block) (asked : Nat) : Prop :=
  Nat.land asked (Nat.lor (Nat.lor 1 (grantable b)) ((b.granting asked).word rHIF_GRANT)) = asked

theorem mGrant_all (h : b.grantsAll (leAt p 0 4)) :
    mGrant.eff tok t p b = (ok (toLE 4 ((b.granting (leAt p 0 4)).word rHIF_GRANT)), b.granting (leAt p 0 4)) :=
  Prod.ext (if_pos h) rfl

theorem mGrant_some (h : ¬ b.grantsAll (leAt p 0 4)) :
    mGrant.eff tok t p b =
      (failedWith .notInMode (toLE 4 ((b.granting (leAt p 0 4)).word rHIF_GRANT)), b.granting (leAt p 0 4)) :=
  Prod.ext (if_neg h) rfl

/-- A write of 1 to an enable of 0 gets the verdict on what it would leave (R69). -/
theorem mRollcallQuery_asks (hv : bit (leAt p 4 4) 31 = true) (he : enabled b (leAt p 0 4) = false) :
    mRollcallQuery.eff tok t p b =
      (.reply 0 ((verdict (leAt p 0 4) (storeWord (leAt p 0 4) (leAt p 4 4) b)).getD .ok) [], b) := by
  simp [mRollcallQuery, hv, he]

/-- A write of 0, or of 1 to an enable of 1, meets no check. -/
theorem mRollcallQuery_needsNone (h : bit (leAt p 4 4) 31 = false ∨ enabled b (leAt p 0 4) = true) :
    mRollcallQuery.eff tok t p b = (.reply 0 .ok [], b) := by
  have hno : (bit (leAt p 4 4) 31 && !enabled b (leAt p 0 4)) = false := by
    rcases h with h | h <;> simp [h]
  simp only [mRollcallQuery, hno, Bool.false_eq_true, if_false, Option.getD_none]

end

/-- Settles O17: a command taken by its header, each command of the system range by what its effect answers. -/
theorem systemCommandResults : Obligations.SystemCommandResults := by
  unfold Obligations.SystemCommandResults
  refine fun b c => ⟨fun n ht hn => ?take, fun hr => ?ping, fun hr => ?info, fun hr => ?post, fun hr hmask => ?grant,
    fun hr he => ?query⟩
  case take =>
    exact ⟨fun hh => ends_of_eq (fun _ => rfl) (commandTake_runs ht hn hh),
      fun r hh => ends_of_eq (fun _ => rfl) (commandTake_refuses ht hn hh)⟩
  case ping => exact replies_of_meets (m := mPing) (fun _ => rfl) hr rfl rfl
  case info => exact replies_of_meets (m := mGetInfo) (fun _ => rfl) hr rfl rfl
  case post =>
    exact ⟨fun h => replies_of_meets (fun _ => rfl) hr rfl (mPostEvents_all h),
      fun h => replies_of_meets (fun _ => rfl) hr rfl (mPostEvents_some h)⟩
  case grant =>
    have hchk : mGrant.chk c.payload b = none := if_pos hmask
    exact ⟨fun h => replies_of_meets (fun _ => rfl) hr hchk (mGrant_all h),
      fun h => replies_of_meets (fun _ => rfl) hr hchk (mGrant_some h)⟩
  case query =>
    have hchk : mRollcallQuery.chk c.payload b = none := if_pos he
    exact ⟨fun hv hen => replies_of_meets (fun _ => rfl) hr hchk (mRollcallQuery_asks hv hen),
      fun h => replies_of_meets (fun _ => rfl) hr hchk (mRollcallQuery_needsNone h)⟩

end Sys2Proof.Machine
end

section
/-! PROOFS. The abort functions, their end, and the end of a roll call (02 R70 to R78; 15 R522; 16 R541). -/

namespace Sys2Proof.Machine

section
variable {b : Block} {key : Byte} {f : Nat}

/-! ### A write of HIF_ABORT (R74, R76, R77) -/

/-- A row of HIF_ABORT writes its word there: the key in the top byte, the function below. -/
theorem abortRow_writes (hm : b.hostMay rHIF_ABORT = true) (hf : f < 2 ^ 24) :
    abortRow f key b = writeAbort (key.toNat * 2 ^ 24 + f) b := by
  have hv : (BitVec.ofNat 32 (key.toNat * 2 ^ 24 + f)).toNat = key.toNat * 2 ^ 24 + f := by
    rw [BitVec.toNat_ofNat, Nat.mod_eq_of_lt]
    omega
  unfold abortRow
  rw [hostReg_hif hm (by decide) (by decide), hv, writeHif, if_neg (by decide), if_neg (by decide), if_pos rfl]

theorem abortWord_key (hf : f < 2 ^ 24) : bitsOf (key.toNat * 2 ^ 24 + f) 31 24 = key.toNat := by
  unfold bitsOf
  omega

/-- Without the key nothing starts, and ABORT_KEY is reported. -/
theorem abortRow_badKey (hm : b.hostMay rHIF_ABORT = true) (hf : f < 2 ^ 24) (hk : key ≠ 0xA5) :
    abortRow f key b = b.hostErr [fHIF_HOST_STAT_ABORT_KEY] (some rHIF_ABORT) := by
  have hne : key.toNat ≠ 0xA5 := fun h => hk (BitVec.eq_of_toNat_eq h)
  rw [abortRow_writes hm hf, writeAbort, abortWord_key hf, if_pos hne]
  rfl

/-- The ABORT frame goes first from a PRIMARY (R78). -/
def abortSent (f : Nat) (b : Block) : Block := if b.isPrimary then sendFrame 7 (toLE 1 f) b else b

theorem abortHere_sends (h0 : f ≠ 0) (h : f < 128) : abortHere f b = doAbort f (abortSent f b) := by
  have hf : f % 128 = f := Nat.mod_eq_of_lt h
  simp only [abortHere, hf, h0, ne_eq, not_false_eq_true, decide_true, Bool.and_true, abortSent]

/-- With the key, FUNC and PROCTOR_RESTART act. -/
theorem abortRow_keyed (hm : b.hostMay rHIF_ABORT = true) (hf : f < 2 ^ 24) :
    abortRow f 0xA5 b = if bit f 15 then restartProctor (abortHere (f % 128) b) else abortHere (f % 128) b := by
  have hkey : bitsOf ((0xA5 : Byte).toNat * 2 ^ 24 + f) 31 24 = 0xA5 := abortWord_key hf
  have hfunc : bitsOf ((0xA5 : Byte).toNat * 2 ^ 24 + f) 6 0 = f % 128 := by
    simp only [bitsOf, BitVec.reduceToNat]
    omega
  have hrestart : bit ((0xA5 : Byte).toNat * 2 ^ 24 + f) 15 = bit f 15 := by
    have hbit : ((0xA5 : Byte).toNat * 2 ^ 24 + f) / 2 ^ 15 % 2 = f / 2 ^ 15 % 2 := by
      simp only [BitVec.reduceToNat]
      omega
    rw [bit, hbit, bit]
  rw [abortRow_writes hm hf, writeAbort, if_neg (not_not.mpr hkey), hfunc, hrestart]

theorem abortRow_starts (hm : b.hostMay rHIF_ABORT = true) (h0 : f ≠ 0) (h : f < 128) :
    abortRow f 0xA5 b = doAbort f (abortSent f b) := by
  have hno : bit f 15 = false := by
    rw [bit, Nat.div_eq_of_lt (by omega)]
    rfl
  rw [abortRow_keyed hm (by omega), hno, Nat.mod_eq_of_lt h, abortHere_sends h0 h]
  rfl

/-- PROCTOR_RESTART starts no function. -/
theorem abortRow_restarts (hm : b.hostMay rHIF_ABORT = true) : abortRow 0x8000 0xA5 b = restartProctor b := by
  have hnone : abortHere (0x8000 % 128) b = b := by simp [abortHere, doAbort]
  rw [abortRow_keyed hm (by decide), if_pos (by decide), hnone]

/-! ### A function starts (R74, R76) -/

/-- ABORT_BUSY and the functions' ACTIVE bits set, ABORT_DONE is owed, and those in wait take place at the boundary. -/
def abortOwing (f wait : Nat) (b : Block) : Block :=
  let busy := (b.wr fHIF_STATUS_ABORT_BUSY 1).wr fHIF_ABORT_STAT_ACTIVE (Nat.lor (b.rd fHIF_ABORT_STAT_ACTIVE) f)
  { busy with proc := { busy.proc with abortOwed := true, abortAtBound := Nat.lor busy.proc.abortAtBound wait } }

theorem doAbort_silence : doAbort 1 b = silenceAll (abortOwing 1 0 b) := rfl
theorem doAbort_clear : doAbort 2 b = clearEvents (abortOwing 2 0 b) := rfl
theorem doAbort_stopBdsp : doAbort 4 b = abortOwing 4 4 b := rfl
theorem doAbort_stopStreams : doAbort 8 b = abortOwing 8 8 b := rfl
theorem doAbort_mute : doAbort 16 b = abortOwing 16 16 b := rfl
theorem doAbort_cancel : doAbort 32 b = cancelAll (abortOwing 32 0 b) := rfl
theorem doAbort_stopTbld : doAbort 64 b = stopBuilder (abortOwing 64 0 b) := rfl

section
variable {i : Instr} {b' : Block} (hm : b.hostMay rHIF_ABORT = true)
include hm

/-- A row of HIF_ABORT with the key answers what its function leaves. -/
theorem ends_abortRow (hi : ∀ s, exec i s = done (abortRow f 0xA5) s) (h0 : f ≠ 0) (h : f < 128)
    (he : doAbort f (abortSent f b) = b') : Ends i b b' :=
  ends_of_eq hi ((abortRow_starts hm h0 h).trans he)

/-- A row of HIF_ABORT without the key reports ABORT_KEY. -/
theorem ends_abortBadKey (hi : ∀ s, exec i s = done (abortRow f key) s) (hf : f < 2 ^ 24) (hk : key ≠ 0xA5) :
    Ends i b (b.hostErr [fHIF_HOST_STAT_ABORT_KEY] (some rHIF_ABORT)) :=
  ends_of_eq hi (abortRow_badKey hm hf hk)

end

/-! ### The end of an abort sequence (R76, R541) -/

/-- ABORT_DONE's machine before the RESETs that wait for it. -/
def abortOver (b : Block) : Block :=
  let b := { b with proc := { b.proc with abortOwed := false } }
  ((b.wr fHIF_STATUS_ABORT_BUSY 0).wr fHIF_ABORT_STAT_ACTIVE 0).raise evABORT_DONE

section
variable (ho : b.proc.abortOwed = true) (ha : abortActive b = 0)
include ho ha

theorem abortDone_owed :
    abortDone b =
      if (abortOver b).proc.engineReset.isEmpty then abortOver b
      else forL (abortOver b).proc.engineReset (fun c b => b.finish c.1 c.2 false (ok []))
        ((resetEngine { abortOver b with proc := { (abortOver b).proc with engineReset := [] } }).wr fCPR_RST_CAUSE_ENGINE 1) := by
  unfold abortDone
  rw [if_pos (by simp [ho, ha])]
  rfl

omit ha in
theorem abortEnds_owed :
    abortEnds b =
      if !(abortDone b).proc.abortOwed && (abortDone b).fry.boardAfterAbort then
        autoBoard { abortDone b with fry := { (abortDone b).fry with boardAfterAbort := false } }
      else abortDone b := by
  simp only [abortEnds, ho, Bool.true_and]

end

end

/-- Settles O18: the word written starts the function it names; without the key it is reported. -/
theorem abortFunctionsStart : Obligations.AbortFunctionsStart := by
  unfold Obligations.AbortFunctionsStart
  intro b hm sent busy owed
  refine ⟨?silence, ?clear, ?bdsp, ?streams, ?mute, ?cancel, ?tbld, ends_of_eq (fun _ => rfl) (abortRow_restarts hm),
    fun key hk => ?badKey⟩
  case silence => exact ends_abortRow hm (fun _ => rfl) (by decide) (by decide) doAbort_silence
  case clear => exact ends_abortRow hm (fun _ => rfl) (by decide) (by decide) doAbort_clear
  case bdsp => exact ends_abortRow hm (fun _ => rfl) (by decide) (by decide) doAbort_stopBdsp
  case streams => exact ends_abortRow hm (fun _ => rfl) (by decide) (by decide) doAbort_stopStreams
  case mute => exact ends_abortRow hm (fun _ => rfl) (by decide) (by decide) doAbort_mute
  case cancel => exact ends_abortRow hm (fun _ => rfl) (by decide) (by decide) doAbort_cancel
  case tbld => exact ends_abortRow hm (fun _ => rfl) (by decide) (by decide) doAbort_stopTbld
  case badKey =>
    refine ⟨?_, ?_, ?_, ?_, ?_, ?_, ?_, ?_⟩ <;> exact ends_abortBadKey hm (fun _ => rfl) (by decide) hk

/-- Settles O19: by whether RESETs of scope ENGINE wait for the end. -/
theorem abortDoneEndsTheSequence : Obligations.AbortDoneEndsTheSequence := by
  unfold Obligations.AbortDoneEndsTheSequence
  intro b ho ha b1 b2 b3
  have hdone : abortDone b = b3 := by
    have hover : abortOver b = b2 := rfl
    rw [abortDone_owed ho ha, hover]
    clear_value b2
    cases hcs : b2.proc.engineReset with
    | nil => simp only [b3, hcs, List.isEmpty_nil, if_true]
    | cons k ks => simp only [b3, hcs, List.isEmpty_cons, Bool.false_eq_true, if_false]
  have hends := abortEnds_owed ho
  rw [hdone] at hends
  exact ends_of_eq (fun _ => rfl) hends

end Sys2Proof.Machine
end

section
/-! PROOFS. The end of a roll call (02 R70, R71, R73). -/

namespace Sys2Proof.Machine

section
variable {b : Block} {c : Check} {rest : List Check}

/-! ### A check ends (R71, R73) -/

/-- A command that asked for the check ends with it. -/
def endCheck (c : Check) (e : End) (b : Block) : Block :=
  match c.tok with
  | some t => b.finish t c.stamp false e
  | none => b

/-- The check whose turn it is has left the queue. -/
def checkTaken (rest : List Check) (b : Block) : Block := noteChecks { b with proc := { b.proc with checks := rest } }

section
variable (hs : b.serving = true) (hc : b.proc.checks = c :: rest)
include hs hc

/-- A check that is met sets its enable, unless it reads 1 already. -/
theorem rollcallCheck_met (hv : verdict c.addr (checkTaken rest b) = none) :
    rollcallCheck b =
      endCheck c (ok [])
        (if enabled (checkTaken rest b) c.addr then checkTaken rest b else enableRises c.addr (checkTaken rest b)) := by
  unfold checkTaken at hv ⊢
  unfold rollcallCheck
  rw [if_neg (by simp [hs]), hc]
  dsimp only
  rw [hv]
  rfl

/-- A check that is refused is recorded, and takes the words of its command back. -/
theorem rollcallCheck_refused {r : Reason} (hv : verdict c.addr (checkTaken rest b) = some r) :
    rollcallCheck b =
      endCheck c (refusedWith r)
        (noteRefusal c.addr r (forL c.undo (fun w x => undoWord w.1 w.2 x) (checkTaken rest b))) := by
  unfold checkTaken at hv ⊢
  unfold rollcallCheck
  rw [if_neg (by simp [hs]), hc]
  dsimp only
  rw [hv]
  rfl

end

/-! ### A refusal recorded (R70) -/

/-- Every reason's code fits its field. -/
theorem Reason.code_lt (r : Reason) : r.code < 2 ^ 8 := by
  cases r <;> decide

section
variable (a : Nat) (r : Reason)

theorem noteRefusal_rd (f : Fld) :
    (noteRefusal a r b).rd f =
      (((b.wr fROLLCALL_REASON_REASON r.code).wr fROLLCALL_ADDR_ADDR a).wr fROLLCALL_REASON_REFUSALS
        (min 255 (((b.wr fROLLCALL_REASON_REASON r.code).wr fROLLCALL_ADDR_ADDR a).rd fROLLCALL_REASON_REFUSALS + 1))).rd f :=
  Block.raise_rd _ _ _

theorem noteRefusal_reason : (noteRefusal a r b).rd fROLLCALL_REASON_REASON = r.code := by
  rw [noteRefusal_rd, Block.wr_rd_other _ _ (by decide) (by decide) (by decide),
    Block.wr_rd_other _ _ (by decide) (by decide) (by decide), b.wr_rd_same _ (by decide) (by decide)]
  exact Nat.mod_eq_of_lt r.code_lt

theorem noteRefusal_addr : (noteRefusal a r b).rd fROLLCALL_ADDR_ADDR = a % 2 ^ 32 := by
  rw [noteRefusal_rd, Block.wr_rd_other _ _ (by decide) (by decide) (by decide), Block.wr_rd_same _ _ (by decide) (by decide)]
  rfl

theorem noteRefusal_refusals :
    (noteRefusal a r b).rd fROLLCALL_REASON_REFUSALS = min 255 (b.rd fROLLCALL_REASON_REFUSALS + 1) := by
  rw [noteRefusal_rd, Block.wr_rd_same _ _ (by decide) (by decide), Block.wr_rd_other _ _ (by decide) (by decide) (by decide),
    b.wr_rd_other _ (by decide) (by decide) (by decide)]
  exact Nat.mod_eq_of_lt (Nat.lt_of_le_of_lt (Nat.min_le_left _ _) (by decide))

theorem noteRefusal_pending : (noteRefusal a r b).ev.pend.getLsbD evROLLCALL_REFUSED = true :=
  Block.raise_pending _ (by decide)

/-- A refusal is recorded in two registers; every other, the enable's among them, keeps its word. -/
theorem noteRefusal_word {x : Nat} (h1 : x ≠ rROLLCALL_REASON) (h2 : x ≠ rROLLCALL_ADDR) :
    (noteRefusal a r b).word x = b.word x := by
  unfold noteRefusal
  rw [Block.raise_word, Block.wr_word_ne _ _ h1, Block.wr_word_ne _ _ h2, b.wr_word_ne _ h1]

end

end

/-- Settles O20: the check at the head of the queue by its verdict, a refusal register by register. -/
theorem rollCallEndsTheCheck : Obligations.RollCallEndsTheCheck := by
  unfold Obligations.RollCallEndsTheCheck
  refine ⟨fun b c rest hs hc => ⟨fun hv => ends_of_eq (fun _ => rfl) (rollcallCheck_met hs hc hv),
      fun r hv => ends_of_eq (fun _ => rfl) (rollcallCheck_refused hs hc hv)⟩, fun b a r h1 h2 => ?_⟩
  exact ⟨noteRefusal_reason a r, noteRefusal_addr a r, noteRefusal_refusals a r, noteRefusal_pending a r,
    noteRefusal_word a r h1 h2⟩

end Sys2Proof.Machine
end

section
/-! PROOFS. The power commands, the fuses and the boot (02 R66, R77; 09 R362; 16 R545, R546, R549, R552, R554). -/

namespace Sys2Proof.Machine

section
variable {b : Block} {c : Cmd}

/-! ### Optional domains (R552, R554) -/

section
variable {p : List Byte}

theorem mPowerSet_meets (hp : leAt p 0 4 = bitsOf (leAt p 0 4) 13 7 * 2 ^ 7) (hh : heldBack b (bitsOf (leAt p 0 4) 13 7) = []) :
    mPowerSet.chk p b = none := by
  simp only [mPowerSet]
  rw [if_neg (not_not.mpr hp), hh]
  rfl

/-- A direct write of CPR_PD_OPT keeps the domains that hold an enable of 1. -/
theorem hostReg_pdOpt {v : Word} (hm : b.hostMay rCPR_PD_OPT = true) :
    hostReg rCPR_PD_OPT v b = restartCheck rCPR_PD_OPT (writePdOpt v.toNat b) :=
  hostReg_plain hm (by decide) (by decide) (by decide) (by decide) (by decide)

end

/-! ### The fuses (R362, R545) -/

/-- The fused fields, once the fuses are loaded. -/
def fusesRead (b : Block) : Block :=
  ((applyFuses { b with pwr := { b.pwr with fusesLoaded := true } }).wr fCPR_IRC_TRIM_TRIM (fused 1 1)).wr fSLATE_STAT_FUSE_DONE 1

theorem fuseLoadDone_loads (hp : b.pwr.porn = false) (hl : b.pwr.fusesLoaded = false) (hi : proven b 0 = true) :
    fuseLoadDone b =
      coreStart (if fuseMapBad then ((fusesRead b).wr fSLATE_STAT_FUSE_BAD 1).raise evFUSE_MAP_BAD
        else { fusesRead b with slate := { (fusesRead b).slate with steered := fuseRepairs } }) := by
  unfold fuseLoadDone fusesRead
  rw [if_neg (by simp [hp, hl, hi])]

/-! ### BOOT_DONE (R77, R545) -/

theorem bootDone_boots (hp : b.pwr.porn = false) (hr : b.pwr.sysrst = false) (hc : b.on dCORE = true)
    (hs : portsServe b = true) (hd : b.flag fHIF_STATUS_BOOT_DONE = false) :
    bootDone b =
      let b1 := proctorRuns b
      let b2 := if b1.rd fCPR_BOOT_STAT_ROM_STATE = 0 then flashBoot b1 else b1
      if b2.rd fCPR_BOOT_STAT_ROM_STATE = 2 then serve b2 else b2 := by
  unfold bootDone
  rw [if_neg (by simp [hp, hr, hc, hs, hd])]

/-! ### Commands that the boot ROM runs (R546, R549) -/

theorem not_serving_of_rom (h : b.romServing = true) : b.serving = false := by
  simp only [Block.romServing, Bool.and_eq_true, Bool.not_eq_true'] at h
  simp [Block.serving, h.1.2]

section
variable {op : Nat} {m : Meaning} {i : CmdInfo}

/-- The boot ROM takes a command that it accepts and begins it. -/
theorem command_romBegins (ht : b.takes = true) (hr : b.romServing = true) (ho : romAccepts op = true) :
    command op m c b = begin_ op m c b := by
  simp [command, ht, hr, ho, not_serving_of_rom hr]

/-- A command without a due time that no boundary keeps waiting. -/
theorem waits_untimed (hb : i.bound = false) (hf : i.mirrored = false) : b.waits i none = false := by
  simp [Block.waits, CmdInfo.forwarded, hb, hf]

theorem cmdDue_none (hd : c.due = false) : cmdDue c = none := by
  simp [cmdDue, hd]

theorem cmdTok_untimed (hd : c.due = false) : cmdTok op c b = { cmdTok op c b with late := false } := by
  simp [cmdTok, cmdDue_none hd]

/-- A command without a due time, its checks met, has its effect at once. -/
theorem begin_runsUntimed (hi : cmdInfo op = some i) (hd : c.due = false) (hp : precheck i false c.payload b = none)
    (hc : m.chk c.payload b = none) (hw : b.waits i none = false) :
    begin_ op m c b =
      (m.eff (cmdTok op c b) b.now c.payload b).2.finish (cmdTok op c b) b.now false
        (m.eff (cmdTok op c b) b.now c.payload b).1 := by
  simp only [begin_, hi, hp, hc, hd, hw, Bool.false_eq_true, if_false]
  rw [runMeaning_meets (.inr hc), cmdTok_untimed hd]
  rfl

/-- A command that needs no domain, from whatever role, meets the common checks by its length and its reserved bytes. -/
theorem precheck_plain {p : List Byte} (hm : b.mode ≠ mFAULT) (hl : i.lengthOk p = true) (hz : i.zeros = [])
    (hpins : i.pins = false) (hmir : i.mirrored = false) (hn : i.need = 0) : precheck i false p b = none := by
  simp [precheck, hm, hl, CmdInfo.zerosOk, hz, hpins, hmir, hn, Nat.zero_and]

end

/-- The table's entries of the boot ROM's two commands. -/
def bootWriteInfo : CmdInfo := ⟨0x0F10, false, 4, 4, 1, 58, none, [], false, 0x0, false, false, false⟩
def bootRunInfo : CmdInfo := ⟨0x0F11, false, 104, 0, 0, 0, none, [], false, 0x0, false, false, false⟩

theorem cmdInfo_bootWrite : cmdInfo 0x0F10 = some bootWriteInfo := rfl
theorem cmdInfo_bootRun : cmdInfo 0x0F11 = some bootRunInfo := rfl

section
variable (ht : b.takes = true) (hr : b.romServing = true) (hm : b.mode ≠ mFAULT) (hd : c.due = false)
include ht hr hm hd

/-- BOOT_WRITE stores its bytes where they lie within the RAM (R546). -/
theorem bootWrite_stores (h8 : 8 ≤ c.payload.length) (h236 : c.payload.length ≤ 236) (h4 : c.payload.length % 4 = 0)
    (hfit : leAt c.payload 0 4 + (c.payload.length - 4) ≤ 2 ^ 19) :
    Replies (.bootWrite c) 0x0F10 c b (ok []) { b with pwr := { b.pwr with
      bootRam := smWriteAll (fun _ => 0) b.pwr.bootRam (leAt c.payload 0 4) (c.payload.drop 4) } } := by
  have hlen : bootWriteInfo.lengthOk c.payload = true := by
    simp only [CmdInfo.lengthOk, bootWriteInfo, OfNat.ofNat_ne_zero, if_false, Bool.and_eq_true]
    exact ⟨⟨decide_eq_true (by omega), decide_eq_true (by omega)⟩, decide_eq_true (by omega)⟩
  have hchk : mBootWrite.chk c.payload b = none := by
    simp only [mBootWrite]
    rw [if_neg (by simp [hr]), if_neg (by omega)]
  refine ends_of_eq (f := command 0x0F10 mBootWrite c) (fun _ => rfl) ?_
  rw [command_romBegins ht hr rfl, begin_runsUntimed cmdInfo_bootWrite hd (precheck_plain hm hlen rfl rfl rfl rfl) hchk
    (waits_untimed rfl rfl)]
  rfl

end

/-- BOOT_RUN meets the common checks by its length. -/
theorem bootRun_precheck (hm : b.mode ≠ mFAULT) (h104 : c.payload.length = 104) :
    precheck bootRunInfo false c.payload b = none :=
  precheck_plain hm (by simp [CmdInfo.lengthOk, bootRunInfo, h104]) rfl rfl rfl rfl

/-- The image that BOOT_RUN names verifies (R549). -/
def bootImageOk (p : List Byte) (b : Block) : Bool :=
  imageOk b p (smRange (fun _ => 0) b.pwr.bootRam 0 (min (2 ^ 19) (leAt p 0 4)))

section
variable {p : List Byte} (hr : b.romServing = true)
include hr

theorem mBootRun_verifies (hl : leAt p 0 4 ≤ 2 ^ 19) (hg : bootImageOk p b = true) : mBootRun.chk p b = none := by
  simp only [mBootRun]
  rw [if_neg (by simp [hr]), if_pos ⟨hl, hg⟩]

theorem mBootRun_fails (hg : bootImageOk p b = false) : mBootRun.chk p b = some .unsignedImage := by
  simp only [mBootRun]
  rw [if_neg (by simp [hr]), if_neg]
  rintro ⟨-, hok⟩
  exact Bool.false_ne_true (hg.symm.trans hok)

end

section
variable (ht : b.takes = true) (hr : b.romServing = true) (hm : b.mode ≠ mFAULT) (hd : c.due = false)
  (h104 : c.payload.length = 104)
include ht hr hm hd h104

/-- BOOT_RUN starts an image that verifies. -/
theorem bootRun_starts (hl : leAt c.payload 0 4 ≤ 2 ^ 19) (hg : bootImageOk c.payload b = true) :
    Replies (.bootRun c) 0x0F11 c b (ok []) ((startImage (leAt c.payload 4 4) b).wr fCPR_BOOT_STAT_HOST_BOOT 1) := by
  refine ends_of_eq (f := command 0x0F11 mBootRun c) (fun _ => rfl) ?_
  rw [command_romBegins ht hr rfl, begin_runsUntimed cmdInfo_bootRun hd (bootRun_precheck hm h104)
    (mBootRun_verifies hr hl hg) (waits_untimed rfl rfl)]
  rfl

/-- BOOT_RUN refuses any other. -/
theorem bootRun_refuses (hg : bootImageOk c.payload b = false) :
    Replies (.bootRun c) 0x0F11 c b (refusedWith .unsignedImage) b := by
  refine ends_of_eq (f := command 0x0F11 mBootRun c) (fun _ => rfl) ?_
  rw [command_romBegins ht hr rfl, begin_chapterRefused cmdInfo_bootRun (by rw [hd, bootRun_precheck hm h104])
    (mBootRun_fails hr hg), cmdTok_untimed hd]

end

end

/-- Settles O26: each command by what its effect answers, the direct write by what it stores. -/
theorem powerCommands : Obligations.PowerCommands := by
  unfold Obligations.PowerCommands
  intro b
  refine ⟨fun c hr => ?set, fun c hr => ?status, fun v hm => ?direct⟩
  case set =>
    intro opt b1 b2 hp hh
    exact replies_of_meets (fun _ => rfl) hr (mPowerSet_meets hp hh) rfl
  case status => exact replies_of_meets (m := mPowerStatus) (fun _ => rfl) hr rfl (by simp [mPowerStatus, plain, words4])
  case direct => exact ends_of_eq (fun _ => rfl) (hostReg_pdOpt hm)

/-- Settles O27: the fuses by the CRC of their map, the boot by the ROM's state, its two commands by their checks. -/
theorem bootSequence : Obligations.BootSequence := by
  unfold Obligations.BootSequence
  intro b
  refine ⟨fun hp hl hi => ?fuses, fun hp hr hc hs hd => ends_of_eq (fun _ => rfl) (bootDone_boots hp hr hc hs hd),
    fun c ht hr hm hd => ⟨bootWrite_stores ht hr hm hd, fun h104 hl => ?run⟩⟩
  case fuses =>
    have hload := fuseLoadDone_loads hp hl hi
    refine ⟨fun hbad => ?_, fun hgood => ?_⟩
    · rw [if_pos hbad] at hload
      exact ends_of_eq (fun _ => rfl) hload
    · rw [if_neg (by simp [hgood])] at hload
      exact ends_of_eq (fun _ => rfl) hload
  case run =>
    intro good
    cases hg : good with
    | true => exact bootRun_starts ht hr hm hd h104 hl hg
    | false => exact bootRun_refuses ht hr hm hd h104 hg

end Sys2Proof.Machine
end

section
/-! PROOFS. What the host sets for all voices: tuning, noise, host parameters, the beat and the global LFOs (03 R83, R116, R117;
04 R126, R151, R159, R163, R166). -/

namespace Sys2Proof.Machine

section
variable {b : Block} {p : List Byte}

/-! ### What each command's checks let through -/

theorem mSetTuning_meets (hlo : 26214400 ≤ leAt p 0 4) (hhi : leAt p 0 4 ≤ 31457280) : mSetTuning.chk p b = none :=
  if_neg (by simp [hlo, hhi])

/-- One of the tables 1 to 8, notes up to 127, and no offset beyond 786432 either way (R116). -/
theorem mSetTuningTable_meets (h0 : leAt p 0 1 ≠ 0) (h8 : leAt p 0 1 ≤ 8) (hn : leAt p 1 1 + leAt p 2 1 ≤ 128)
    (ho : ∀ i < leAt p 2 1, (leAtS p (4 + 4 * i) 4).natAbs ≤ 786432) : mSetTuningTable.chk p b = none := by
  have hoffsets : (List.range (leAt p 2 1)).any (fun i => decide (786432 < (leAtS p (4 + 4 * i) 4).natAbs)) = false := by
    simpa using ho
  refine if_neg ?_
  rw [hoffsets]
  simp [h0, h8, hn]

theorem mSetTempo_meets (ht : 16384 ≤ leAt p 0 4) (hm : leAt p 4 1 ≤ 1) : mSetTempo.chk p b = none :=
  if_neg (by simp [ht, hm])

theorem mSetSmooth_meets (h : leAt p 0 2 ≤ 4095) : mSetSmooth.chk p b = none :=
  if_neg (by simp [h])

/-- Every entry names one of the 32 host parameters, its reserved bytes 0 (R159). -/
theorem mSetHparam_meets (h : ∀ i < p.length / 8, leAt p (8 * i) 1 ≤ 31 ∧ leAt p (8 * i + 1) 3 = 0) :
    mSetHparam.chk p b = none := by
  have hentries : (List.range (p.length / 8)).any (fun i => decide (31 < leAt p (8 * i) 1) || leAt p (8 * i + 1) 3 != 0) = false := by
    simpa using h
  simp only [mSetHparam, hentries, Bool.false_eq_true, if_false]

/-! ### The beat (R163) -/

/-- A granted word for a mirrored register of a block without an enable, on a device that does not forward it. -/
theorem hostReg_mirrored {a : Nat} {v : Word} (hm : b.hostMay a = true) (h1 : 0x10000 ≤ a) (h2 : a < 0xF0000) (h4 : a % 4 = 0)
    (hi : isMirrored a = true) (he : isEnable a = false) (hp : b.isPrimary = false) :
    hostReg a v b = logJournal a v.toNat (restartCheck a (storeWord a v.toNat b)) := by
  rw [hostReg_writes hm h1 h2 h4 (by rw [hp, Bool.false_and]), if_pos hi, writeReg_plain he]

theorem storeWord_originHi (n : Nat) : storeWord rVOICE_BEAT_ORIGIN_HI n b = writeOriginHi n b := rfl

theorem hostReg_originHi {v : Word} (hm : b.hostMay rVOICE_BEAT_ORIGIN_HI = true) (hp : b.isPrimary = false) :
    hostReg rVOICE_BEAT_ORIGIN_HI v b =
      logJournal rVOICE_BEAT_ORIGIN_HI v.toNat (restartCheck rVOICE_BEAT_ORIGIN_HI (writeOriginHi v.toNat b)) := by
  rw [hostReg_mirrored hm (by decide) (by decide) (by decide) (by decide) (by decide) hp, storeWord_originHi]

/-- Without a beat that waits, the one in the registers commits. -/
theorem commitBeat_unstaged (b : Block) :
    commitBeat { b with glob := { b.glob with beatStaged := none } } =
      { b with glob := { b.glob with
        tpb := b.rd fVOICE_TEMPO_TPB_TPB, beatStaged := none
        origin := b.rd fVOICE_BEAT_ORIGIN_LO_ORIGIN_LO + 2 ^ 32 * b.rd fVOICE_BEAT_ORIGIN_HI_ORIGIN_HI } } := rfl

/-- A beat that waits for the boundary is the one that commits there. -/
theorem commitBeat_staged {tpb origin : Nat} (h : b.glob.beatStaged = some (tpb, origin)) :
    commitBeat b = { b with glob := { b.glob with tpb := tpb, origin := origin, beatStaged := none } } := by
  simp [commitBeat, h]

end

/-- Settles O36: each command by its checks, held or at once, and by what its effect answers; the beat by what its registers stage. -/
theorem voiceSettings : Obligations.VoiceSettings := by
  unfold Obligations.VoiceSettings
  intro b
  refine ⟨fun c => ⟨?tuningWaits, ?tableWaits, ?tempoWaits, ?lfoWaits, ?noise, ?smooth, ?hparam⟩,
    fun h => ⟨?tuning, ?table, ?tempo, ?lfo⟩, fun v hm hp => ?originHi, fun _ _ h => commitBeat_staged h⟩
  case tuningWaits => exact fun hw hlo hhi => waits_of_meets (fun _ => rfl) hw (mSetTuning_meets hlo hhi)
  case tableWaits => exact fun hw h0 h8 hn ho => waits_of_meets (fun _ => rfl) hw (mSetTuningTable_meets h0 h8 hn ho)
  case tempoWaits => exact fun hw ht hm => waits_of_meets (fun _ => rfl) hw (mSetTempo_meets ht hm)
  case lfoWaits => exact fun hw hc => waits_of_meets (fun _ => rfl) hw hc
  case noise => exact fun hr => replies_of_meets (m := mSetNoiseSeed) (fun _ => rfl) hr rfl rfl
  case smooth => exact fun hr hs => replies_of_meets (fun _ => rfl) hr (mSetSmooth_meets hs) rfl
  case hparam => exact fun hr hi => replies_of_meets (fun _ => rfl) hr (mSetHparam_meets hi) rfl
  case tuning =>
    exact fun hmay hlo hhi => runHeld_meets (m := mSetTuning) rfl hmay (by decide) (by decide) (mSetTuning_meets hlo hhi) rfl
  case table =>
    exact fun hmay h0 h8 hn ho =>
      runHeld_meets (m := mSetTuningTable) rfl hmay (by decide) (by decide) (mSetTuningTable_meets h0 h8 hn ho) rfl
  case tempo =>
    exact fun hmay ht hm => runHeld_meets (m := mSetTempo) rfl hmay (by decide) (by decide) (mSetTempo_meets ht hm)
      (Prod.ext rfl (commitBeat_unstaged _))
  case lfo => exact fun hmay hc => runHeld_meets (m := mSetGlobalLfo) rfl hmay (by decide) (by decide) hc rfl
  case originHi => exact ends_of_eq (fun _ => rfl) (hostReg_originHi hm hp)

end Sys2Proof.Machine
end

section
/-! PROOFS. Modulation writes to voices and notes (04 R155 to R158, R165). -/

namespace Sys2Proof.Machine

section
variable {b : Block} {p : List Byte} {v w : Nat}

/-! ### What the checks of MOD_WRITE let through (R165) -/

/-- No entry names a reserved destination, and none has a bit above 17. -/
theorem mModWrite_meets
    (h : ∀ i < p.length / 8, destReserved (leAt p (8 * i) 4 % 256) = false ∧ leAt p (8 * i) 4 < 2 ^ 18) :
    mModWrite.chk p b = none := by
  have hdest : ((List.range (p.length / 8)).map (fun i => leAt p (8 * i) 4)).any (fun a => destReserved (a % 256)) = false := by
    simpa using fun i hi => (h i hi).1
  have haddr : ((List.range (p.length / 8)).map (fun i => leAt p (8 * i) 4)).any (fun a => decide (2 ^ 18 ≤ a)) = false := by
    simpa using fun i hi => (h i hi).2
  simp only [mModWrite, hdest, haddr, Bool.false_eq_true, if_false]

/-! ### A voice stored -/

@[simp] theorem voice_setVoice_same {x : Voice} : (b.setVoice v x).voice v = x := smGet_set_same

theorem voice_setVoice_ne {x : Voice} (h : w ≠ v) : (b.setVoice v x).voice w = b.voice w := smGet_set_ne h

@[simp] theorem voice_modVoice_same {f : Voice → Voice} : (b.modVoice v f).voice v = f (b.voice v) := voice_setVoice_same

theorem voice_modVoice_ne {f : Voice → Voice} (h : w ≠ v) : (b.modVoice v f).voice w = b.voice w := voice_setVoice_ne h

/-! ### A live base without smoothing (R157) -/

/-- Without smoothing the live base of the destination becomes the target at once. -/
theorem rampTo_zero_base (order d : Nat) (target : Int) (x : Voice) : (rampTo 0 order d target x).base = x.base.set d target := rfl

theorem nth_set_same {α : Type} {z x : α} {l : List α} {i : Nat} (h : i < l.length) : nth z (l.set i x) i = x := by
  simp [nth, h]

theorem nth_set_ne {α : Type} {z x : α} {l : List α} {i j : Nat} (h : j ≠ i) : nth z (l.set i x) j = nth z l j := by
  simp [nth, List.getElem?_set_ne h.symm]

/-! ### One mod write at its boundary (R155, R157) -/

section
variable {addr : Nat} {value : Int}

/-- A mod write to a voice that is not live in the current mode faults. -/
theorem applyMod_notLive (hl : b.live (addr / 256 % 1024) = false) : applyMod addr value b = (false, modFault addr b) :=
  if_pos (by simp [hl])

/-- A mod write to a seat without an armed note is counted. -/
theorem applyMod_idle (hl : b.live (addr / 256 % 1024) = true) (ht : modTarget (b.voice (addr / 256 % 1024)) = false) :
    applyMod addr value b = (false, b.countUp fVOICE_MOD_IDLE_COUNT 1) := by
  simp [applyMod, hl, ht]

/-- Any other mod write takes the next place in the order of ramps and moves the voice's live base. -/
theorem applyMod_moves (hl : b.live (addr / 256 % 1024) = true) (ht : modTarget (b.voice (addr / 256 % 1024)) = true) :
    applyMod addr value b = (true, (nextRamp b).2.modVoice (addr / 256 % 1024)
      (rampTo b.glob.smooth b.sched.rampOrder (addr % 256) value)) := by
  simp only [applyMod, hl, ht, Bool.not_true, Bool.false_eq_true, if_false]
  rfl

/-- The live bases of the seat that a mod write reaches, where smoothing is 0. -/
theorem applyMod_base (hl : b.live (addr / 256 % 1024) = true) (ht : modTarget (b.voice (addr / 256 % 1024)) = true)
    (h0 : b.glob.smooth = 0) :
    ((applyMod addr value b).2.voice (addr / 256 % 1024)).base =
      (b.voice (addr / 256 % 1024)).base.set (addr % 256) value := by
  rw [applyMod_moves hl ht, h0, voice_modVoice_same, rampTo_zero_base]
  rfl

end

end

/-- Settles O37: each command by its checks and by what its entries answer behind the earlier mod writes; one entry by the state of
the seat that it names. -/
theorem modWrites : Obligations.ModWrites := by
  unfold Obligations.ModWrites
  intro b
  refine ⟨fun c => ⟨?writeWaits, ?noteWaits⟩, fun h => ⟨?write, ?note⟩, fun addr value => ⟨?notLive, ?idle, ?moves⟩⟩
  case writeWaits => exact fun hw hi => waits_of_meets (fun _ => rfl) hw (mModWrite_meets hi)
  case noteWaits => exact fun hw hc => waits_of_meets (fun _ => rfl) hw hc
  case write => exact fun hmay hi => runHeld_mod (m := mModWrite) rfl (.inl rfl) hmay (mModWrite_meets hi) rfl
  case note => exact fun hmay hc => runHeld_mod (m := mModWriteNote) rfl (.inr rfl) hmay hc rfl
  case notLive => exact applyMod_notLive
  case idle => exact applyMod_idle
  case moves =>
    intro hl ht h0 hlen
    have hbase := applyMod_base (value := value) hl ht h0
    have hmoves := applyMod_moves (value := value) hl ht
    refine ⟨by rw [hmoves], ?_, fun d hd => ?_, fun w hw => ?_, by rw [hmoves]; rfl, by rw [hmoves]; rfl⟩
    · rw [hbase, nth_set_same (by omega)]
    · rw [hbase, nth_set_ne hd]
    · rw [hmoves, voice_modVoice_ne hw]
      rfl

end Sys2Proof.Machine
end

section
/-! PROOFS. Orders of the event island: the best seat, the timetables, what is released next, and note IDs (05 R175, R181, R202 to
R204). -/

namespace Sys2Proof.Machine

/-- What holds of an empty list and its start, and passes on to a list with one more entry behind, holds of the whole fold. -/
theorem foldl_concat_induction {α σ : Type} {f : σ → α → σ} {init : σ} {P : List α → σ → Prop} (h0 : P [] init)
    (hs : ∀ l x s, P l s → P (l ++ [x]) (f s x)) (l : List α) : P l (l.foldl f init) := by
  induction l using List.reverseRecOn with
  | nil => exact h0
  | append_singleton l x ih =>
    rw [List.foldl_append]
    exact hs l x _ ih

section
variable {b : Block}

/-! ### The best seat (R181) -/

/-- A seat is taken before another: its lane is less busy, or as busy and its number no higher. -/
def SeatBefore (b : Block) (v w : Nat) : Prop :=
  laneBusy b (laneOf v) < laneBusy b (laneOf w) ∨ (laneBusy b (laneOf v) = laneBusy b (laneOf w) ∧ v ≤ w)

theorem SeatBefore.refl (v : Nat) : SeatBefore b v v := .inr ⟨rfl, le_rfl⟩

theorem SeatBefore.trans {u v w : Nat} (huv : SeatBefore b u v) (hvw : SeatBefore b v w) : SeatBefore b u w := by
  unfold SeatBefore at *
  omega

/-- A seat of the pool that is taken before every other; none of an empty pool only. -/
def IsBestSeat (b : Block) (pool : List Nat) : Option Nat → Prop
  | none => pool = []
  | some v => v ∈ pool ∧ ∀ w ∈ pool, SeatBefore b v w

/-- The best of a pool with a seat more is that seat, where it is taken before the best so far, or stays. -/
theorem IsBestSeat.concat {pool : List Nat} {u v x : Nat} (h : IsBestSeat b pool (some u)) (hv : v = u ∨ v = x)
    (hu : SeatBefore b v u) (hx : SeatBefore b v x) : IsBestSeat b (pool ++ [x]) (some v) := by
  obtain ⟨hmem, hall⟩ := h
  refine ⟨by rcases hv with rfl | rfl <;> simp [hmem], fun w hw => ?_⟩
  rcases List.mem_append.mp hw with hw | hw
  · exact hu.trans (hall w hw)
  · rwa [List.mem_singleton.mp hw]

theorem bestSeat_isBest (b : Block) (pool : List Nat) : IsBestSeat b pool (bestSeat b pool) := by
  unfold bestSeat
  refine foldl_concat_induction (P := IsBestSeat b) (init := none) rfl (fun l x m hm => ?_) pool
  cases m with
  | none =>
    obtain rfl : l = [] := hm
    exact ⟨by simp, by simp [SeatBefore.refl]⟩
  | some u =>
    dsimp only
    split
    next hlt => exact hm.concat (.inr rfl) (hlt.imp_right (fun h => ⟨h.1, h.2.le⟩)) (.refl x)
    next hge => exact hm.concat (.inl rfl) (.refl u) (by unfold SeatBefore; omega)

/-! ### A timetable (R202, R203) -/

/-- An entry is inserted behind all that are due no later, before all that are due later. -/
theorem insertDue_splits (e : TTEntry) {tt : List TTEntry} (hs : tt.Pairwise (fun x y => dueKey b x.due ≤ dueKey b y.due)) :
    ∃ before after, tt = before ++ after ∧ insertDue b e tt = before ++ e :: after ∧
      (∀ x ∈ before, dueKey b x.due ≤ dueKey b e.due) ∧ (∀ x ∈ after, dueKey b e.due < dueKey b x.due) := by
  induction tt with
  | nil => exact ⟨[], [], rfl, rfl, by simp, by simp⟩
  | cons x xs ih =>
    obtain ⟨hx, hxs⟩ := List.pairwise_cons.mp hs
    by_cases hle : dueKey b x.due ≤ dueKey b e.due
    · obtain ⟨before, after, happ, hins, hbefore, hafter⟩ := ih hxs
      exact ⟨x :: before, after, by rw [happ, List.cons_append], by rw [insertDue, if_pos hle, hins, List.cons_append],
        List.forall_mem_cons.mpr ⟨hle, hbefore⟩, hafter⟩
    · have hlt : dueKey b e.due < dueKey b x.due := Nat.lt_of_not_le hle
      exact ⟨[], x :: xs, rfl, by rw [insertDue, if_neg hle, List.nil_append], by simp,
        List.forall_mem_cons.mpr ⟨hlt, fun y hy => hlt.trans_le (hx y hy)⟩⟩

/-! ### What is released next (R204) -/

/-- An entry is due within the lead, or its time has come. -/
def releasable (b : Block) (e : TTEntry) : Bool :=
  b.hasCome ((e.due + tideMod - b.rd fSCHED_TT_LEAD_LEAD) % tideMod) || b.hasCome e.due

/-- Of two timetables' heads, the first is due earlier, or at the same time and in the timetable of no higher number. -/
def DueBefore (b : Block) (x y : Nat × TTEntry) : Prop :=
  dueKey b x.2.due < dueKey b y.2.due ∨ (dueKey b x.2.due = dueKey b y.2.due ∧ x.1 ≤ y.1)

theorem DueBefore.refl (x : Nat × TTEntry) : DueBefore b x x := .inr ⟨rfl, le_rfl⟩

theorem DueBefore.trans {x y z : Nat × TTEntry} (hxy : DueBefore b x y) (hyz : DueBefore b y z) : DueBefore b x z := by
  unfold DueBefore at *
  omega

/-- The numbered head stands at its timetable, one of those listed, and may be released. -/
def IsHead (b : Block) (l : List Nat) (x : Nat × TTEntry) : Prop :=
  x.1 ∈ l ∧ (nth [] b.sched.tts x.1).head? = some x.2 ∧ releasable b x.2 = true

/-- The earliest head of the timetables listed that may be released; none where none may be. -/
def IsNextRelease (b : Block) (l : List Nat) : Option (Nat × TTEntry) → Prop
  | none => ∀ x, ¬ IsHead b l x
  | some x => IsHead b l x ∧ ∀ y, IsHead b l y → DueBefore b x y

theorem isHead_concat {l : List Nat} {j : Nat} {x : Nat × TTEntry} :
    IsHead b (l ++ [j]) x ↔ IsHead b l x ∨ IsHead b [j] x := by
  simp only [IsHead, List.mem_append]
  tauto

/-- The head of one timetable. -/
theorem isHead_singleton {j : Nat} {e : TTEntry} {rest : List TTEntry} (htt : nth [] b.sched.tts j = e :: rest)
    {x : Nat × TTEntry} : IsHead b [j] x ↔ x = (j, e) ∧ releasable b e = true := by
  obtain ⟨i, f⟩ := x
  simp only [IsHead, List.mem_singleton, Prod.mk.injEq]
  constructor
  · rintro ⟨rfl, hhead, hrel⟩
    obtain rfl : e = f := by simpa [htt] using hhead
    exact ⟨⟨rfl, rfl⟩, hrel⟩
  · rintro ⟨⟨rfl, rfl⟩, hrel⟩
    exact ⟨rfl, by rw [htt, List.head?_cons], hrel⟩

theorem not_isHead_empty {j : Nat} (htt : nth [] b.sched.tts j = []) {x : Nat × TTEntry} : ¬ IsHead b [j] x := by
  rintro ⟨hmem, hhead, -⟩
  rw [List.mem_singleton.mp hmem, htt] at hhead
  cases hhead

/-- A timetable more that is empty, or whose head may not be released, leaves the choice as it was. -/
theorem IsNextRelease.concat_none {l : List Nat} {j : Nat} {m : Option (Nat × TTEntry)} (h : IsNextRelease b l m)
    (hj : ∀ x, ¬ IsHead b [j] x) : IsNextRelease b (l ++ [j]) m := by
  cases m <;> simpa only [IsNextRelease, isHead_concat, hj, or_false] using h

/-- A timetable more whose head may be released: the choice is before the earlier ones and before that head. -/
theorem IsNextRelease.concat_some {l : List Nat} {j : Nat} {e : TTEntry} {rest : List TTEntry}
    (htt : nth [] b.sched.tts j = e :: rest) {x : Nat × TTEntry} (hx : IsHead b (l ++ [j]) x)
    (hl : ∀ y, IsHead b l y → DueBefore b x y) (hj : DueBefore b x (j, e)) : IsNextRelease b (l ++ [j]) (some x) := by
  refine ⟨hx, fun y hy => ?_⟩
  rcases isHead_concat.mp hy with hy | hy
  · exact hl y hy
  · rwa [((isHead_singleton htt).mp hy).1]

theorem nextRelease_isNext (b : Block) : IsNextRelease b (List.range 4) (nextRelease b) := by
  unfold nextRelease
  refine foldl_concat_induction (P := fun l m => l.Pairwise (· < ·) → IsNextRelease b l m) (init := none)
    (fun _ _ h => by simp [IsHead] at h) (fun l j m hm hl => ?_) _ List.pairwise_lt_range
  obtain ⟨hl, -, hlast⟩ := List.pairwise_append.mp hl
  have hlt : ∀ i ∈ l, i < j := fun i hi => hlast i hi j (List.mem_singleton_self j)
  specialize hm hl
  cases htt : nth [] b.sched.tts j with
  | nil => exact hm.concat_none (fun x hx => not_isHead_empty htt hx)
  | cons e rest =>
    have hhead {x : Nat × TTEntry} := isHead_singleton htt (x := x)
    change IsNextRelease b (l ++ [j]) (if releasable b e = true then _ else m)
    split
    next hrel =>
      have hj : IsHead b (l ++ [j]) (j, e) := isHead_concat.mpr (.inr (hhead.mpr ⟨rfl, hrel⟩))
      cases m with
      | none => exact .concat_some htt hj (fun y hy => absurd hy (hm y)) (.refl _)
      | some x =>
        obtain ⟨hx, hfirst⟩ := hm
        dsimp only
        split
        next hearlier => exact .concat_some htt hj (fun y hy => .trans (.inl hearlier) (hfirst y hy)) (.refl _)
        next hlater =>
          have hle : dueKey b x.2.due ≤ dueKey b e.due := Nat.le_of_not_lt hlater
          exact .concat_some htt (isHead_concat.mpr (.inl hx)) hfirst (hle.lt_or_eq.imp_right (fun h => ⟨h, (hlt _ hx.1).le⟩))
    next hnot => exact hm.concat_none (fun x hx => hnot (hhead.mp hx).2)

/-! ### Note IDs (R175) -/

/-- The ID behind an ID of 16 bits, with 1 behind the last. -/
theorem idAfter_nonzero {n : Nat} (hlt : n < 2 ^ 16) : (if n = 0xFFFF then 1 else n + 1) % 2 ^ 16 ≠ 0 := by
  split <;> omega

/-- A note ID given, and the next one behind it, are not 0. -/
theorem giveId_nonzero (r : EventRecord) (h : b.rd fSCHED_NOTE_ID_NEXT_NEXT ≠ 0) :
    (giveId r b).1.noteId ≠ 0 ∧ (giveId r b).2.rd fSCHED_NOTE_ID_NEXT_NEXT ≠ 0 := by
  have hlt : b.rd fSCHED_NOTE_ID_NEXT_NEXT < 2 ^ 16 := b.rd_lt _
  unfold giveId
  split
  next h0 =>
    constructor
    · intro hzero
      have hval := congrArg BitVec.toNat hzero
      rw [BitVec.toNat_ofNat, Nat.mod_eq_of_lt hlt] at hval
      exact h hval
    · rw [Block.wr_rd_same _ _ (by decide) (by decide)]
      exact idAfter_nonzero hlt
  next h0 => exact ⟨h0, h⟩

end

/-- Settles O39: the best seat and the next release by what holds of each choice as its fold goes on, the timetable by where the
entry splits it, the ID by its 16 bits. -/
theorem seatsAndTimetablesKeepTheirOrder : Obligations.SeatsAndTimetablesKeepTheirOrder := by
  unfold Obligations.SeatsAndTimetablesKeepTheirOrder
  intro b
  refine ⟨fun pool v hv => ?seat, fun pool hp => ?someSeat, fun e tt hs => insertDue_splits e hs, fun i e hn => ?next,
    fun r h => giveId_nonzero r h⟩
  case seat =>
    have hbest := bestSeat_isBest b pool
    rwa [hv] at hbest
  case someSeat =>
    have hbest := bestSeat_isBest b pool
    cases hv : bestSeat b pool with
    | none => rw [hv] at hbest; exact absurd hbest hp
    | some v => rfl
  case next =>
    have hnext := nextRelease_isNext b
    rw [hn] at hnext
    obtain ⟨⟨hi, hhead, -⟩, hfirst⟩ := hnext
    refine ⟨List.mem_range.mp hi, hhead, fun j hj f hf hlead => hfirst (j, f) ⟨List.mem_range.mpr hj, hf, ?_⟩⟩
    rw [releasable, hlead, Bool.true_or]

end Sys2Proof.Machine
end

section
/-! PROOFS. Event records at the event island: refused, put into a timetable, handled or queued (05 R172 to R174, R176, R202; 15
R502, R503). -/

namespace Sys2Proof.Machine

section
variable {b : Block} {r : EventRecord} {stamp : Nat}

/-! ### The flags of a record (R172) -/

section
variable {i : Nat} {v : Bool}

@[simp] theorem rType_setFlag : rType (setFlag r i v) = rType r := rfl

theorem rType_retyped {t : Nat} (ht : t < 2 ^ 8) : rType { r with type := BitVec.ofNat 8 t } = t := by
  rw [rType, BitVec.toNat_ofNat, Nat.mod_eq_of_lt ht]

theorem bit_eq_bitsOf (w i : Nat) : bit w i = (bitsOf w i i == 1) := by
  rw [bit, bitsOf, Nat.add_sub_cancel_left, pow_one]

theorem setFlag_flags : (setFlag r i v).flags.toNat = putBits r.flags.toNat i i (b2n v) % 2 ^ 8 := BitVec.toNat_ofNat ..

/-- The bits below a flag stored stay. -/
theorem bitsOf_setFlag_below {hi lo : Nat} (h : hi < i) (h8 : hi < 8) :
    bitsOf (setFlag r i v).flags.toNat hi lo = bitsOf r.flags.toNat hi lo := by
  rw [setFlag_flags, bitsOf_mod h8, bitsOf_putBits_lt le_rfl h]

/-- The bits above a flag stored stay. -/
theorem bitsOf_setFlag_above {hi lo : Nat} (h : i < lo) (h8 : hi < 8) :
    bitsOf (setFlag r i v).flags.toNat hi lo = bitsOf r.flags.toNat hi lo := by
  rw [setFlag_flags, bitsOf_mod h8, bitsOf_putBits_gt le_rfl h]

@[simp] theorem rDue_setLate : rDue (setFlag r 2 v) = rDue r := by
  rw [rDue, rDue, bit_eq_bitsOf, bit_eq_bitsOf, bitsOf_setFlag_below (by decide) (by decide)]

@[simp] theorem rRoll_setLate : rRoll (setFlag r 2 v) = rRoll r := bitsOf_setFlag_above (by decide) (by decide)

@[simp] theorem rLate_setLate : rLate (setFlag r 2 v) = v := by
  rw [rLate, bit_eq_bitsOf, setFlag_flags, bitsOf_mod (by decide), bitsOf_putBits_same le_rfl]
  cases v <;> rfl

end

/-! ### What an offer meets first (R173, R400, R502, R503) -/

theorem offer_off (hd : b.on dEVT = false) : offer r stamp b = (false, b) := if_pos (by simp [hd])

section
variable (hd : b.on dEVT = true)
include hd

theorem offer_shadow (hs : b.isShadow = true) : offer r stamp b = (true, b.countUp fFERRY_OWN_DROP_COUNT 1) := by
  simp [offer, hd, hs]

theorem offer_bad (hs : b.isShadow = false) (hbad : badRecord (setFlag r 2 false) = true) :
    offer r stamp b = (true, traceDiscard (setFlag r 2 false) 2 b) := by
  simp [offer, hd, hs, hbad]

/-- A record that is listed enters the event island of a device without a role, its LATE flag cleared. -/
theorem offer_enters (hs : b.isShadow = false) (hp : b.isPrimary = false) (hbad : badRecord (setFlag r 2 false) = false) :
    offer r stamp b = enter (setFlag r 2 false) stamp b := by
  simp [offer, hd, hs, hp, hbad]

end

/-! ### The places of the island (R198, R202) -/

/-- The record stands in its timetable. -/
def timetabled (r : EventRecord) (came : Arrival) (b : Block) : Block :=
  let k := ttOf (rType r)
  let tt := insertDue b ⟨r, r.dueTime.toNat, false, came⟩ (nth [] b.sched.tts k)
  noteFills { b with sched := { b.sched with tts := b.sched.tts.set k tt } }

theorem insertTimetable_room {came : Arrival} (h : (nth [] b.sched.tts (ttOf (rType r))).length < 2048) :
    insertTimetable r came b = (true, timetabled r came b) :=
  if_neg (by omega)

theorem insertTimetable_full {came : Arrival} (h : 2048 ≤ (nth [] b.sched.tts (ttOf (rType r))).length) :
    insertTimetable r came b = (false, b) :=
  if_pos h

theorem appendRoll_empty {came : Arrival} (h : poolFree b = 0) : appendRoll r came b = (false, b) := if_pos h

/-- The descriptor that a record draws from the pool. -/
def drawnItem (r : EventRecord) (came : Arrival) (b : Block) : Item :=
  ⟨r, Config.freeNat 199 (rType r) % 65536, rRoll r, rLate r, false, ((drawHandle b).2.fresh 200).1 % 4096, (drawHandle b).1,
    came⟩

/-- The record stands at the end of its roll. -/
def rollJoined (r : EventRecord) (came : Arrival) (b : Block) : Block :=
  let x := ((drawHandle b).2.fresh 200).2
  noteFills { x with sched := { x.sched with
    rolls := x.sched.rolls.modify (rRoll r) (fun l => relink (l ++ [drawnItem r came b])) } }

theorem appendRoll_joins {came : Arrival} (h : poolFree b ≠ 0) : appendRoll r came b = (true, rollJoined r came b) := by
  rw [appendRoll, rollJoined, if_neg h]
  rcases hd : drawHandle b with ⟨k, x⟩
  simp only [drawnItem, hd]

/-! ### A record enters (R174, R176) -/

/-- The due time of a record has passed. -/
def lateNow (r : EventRecord) (b : Block) : Bool := rDue r && b.isPast r.dueTime.toNat

/-- The record waits for a due time still to come, as every timed one but a CANCEL does. -/
def mustAwait (r : EventRecord) (b : Block) : Bool := rDue r && !b.hasCome r.dueTime.toNat && rType r != evtCancel

/-- The record with its LATE flag as it enters. -/
def markLate (r : EventRecord) (b : Block) : EventRecord := setFlag r 2 (rLate r || lateNow r b)

theorem raiseIf_effMode {c : Bool} {n : Nat} : (b.raiseIf c n).effMode = b.effMode := by
  unfold Block.raiseIf
  split
  · have hmode : (b.raise n).mode = b.mode := Block.raise_rd ..
    rw [Block.effMode, hmode, Block.raise_pwr, Block.effMode]
  · rfl

section
variable {came : Arrival} {n : Block} (hn : b.arrive stamp = (came, n))
include hn

/-- What becomes of a record, once it has its place in the order of arrival. -/
theorem enter_eq :
    enter r stamp b =
      if mustAwait r n then insertTimetable (markLate r n) came n
      else if isDirect (rType r) then
        if n.effMode = mLISTEN then (true, holdWake (markLate r n) stamp (n.raiseIf (lateNow r n) evTT_LATE_INSERT))
        else (true, directNow (markLate r n) none false stamp (n.raiseIf (lateNow r n) evTT_LATE_INSERT))
      else
        ((appendRoll (markLate r n) came n).1,
          (appendRoll (markLate r n) came n).2.raiseIf ((appendRoll (markLate r n) came n).1 && lateNow r n) evTT_LATE_INSERT) := by
  unfold enter
  rw [hn]
  dsimp only
  rw [raiseIf_effMode, rDue_setLate, rType_setFlag]
  rfl

theorem enter_awaits (h : mustAwait r n = true) (hroom : (nth [] n.sched.tts (ttOf (rType r))).length < 2048) :
    enter r stamp b = (true, timetabled (markLate r n) came n) := by
  rw [enter_eq hn, if_pos h, insertTimetable_room (by simpa [markLate] using hroom)]

theorem enter_findsTimetableFull (h : mustAwait r n = true) (hfull : 2048 ≤ (nth [] n.sched.tts (ttOf (rType r))).length) :
    enter r stamp b = (false, n) := by
  rw [enter_eq hn, if_pos h, insertTimetable_full (by simpa [markLate] using hfull)]

section
variable (h : mustAwait r n = false)
include h

theorem enter_allocates (hd : isDirect (rType r) = true) (hm : n.effMode ≠ mLISTEN) :
    enter r stamp b = (true, directNow (markLate r n) none false stamp (n.raiseIf (lateNow r n) evTT_LATE_INSERT)) := by
  rw [enter_eq hn, if_neg (by simp [h]), if_pos hd, if_neg hm]

theorem enter_wakes (hd : isDirect (rType r) = true) (hm : n.effMode = mLISTEN) :
    enter r stamp b = (true, holdWake (markLate r n) stamp (n.raiseIf (lateNow r n) evTT_LATE_INSERT)) := by
  rw [enter_eq hn, if_neg (by simp [h]), if_pos hd, if_pos hm]

theorem enter_joinsRoll (hd : isDirect (rType r) = false) (hf : poolFree n ≠ 0) :
    enter r stamp b = (true, (rollJoined (markLate r n) came n).raiseIf (lateNow r n) evTT_LATE_INSERT) := by
  rw [enter_eq hn, if_neg (by simp [h]), if_neg (by simp [hd]), appendRoll_joins hf, Bool.true_and]

theorem enter_findsPoolEmpty (hd : isDirect (rType r) = false) (hf : poolFree n = 0) : enter r stamp b = (false, n) := by
  rw [enter_eq hn, if_neg (by simp [h]), if_neg (by simp [hd]), appendRoll_empty hf, Bool.false_and]
  rfl

end
end

/-! ### The record rows -/

/-- Each record row offers the record as one of its type. -/
theorem recordRow_offers {t : Nat} {i : Instr}
    (h : (t, i) ∈ [(1, Instr.noteOn r), (2, .noteOff r), (3, .polyPressure r), (4, .noteBend r), (5, .noteCtrl r),
      (6, .controller r), (7, .channelPressure r), (8, .pitchBend r), (9, .modWriteRecord r), (10, .cancel r),
      (11, .allNotesOff r), (12, .allSoundOff r), (16, .work r)]) : t < 2 ^ 8 ∧ ∀ s, exec i s = done (offerAs t r) s := by
  simp only [List.mem_cons, Prod.mk.injEq, List.not_mem_nil, or_false] at h
  rcases h with ⟨rfl, rfl⟩ | ⟨rfl, rfl⟩ | ⟨rfl, rfl⟩ | ⟨rfl, rfl⟩ | ⟨rfl, rfl⟩ | ⟨rfl, rfl⟩ | ⟨rfl, rfl⟩ | ⟨rfl, rfl⟩ |
    ⟨rfl, rfl⟩ | ⟨rfl, rfl⟩ | ⟨rfl, rfl⟩ | ⟨rfl, rfl⟩ | ⟨rfl, rfl⟩ <;> exact ⟨by decide, fun _ => rfl⟩

end

/-- Settles O38: a row offers its record; an offer by what it meets first; a record that enters by its due time, its type and the
place that it finds. -/
theorem recordsEnterTheIsland : Obligations.RecordsEnterTheIsland := by
  unfold Obligations.RecordsEnterTheIsland
  intro b r t i hi r1 due past r2 future k came n
  obtain ⟨ht, hrow⟩ := recordRow_offers hi
  have hends : ∀ {ok x}, offer { r with type := BitVec.ofNat 8 t } b.now b = (ok, x) → Ends i b x :=
    fun h => ends_of_eq hrow (congrArg Prod.snd h)
  refine ⟨fun hd => hends (offer_off hd), fun hd hs => hends (offer_shadow hd hs), fun hd hs hbad => hends (offer_bad hd hs hbad),
    fun hd hs hp hbad => ?_⟩
  have hoffer := offer_enters (stamp := b.now) hd hs hp hbad
  have hn : b.arrive b.now = (came, n) := rfl
  have htype : rType r1 = t := rType_retyped (r := r) ht
  have hlate : lateNow r1 n = past := by
    rw [lateNow, rDue_setLate]
    rfl
  have hmark : markLate r1 n = r2 := by
    rw [markLate, hlate, rLate_setLate, Bool.false_or]
  have hfuture : mustAwait r1 n = future := by
    rw [mustAwait, rDue_setLate, htype]
    rfl
  have hdirect : isDirect (rType r1) = isDirect t := by rw [htype]
  refine ⟨fun hf hroom => ?awaits, fun hf hfull => ?full, fun hf hdir hm => ?allocates, fun hf hdir hm => ?wakes,
    fun hf hdir hfree => ?joins, fun hf hdir hfree => ?empty⟩
  case awaits =>
    have h := enter_awaits hn (hfuture.trans hf) (by rwa [htype])
    rw [timetabled, hmark, show rType r2 = t from htype] at h
    exact hends (hoffer.trans h)
  case full => exact hends (hoffer.trans (enter_findsTimetableFull hn (hfuture.trans hf) (by rwa [htype])))
  case allocates =>
    have h := enter_allocates hn (hfuture.trans hf) (hdirect.trans hdir) hm
    rw [hmark, hlate] at h
    exact hends (hoffer.trans h)
  case wakes =>
    have h := enter_wakes hn (hfuture.trans hf) (hdirect.trans hdir) hm
    rw [hmark, hlate] at h
    exact hends (hoffer.trans h)
  case joins =>
    have h := enter_joinsRoll hn (hfuture.trans hf) (hdirect.trans hdir) hfree
    intro hdl f it rolls
    have hroll : rRoll r2 = rRoll r := rRoll_setLate.trans rRoll_setLate
    have hitem : drawnItem r2 came n = it := by
      rw [drawnItem, show rType r2 = t from htype, hroll, show rLate r2 = past from rLate_setLate]
    rw [hmark, hlate, rollJoined, hitem, hroll] at h
    exact hends (hoffer.trans h)
  case empty => exact hends (hoffer.trans (enter_findsPoolEmpty hn (hfuture.trans hf) (hdirect.trans hdir) hfree))

end Sys2Proof.Machine
end

section
/-! PROOFS. What runs in the event island: dispatch and handlers, the bell, and the producers that wait (05 R198, R201, R204 to
R206, R605; 10 R386, R388). -/

namespace Sys2Proof.Machine

section
variable {b : Block} {c : Nat} {it : Item}

/-! ### The event cores (R198, R201, R206) -/

theorem rollDispatch_gives {i : Nat} {rest : List Item} (hd : b.on dEVT = true)
    (hc : (List.range 8).find? (fun c => (nth none b.sched.cores c).isNone) = some c)
    (hi : (List.range 8).find? (fun i => !(nth [] b.sched.rolls i).isEmpty) = some i)
    (hl : nth [] b.sched.rolls i = it :: rest) :
    rollDispatch b = trace 1 c it.handle i { b with sched := { b.sched with
      rolls := b.sched.rolls.set i rest, cores := b.sched.cores.set c (some it) } } := by
  simp [rollDispatch, hc, hi, hd, hl]

section
variable (hrun : nth none b.sched.cores c = some it)
include hrun

/-- A core that is not stalled comes to its handler's end. -/
theorem handlerComplete_ends (hp : nth none b.sched.posts c = none) (post : Option EventRecord) :
    handlerComplete ⟨c, post⟩ b = postAndEnd c it post b := by
  simp only [handlerComplete, hrun, hp]

theorem handlerComplete_stalled (hp : (nth none b.sched.posts c).isSome = true) (post : Option EventRecord) :
    handlerComplete ⟨c, post⟩ b = b := by
  obtain ⟨r, hr⟩ := Option.isSome_iff_exists.mp hp
  simp only [handlerComplete, hrun, hr]

/-- The core is free, with no record left to post. -/
def freeCore (c : Nat) (b : Block) : Block :=
  { b with sched := { b.sched with cores := b.sched.cores.set c none, posts := b.sched.posts.set c none } }

theorem evtcoreHang_frees :
    evtcoreHang c b = noteFills (trace 11 c it.handle it.handler ((freeCore c b).raise evEVTCORE_HANG)) := by
  simp only [evtcoreHang, hrun, freeCore]

end

/-- The core is freed before its handler's effect takes place. -/
theorem endHandler_eq :
    endHandler c it b =
      noteFills (trace 2 c it.handle (freeCore c b).freshWord.1 (handlerEffect it (freeCore c b).freshWord.2)) := rfl

theorem postAndEnd_silent : postAndEnd c it none b = endHandler c it b := rfl

section
variable {r : EventRecord} {x : Block}

theorem postAndEnd_placed (h : offer r b.now b = (true, x)) : postAndEnd c it (some r) b = endHandler c it x := by
  simp only [postAndEnd, h]

theorem postAndEnd_stalls (h : offer r b.now b = (false, x)) :
    postAndEnd c it (some r) b = { x with sched := { x.sched with posts := x.sched.posts.set c (some r) } } := by
  simp only [postAndEnd, h]

end

/-! ### The bell (R204, R386, R388) -/

/-- The count comes to the bell's tick, and the bell counter starts again there. -/
def bellRung (b : Block) : Block :=
  let t := (b.tide.bellFrom + b.rd fBELL_CFG_PERIOD_M1 + 1) % tideMod
  let b1 := if b.hasCome t then b else b.advanceTo t
  { b1 with tide := { b1.tide with bellFrom := b1.now } }

theorem bellTick_rings (ht : b.tideRuns = true) :
    bellTick b =
      if !(bellRung b).on dEVT then bellRung b
      else if (bellRung b).tide.releasing then (bellRung b).raise evBELL_SLIP
      else releaseDue 8192 (bellRung b) := by
  unfold bellTick bellRung
  exact if_neg (by simp [ht])

/-- The bell's row by the machine x that the bell rings on: for an x written out, comparing the two sides would run the
releases. -/
theorem ends_bellRung {x : Block} (hx : bellRung b = x) (ht : b.tideRuns = true) :
    (x.on dEVT = false → Ends .bellTick b x) ∧
    (x.on dEVT = true → x.tide.releasing = true → Ends .bellTick b (x.raise evBELL_SLIP)) ∧
    (x.on dEVT = true → x.tide.releasing = false → Ends .bellTick b (releaseDue 8192 x)) := by
  have hring := bellTick_rings ht
  rw [hx] at hring
  refine ⟨fun hd => ends_of_eq (fun _ => rfl) (hring.trans ?_), fun hd hr => ends_of_eq (fun _ => rfl) (hring.trans ?_),
    fun hd hr => ends_of_eq (fun _ => rfl) (hring.trans ?_)⟩
  · rw [if_pos (by simp [hd])]
  · rw [if_neg (by simp [hd]), if_pos hr]
  · rw [if_neg (by simp [hd]), if_neg (by simp [hr])]

/-! ### The producers that wait (R605) -/

theorem producerAdmit_on (hd : b.on dEVT = true) :
    producerAdmit b = admitForwarded (forN 2 netFrameRelease (forN 5 admitSerial (forN 16 admitPost
      (forN 8 admitCorePost (resumeRelease b))))) :=
  if_neg (by simp [hd])

end

/-- Settles O40: a core's rows by whether it runs, stalls or hangs, the bell's by the machine that it rings on. -/
theorem eventIslandRuns : Obligations.EventIslandRuns := by
  unfold Obligations.EventIslandRuns
  intro b
  refine ⟨fun c i it rest hd hc hi hl => ends_of_eq (fun _ => rfl) (rollDispatch_gives hd hc hi hl), fun c it h8 hrun => ?core,
    fun ht => ?bell, fun hd => ends_of_eq (fun _ => rfl) (producerAdmit_on hd)⟩
  case core =>
    intro freed ended
    have hrow : ∀ {post x}, handlerComplete ⟨c, post⟩ b = x → Ends (.handlerComplete ⟨c, post⟩) b x :=
      fun h => ends_of_eqIf (fun _ => rfl) (decide_eq_true h8) h
    refine ⟨fun hp => ⟨?ends, fun r x h => ?placed, fun r x h => ?stalls⟩, fun hp r => hrow (handlerComplete_stalled hrun hp r),
      ends_of_eqIf (fun _ => rfl) (decide_eq_true h8) (evtcoreHang_frees hrun)⟩
    case ends => exact hrow (((handlerComplete_ends hrun hp none).trans postAndEnd_silent).trans endHandler_eq)
    case placed => exact hrow (((handlerComplete_ends hrun hp _).trans (postAndEnd_placed h)).trans endHandler_eq)
    case stalls => exact hrow ((handlerComplete_ends hrun hp _).trans (postAndEnd_stalls h))
  case bell => exact ends_bellRung rfl ht

end Sys2Proof.Machine
end

section
/-! PROOFS. Patch, class, rule and scheduler commands (05 R171, R210 to R215). -/

namespace Sys2Proof.Machine

section
variable {b : Block} {p : List Byte}

/-! ### What each command's checks let through (R210, R214, R215) -/

theorem mPatchWrite_meets (hn : leAt p 0 2 ≤ 511) (hend : leAt p 2 2 + (p.length - 4) ≤ 2048) : mPatchWrite.chk p b = none :=
  if_neg (by simp [hn, hend])

/-- A patch that nothing uses is loaded where validation finds no fault. -/
theorem mPatchLoad_meets (hn : leAt p 0 2 ≤ 511) (hu : patchInUse b (leAt p 0 2) = false)
    (hv : validatePatch (stagingOf b (leAt p 0 2)) = none) : mPatchLoad.chk p b = none := by
  dsimp only [mPatchLoad]
  rw [if_neg (by omega), hu, if_neg (by decide), hv]

theorem mClassEnable_meets (hk : leAt p 0 1 ≤ 63) (he : leAt p 1 1 ≤ 1) : mClassEnable.chk p b = none :=
  if_neg (by simp [hk, he])

theorem mSetSched_meets (hl : 64 ≤ leAt p 0 2) (hh : leAt p 2 2 ≤ 4095) (hc : 1024 ≤ leAt p 4 4) : mSetSched.chk p b = none :=
  if_neg (by simp [hl, hh, hc])

/-! ### CLASS_ENABLE (R170, R171) -/

section
variable {tok : Tok} {stamp : Nat}

theorem mClassEnable_asks (h : leAt p 1 1 = 1) :
    mClassEnable.eff tok stamp p b = (.later, startCheck (rCLASS_CFG + 0x20 * leAt p 0 1) (some tok) stamp [] b) :=
  if_pos h

theorem mClassEnable_closes (h : leAt p 1 1 = 0) :
    mClassEnable.eff tok stamp p b = (ok [], clearEnable (rCLASS_CFG + 0x20 * leAt p 0 1) b) :=
  if_neg (by omega)

end
end

/-- Settles O42: each command by its checks and by what its effect answers. -/
theorem classAndSchedulerCommands : Obligations.ClassAndSchedulerCommands := by
  unfold Obligations.ClassAndSchedulerCommands
  intro b c
  refine ⟨?patchWrite, ?patchLoad, ?classSet, ?classEnable, ?ruleWrite, ?setReserve, ?patchSwap, ?setSched, ?setTrace, ?stat⟩
  case patchWrite => exact fun hr hn hend => replies_of_meets (fun _ => rfl) hr (mPatchWrite_meets hn hend) rfl
  case patchLoad => exact fun hr hn hu hv => replies_of_meets (fun _ => rfl) hr (mPatchLoad_meets hn hu hv) rfl
  case classEnable =>
    exact fun hr hk => ⟨fun h1 => replies_of_meets (fun _ => rfl) hr (mClassEnable_meets hk h1.le) (mClassEnable_asks h1),
      fun h0 => replies_of_meets (fun _ => rfl) hr (mClassEnable_meets hk (by omega)) (mClassEnable_closes h0)⟩
  case setSched => exact fun hr hl hh hc => replies_of_meets (fun _ => rfl) hr (mSetSched_meets hl hh hc) rfl
  case stat => exact fun hr => replies_of_meets (m := mGetSchedStat) (fun _ => rfl) hr rfl rfl
  case classSet | ruleWrite | setReserve | patchSwap | setTrace =>
    exact fun hr hc => replies_of_meets (fun _ => rfl) hr hc rfl

end Sys2Proof.Machine
end

section
/-! PROOFS. The table builder, its commands, and the return of banks (06 R216 to R236). -/

namespace Sys2Proof.Machine

/-! ### What repeated work leaves -/

section
variable {σ α β : Type} (q : σ → β)

/-- What each step of work over a list leaves as it was, the whole of it leaves. -/
theorem foldl_keeps {f : σ → α → σ} (h : ∀ s x, q (f s x) = q s) (l : List α) (s : σ) : q (l.foldl f s) = q s :=
  l.foldlRecOn f (motive := fun s' => q s' = q s) rfl (fun s' hs x _ => (h s' x).trans hs)

theorem forN_keeps {f : Nat → σ → σ} (h : ∀ i s, q (f i s) = q s) (n : Nat) (s : σ) : q (forN n f s) = q s :=
  foldl_keeps q (fun s i => h i s) _ s

theorem forL_keeps {f : α → σ → σ} (h : ∀ x s, q (f x s) = q s) (l : List α) (s : σ) : q (forL l f s) = q s :=
  foldl_keeps q (fun s x => h x s) l s

end

section
variable {b : Block} {p : List Byte} {k : Build}

/-! ### What each command's checks let through (R235, R236) -/

theorem mTableFree_meets (ht : leAt p 0 1 ≤ 127) (hf : leAt p 1 1 ≤ 1)
    (hr : leAt p 1 1 = 0 → classReads b oscModeTable (leAt p 0 1) = false) : mTableFree.chk p b = none := by
  have hfields : ¬ (decide (127 < leAt p 0 1) || decide (1 < leAt p 1 1)) = true := by simp [ht, hf]
  have hreads : ¬ (leAt p 1 1 = 0 ∧ classReads b oscModeTable (leAt p 0 1) = true) := fun ⟨h0, h⟩ => by simp [hr h0] at h
  dsimp only [mTableFree]
  rw [if_neg hfields, if_neg hreads]

theorem mTableStatus_meets (ht : leAt p 0 1 ≤ 127) : mTableStatus.chk p b = none :=
  if_neg (by omega)

/-! ### A build begins (R222, R226) -/

section
variable {rest : List Build} (hn : b.store.running = none) (hq : b.store.builds = k :: rest) (hd : b.on dTBLD = true)
include hn hq hd

/-- The next build is refused where the pool holds fewer banks than it needs. -/
theorem buildStart_refuses (hp : (freePool b).length < b.rd (fTBL_DESC_W1_NBANKS.at k.table)) :
    buildStart b =
      (noteBuilder { b with store := { b.store with builds := rest } }).finish k.tok k.stamp false (refusedWith .regionNotOwned) := by
  simp only [buildStart, hn, hq, hd, hp, Bool.not_true, Bool.false_eq_true, if_false, if_true]

/-- The next build takes the lowest free banks that it needs. -/
theorem buildStart_takes (hp : b.rd (fTBL_DESC_W1_NBANKS.at k.table) ≤ (freePool b).length) :
    buildStart b = checkBuild (noteBuilder { b with store := { b.store with
      builds := rest
      running := some { k with banks := (freePool b).take (b.rd (fTBL_DESC_W1_NBANKS.at k.table)) } } }) := by
  simp only [buildStart, hn, hq, hd, hp.not_gt, Bool.not_true, Bool.false_eq_true, if_false]

end

/-! ### The source of a build (R223, R227) -/

theorem buildSource_source : (buildSource k b).1 =
    { frames := b.rd (fTBL_DESC_W0_FRAMES.at k.table), wide := b.flag (fTBL_DESC_W0_WIDTH.at k.table)
      normalise := bit k.flags 1, dcRemove := bit k.flags 2
      data := sourceData b k (b.rd (fTBL_DESC_W0_FRAMES.at k.table)) (b.flag (fTBL_DESC_W0_WIDTH.at k.table))
      bad := (sourceErrors k (sourceLen b k.table) b).1, seed := (sourceErrors k (sourceLen b k.table) b).2.freshWord.1 } := rfl

theorem buildSource_block : (buildSource k b).2 = (sourceErrors k (sourceLen b k.table) b).2.freshWord.2 := rfl

/-- The source of a build in LPDDR5 shows no error, a corrected one, or an uncorrectable one that spoils a word of it. -/
theorem sourceErrors_lpddr (hs : k.space = 0) (len : Nat) :
    ((sourceErrors k len b).1 = [] ∧ (sourceErrors k len b).2.ev = b.ev) ∨
    ((sourceErrors k len b).1 = [] ∧ (sourceErrors k len b).2.ev.pend.getLsbD evLPDDR_ECC_CORR = true) ∨
    ((sourceErrors k len b).1.length = 1 ∧ (sourceErrors k len b).2.ev.pend.getLsbD evLPDDR_ECC_UNCORR = true) := by
  simp only [sourceErrors, if_pos hs]
  split
  next => exact .inl ⟨rfl, rfl⟩
  next => exact .inr (.inl ⟨rfl, Block.raise_pending _ (by decide)⟩)
  next => exact .inr (.inr ⟨rfl, Block.raise_pending _ (by decide)⟩)

/-! ### Banks that retire (R232) -/

section
variable {t n : Nat} {banks : List Nat}

theorem tableX_setTableX_same {x : TableX} : tableX (b.setTableX t x) t = x := smGet_set_same

theorem setDescBanks_store (base : Nat) : (b.setDescBanks base t banks).store = b.store :=
  forN_keeps (·.store) (fun _ _ => Block.setWord_store _ _ _) 2 b

theorem showLists_store : (showLists t b).store = b.store := by
  unfold showLists
  dsimp only
  split <;> exact setDescBanks_store _

theorem tableX_showLists (u : Nat) : tableX (showLists t b) u = tableX b u := by
  simp only [tableX, showLists_store]

theorem tableX_wr (f : Fld) (v u : Nat) : tableX (b.wr f v) u = tableX b u := rfl

theorem retiringBanksReturn_runs (h : (tableX b t).retire = some (banks, n)) :
    retiringBanksReturn t b = forN n (fun _ => sampleBoundary) b := by
  simp only [retiringBanksReturn, h]

/-- A boundary that is not the last of those that retiring banks wait for counts one off. -/
theorem returnBanks_counts (h : (tableX b t).retire = some (banks, n)) (hn : 1 < n) :
    returnBanks t b = (let y := b.setTableX t { tableX b t with retire := some (banks, n - 1) }
      match (tableX y t).freed with
      | some (l, k) =>
        if k ≤ 1 then (forL l (giveBank rqTBLD) y).setTableX t { tableX y t with freed := none }
        else y.setTableX t { tableX y t with freed := some (l, k - 1) }
      | none => y) := by
  cases hf : (tableX b t).freed <;>
    simp only [returnBanks, h, if_neg hn.not_ge, tableX_setTableX_same, hf]

/-- At the last of those boundaries the banks go back to the builder's pool. -/
theorem returnBanks_returns (h : (tableX b t).retire = some (banks, n)) (hn : n ≤ 1) (hf : (tableX b t).freed = none) :
    returnBanks t b = showLists t
      (((forL banks (giveBank rqTBLD) b).setTableX t { tableX b t with retire := none }).wr (fTBL_DESC_W0_MORPHING.at t) 0) := by
  unfold returnBanks
  dsimp only
  rw [h]
  dsimp only
  rw [if_pos hn, tableX_showLists, tableX_wr, tableX_setTableX_same, hf]

end

end

/-- Settles O43: each command by its checks and what its effect answers, a build by its start, its source and its end, the return of
banks by one boundary of a table. -/
theorem tableCommands : Obligations.TableCommands := by
  unfold Obligations.TableCommands
  intro b
  refine ⟨fun c => ⟨?define, ?build, ?commit, ?free, ?status⟩, fun k rest hn hq hd => ⟨?refused, ?begun⟩,
    fun k hk => ⟨?complete, ?source⟩, fun t n banks ht h => ⟨?returned, ?counts, ?last⟩⟩
  case define | build | commit => exact fun hr hc => replies_of_meets (fun _ => rfl) hr hc rfl
  case free => exact fun hr ht hf hu => replies_of_meets (fun _ => rfl) hr (mTableFree_meets ht hf hu) rfl
  case status => exact fun hr ht => replies_of_meets (fun _ => rfl) hr (mTableStatus_meets ht) rfl
  case refused => exact fun hp => ends_of_eq (fun _ => rfl) (buildStart_refuses hn hq hd hp)
  case begun => exact fun hp => ends_of_eq (fun _ => rfl) (buildStart_takes hn hq hd hp)
  case complete =>
    refine ends_of_eq (fun _ => rfl) ?_
    simp only [buildComplete, hk]
  case source =>
    refine ⟨rfl, rfl, rfl, rfl, rfl, fun hs => ?_⟩
    rw [buildSource_source, buildSource_block, Block.freshWord_ev]
    exact sourceErrors_lpddr hs _
  case returned =>
    exact ends_of_eqIf (fun _ => rfl) (decide_eq_true ht) (retiringBanksReturn_runs h)
  case counts => exact returnBanks_counts h
  case last => exact returnBanks_returns h

end Sys2Proof.Machine
end

section
/-! PROOFS. Library, sample maps and streams (06 R237 to R252, R263, R264). -/

namespace Sys2Proof.Machine

/-! ### What tables, maps and streams keep over a slate access and over a reply -/

section
variable {b : Block} {off : Nat}

theorem raiseIf_store (c : Bool) (n : Nat) : (b.raiseIf c n).store = b.store := by
  unfold Block.raiseIf
  split
  · exact Block.raise_store _ _
  · rfl

theorem countUp_store (f : Fld) (n : Nat) : (b.countUp f n).store = b.store := by
  unfold Block.countUp
  dsimp only
  rw [raiseIf_store, Block.wr_store]

theorem ownerFault_store (req : Nat) : (ownerFault req off b).store = b.store := by
  unfold ownerFault
  dsimp only
  rw [Block.raise_store]
  split
  · rfl
  · rw [Block.wr_store, Block.wr_store, Block.wr_store]

theorem borrowStall_store : (borrowStall b).store = b.store := by
  rw [borrowStall, Block.raise_store, countUp_store]

theorem slateEcc_store (uncorr : Bool) : (slateEcc uncorr off b).store = b.store := by
  have hnoted : (if b.flag fSLATE_ECC_ADDR_VALID then b
      else ((b.wr fSLATE_ECC_ADDR_VALID 1).wrB fSLATE_ECC_ADDR_UNCORR uncorr).wr fSLATE_ECC_ADDR_OFFSET (off / 8 * 8)).store =
        b.store := by
    split
    · rfl
    · rw [Block.wr_store, Block.wrB_store, Block.wr_store]
  unfold slateEcc
  dsimp only
  split <;> rw [Block.raise_store, countUp_store, hnoted]

theorem checkMerge_store : (checkMerge off b).store = b.store := by
  unfold checkMerge
  split
  · rfl
  · exact slateEcc_store _
  · exact slateEcc_store _

theorem logJournal_store (a v : Nat) : (logJournal a v b).store = b.store := by
  unfold logJournal
  dsimp only
  split <;> rfl

theorem setSlate_store (bs : List Byte) : (b.setSlate off bs).store = b.store := by
  have hrewritten (l : List (Nat × Nat)) : (forL l (fun e b => rewriteWord b e.1) b).store = b.store :=
    forL_keeps (f := fun (e : Nat × Nat) b => rewriteWord b e.1) Block.store (fun _ _ => rfl) l b
  unfold Block.setSlate
  dsimp only
  split
  · refine (forN_keeps Block.store (fun i s => ?_) _ _).trans (hrewritten _)
    split
    · exact logJournal_store _ _
    · rfl
  · exact hrewritten _

theorem portAStore_store (bs : List Byte) : (portAStore off bs b).store = b.store := setSlate_store bs

theorem portAEnter_store (req : Nat) : (portAEnter req off b).2.store = b.store := by
  unfold portAEnter
  split
  · dsimp only
    split
    · exact borrowStall_store
    · rfl
  · exact ownerFault_store req

theorem slateStore_store (req : Nat) (bs : List Byte) : (slateStore req off bs b).store = b.store := by
  have henter : (portAEnter req off b).2.store = b.store := portAEnter_store req
  unfold slateStore
  dsimp only
  split
  · rw [portAStore_store]
    split
    · rw [checkMerge_store, henter]
    · exact henter
  · exact henter

theorem noteOverflow_store : b.noteOverflow.store = b.store := by
  unfold Block.noteOverflow
  split
  · split
    · rfl
    · exact Block.raise_store _ _
  · rfl

theorem deliver_store (r : Reply) : (b.deliver r).store = b.store := by
  unfold Block.deliver
  split
  · rfl
  · exact noteOverflow_store

theorem finish_store (tok : Tok) (stamp : Nat) (late : Bool) (e : End) : (b.finish tok stamp late e).store = b.store := by
  unfold Block.finish
  split
  · rfl
  · split
    · rfl
    · exact deliver_store _

end

section
variable {b : Block} {p : List Byte} {tok : Tok} {stamp : Nat}

/-! ### LIBRARY_LOAD (R238) -/

theorem hashStale_store : (hashStale b).store = b.store := Block.wr_store _ _ _

/-- A load waits behind those that were asked for before it. -/
theorem mLibraryLoad_waits :
    mLibraryLoad.eff tok stamp p b =
      (.later, { hashStale b with store := { (hashStale b).store with
        loading := (hashStale b).store.loading ++ [(tok, stamp, leAt p 0 4, leAt p 4 4, leAt p 8 4)] } }.wr
          fSTRM_LIB_STAT_LOAD_BUSY 1) := by
  rw [hashStale_store, mLibraryLoad]

/-! ### STREAM_ENABLE and SAMPLE_MAP_FREE (R237, R247, R248) -/

/-- A stop needs LPDDR5 trained; so does an enable, unless it goes through roll call, which looks at that itself. -/
theorem mStreamEnable_meets (he : leAt p 0 1 ≤ 1) (hv : leAt p 1 1 ≤ 1)
    (ht : leAt p 0 1 = 1 ∧ b.flag fSTRM_CTRL_ENABLE = false ∨ trained b = true) : mStreamEnable.chk p b = none := by
  have hfields : ¬ (decide (1 < leAt p 0 1) || decide (1 < leAt p 1 1)) = true := by simp [he, hv]
  have htrained : ¬ ((leAt p 0 1 = 0 ∨ b.flag fSTRM_CTRL_ENABLE = true) ∧ (!trained b) = true) := by
    rcases ht with ⟨h1, hoff⟩ | ht
    · simp [h1, hoff]
    · simp [ht]
  dsimp only [mStreamEnable]
  rw [if_neg hfields, if_neg htrained]

theorem mStreamEnable_stops (h : leAt p 0 1 = 0) :
    mStreamEnable.eff tok stamp p b = (ok [], streamsOff (clearEnable rSTRM_CTRL (b.wr fSTRM_CTRL_END_EVT (leAt p 1 1)))) :=
  if_neg (by omega)

theorem mStreamEnable_asks (h : leAt p 0 1 = 1) :
    mStreamEnable.eff tok stamp p b =
      (.later, startCheck rSTRM_CTRL (some tok) stamp [(rSTRM_CTRL, b.word rSTRM_CTRL)] (b.wr fSTRM_CTRL_END_EVT (leAt p 1 1))) :=
  if_pos h

theorem mSampleMapFree_meets (ht : trained b = true) (hm : leAt p 0 2 ≤ 255)
    (hr : classReads b oscModeSample (leAt p 0 2) = false) : mSampleMapFree.chk p b = none := by
  dsimp only [mSampleMapFree]
  rw [ht, hr, if_neg (by decide), if_neg (by omega), if_neg (by decide)]

/-! ### A map is sealed (R246) -/

section
variable {m : Nat} {rest : List (Tok × Nat × Nat)} (hq : b.store.sealing = (tok, stamp, m) :: rest)
include hq

/-- A map without room in the head banks is not sealed. -/
theorem sealCopyDone_fails (hp : placeMap { b with store := { b.store with sealing := rest } } m = none) :
    sealCopyDone b = { b with store := { b.store with sealing := rest } }.finish tok stamp false (failedWith .headNotResident []) := by
  simp only [sealCopyDone, hq, hp]

/-- A map sealed is RESIDENT with its heads where they were placed, and its seal no longer waits. -/
theorem sealCopyDone_store {heads : List Nat} (hp : placeMap { b with store := { b.store with sealing := rest } } m = some heads) :
    (sealCopyDone b).store = { b.store with
      sealing := rest
      maps := smSet (fun _ => SampleMap.reset) b.store.maps m { sampleMap b m with state := 3, heads := heads } } := by
  simp only [sealCopyDone, hq, hp, finish_store, Block.setMap]
  rw [foldl_keeps Block.store (fun x z => ?copied)]
  · rfl
  case copied =>
    split
    · split
      · exact slateStore_store _ _
      · rw [slateStore_store, slateStore_store]
    · rfl

end

/-! ### A chunk is asked for (R250, R251) -/

/-- A slot is served before another: its deadline is smaller, or as small and its number no higher. -/
def Slot.Before (s t : Slot) : Prop := s.deadline < t.deadline ∨ (s.deadline = t.deadline ∧ s.id ≤ t.id)

theorem Slot.Before.refl (s : Slot) : s.Before s := .inr ⟨rfl, le_rfl⟩

theorem Slot.Before.trans {s t u : Slot} (hst : s.Before t) (htu : t.Before u) : s.Before u := by
  unfold Slot.Before at *
  omega

/-- The slot of a pool that STREAM_FETCH_ISSUE serves. -/
def soonest (pool : List Slot) : Option Slot :=
  pool.foldl (fun m s =>
    match m with
    | none => some s
    | some t => if s.deadline < t.deadline ∨ (s.deadline = t.deadline ∧ s.id < t.id) then some s else m) none

/-- A slot of the pool that is served before every other; none of an empty pool only. -/
def IsSoonest (pool : List Slot) : Option Slot → Prop
  | none => pool = []
  | some s => s ∈ pool ∧ ∀ t ∈ pool, s.Before t

/-- With one more slot in the pool the soonest is the slot that was, or the new one, whichever is before the other. -/
theorem IsSoonest.concat {pool : List Slot} {s t x : Slot} (h : IsSoonest pool (some t)) (hs : s = t ∨ s = x)
    (ht : s.Before t) (hx : s.Before x) : IsSoonest (pool ++ [x]) (some s) := by
  obtain ⟨hmem, hall⟩ := h
  refine ⟨by rcases hs with rfl | rfl <;> simp [hmem], fun u hu => ?_⟩
  rcases List.mem_append.mp hu with hu | hu
  · exact ht.trans (hall u hu)
  · rwa [List.mem_singleton.mp hu]

theorem soonest_isSoonest (pool : List Slot) : IsSoonest pool (soonest pool) := by
  unfold soonest
  refine foldl_concat_induction (P := IsSoonest) (init := none) rfl (fun l x m hm => ?_) pool
  cases m with
  | none =>
    obtain rfl : l = [] := hm
    exact ⟨by simp, by simp [Slot.Before.refl]⟩
  | some t =>
    dsimp only
    split
    next hlt => exact hm.concat (.inr rfl) (hlt.imp_right (fun h => ⟨h.1, h.2.le⟩)) (.refl x)
    next hge => exact hm.concat (.inl rfl) (.refl t) (by unfold Slot.Before; omega)

theorem exists_soonest {pool : List Slot} (h : pool ≠ []) : ∃ s, soonest pool = some s ∧ IsSoonest pool (some s) := by
  have hbest := soonest_isSoonest pool
  cases hs : soonest pool with
  | none =>
    rw [hs] at hbest
    exact absurd hbest h
  | some s => exact ⟨s, rfl, hs ▸ hbest⟩

/-- A chunk is asked for a slot, where there is one. -/
def askChunk (b : Block) : Option Slot → Block
  | none => b
  | some s =>
    { b with store := { b.store with
      requests := b.store.requests ++ [s.id]
      slots := b.store.slots.map (fun t => if t.id = s.id then { t with asked := t.asked + 1 } else t) } }

theorem streamFetchIssue_asks (he : b.flag fSTRM_CTRL_ENABLE = true) (ht : trained b = true) (hl : b.store.requests.length < 32) :
    streamFetchIssue b = askChunk b (soonest (b.store.slots.filter (eligible b))) :=
  if_neg (by simp [he, ht, hl])

/-! ### A chunk arrives (R250, R579) -/

theorem raise_rings (n : Nat) : (b.raise n).rings = b.rings := by
  simp only [Block.rings, Block.raise_flag, Block.raise_rd, Block.raise_store]

theorem raise_ringLen (n : Nat) : ringLen (b.raise n) = ringLen b := by
  rw [ringLen, raise_rings, ringLen]

theorem raise_ringBase (n id : Nat) : ringBase (b.raise n) id = ringBase b id := by
  rw [ringBase, raise_rings, raise_ringLen, ringBase]

end

/-- Settles O44: each command by its checks and its effect, loads and seals by the first that waits, a fetch by the soonest of the
eligible slots, a chunk by the slot that asked first. -/
theorem libraryMapsAndStreams : Obligations.LibraryMapsAndStreams := by
  unfold Obligations.LibraryMapsAndStreams
  intro b
  refine ⟨fun c => ⟨?librarySet, ?libraryLoad, ?config, fun hr hv => ⟨?stops, ?asks⟩, ?mapBegun, ?zones, ?sealAsked, ?free⟩,
    fun tok stamp flash off len rest hq => ⟨?loaded, fun e => ?loadFails⟩, fun tok stamp m rest hq hp => ?noRoom,
    fun tok stamp m rest heads hq hp => ?sealed, fun he ht hl => ⟨fun hnone => ?idle, fun hsome => ?fetch⟩,
    fun id rest s hq hs => ⟨?clean, ?single⟩⟩
  case libraryLoad => exact fun hr hc => replies_of_meets (fun _ => rfl) hr hc mLibraryLoad_waits
  case librarySet | config | mapBegun | zones | sealAsked => exact fun hr hc => replies_of_meets (fun _ => rfl) hr hc rfl
  case stops =>
    exact fun h0 ht => replies_of_meets (fun _ => rfl) hr (mStreamEnable_meets (by omega) hv (.inr ht)) (mStreamEnable_stops h0)
  case asks =>
    exact fun h1 ht => replies_of_meets (fun _ => rfl) hr (mStreamEnable_meets h1.le hv (ht.imp_left (⟨h1, ·⟩)))
      (mStreamEnable_asks h1)
  case free => exact fun hr ht hm hu => replies_of_meets (fun _ => rfl) hr (mSampleMapFree_meets ht hm hu) rfl
  case loaded =>
    refine ends_of_eq (fun _ => rfl) ?_
    simp only [libraryLoadDone, hq]
  case loadFails =>
    refine ends_of_eq (fun _ => rfl) ?_
    simp only [libraryLoadDone, hq]
  case noRoom => exact ends_of_eq (fun _ => rfl) (sealCopyDone_fails hq hp)
  case sealed =>
    have hstore := sealCopyDone_store hq hp
    refine ⟨sealCopyDone b, ends_done (fun _ => rfl), by rw [hstore], ?_⟩
    rw [sampleMap, hstore]
    dsimp only
    exact smGet_set_same
  case idle =>
    refine ends_of_eq (fun _ => rfl) ?_
    rw [streamFetchIssue_asks he ht hl, hnone]
    rfl
  case fetch =>
    obtain ⟨s, hs, hmem, hall⟩ := exists_soonest hsome
    obtain ⟨hslot, helig⟩ := List.mem_filter.mp hmem
    refine ⟨s, hslot, helig, fun t ht hte => hall t (List.mem_filter.mpr ⟨ht, hte⟩), ends_of_eq (fun _ => rfl) ?_⟩
    rw [streamFetchIssue_asks he ht hl, hs]
    rfl
  case clean =>
    refine ends_of_eq (fun _ => rfl) ?_
    simp only [streamChunkArrive, hq, hs]
    rfl
  case single =>
    refine ends_of_eq (fun _ => rfl) ?_
    simp only [streamChunkArrive, hq, hs, raise_ringBase, raise_ringLen]
    rfl

end Sys2Proof.Machine
end

section
/-! PROOFS. Counters that stick (07 R288; 10 R390; 14 R489; 17 R580). -/

namespace Sys2Proof.Machine

section
variable {b : Block} {f : Fld} {n : Nat}

/-! ### An event raised where a condition holds -/

@[simp] theorem raiseIf_word (c : Bool) (k a : Nat) : (b.raiseIf c k).word a = b.word a := by
  unfold Block.raiseIf
  split
  · exact Block.raise_word _ _ _
  · rfl

@[simp] theorem raiseIf_rd (c : Bool) (k : Nat) (g : Fld) : (b.raiseIf c k).rd g = b.rd g := by
  simp only [Block.rd, raiseIf_word]

/-! ### A counter advances -/

/-- A counter that advances leaves every other register as it was. -/
theorem countUp_word_ne {a : Nat} (h : a ≠ f.addr) : (b.countUp f n).word a = b.word a :=
  (raiseIf_word _ _ _).trans (Block.wr_word_ne b _ h)

/-- A field that fills its register counts up to 2^32 - 1 and no further. -/
theorem countUp_rd_same (hlo : f.lo = 0) (hhi : f.hi = 31) : (b.countUp f n).rd f = min (b.rd f + n) (2 ^ 32 - 1) := by
  have hmin : min (b.rd f + n) (2 ^ 32 - 1) < 2 ^ 32 := by omega
  calc (b.countUp f n).rd f
      = (b.wr f (min (b.rd f + n) (2 ^ 32 - 1))).rd f := raiseIf_rd ..
    _ = min (b.rd f + n) (2 ^ 32 - 1) % 2 ^ (f.hi + 1 - f.lo) := b.wr_rd_same _ (by omega) (by omega)
    _ = min (b.rd f + n) (2 ^ 32 - 1) := by rw [hlo, hhi]; exact Nat.mod_eq_of_lt hmin

/-- HISTO_SAT is raised by the advance that brings a counter to 2^32 - 1. -/
theorem countUp_raises_histoSat (hlt : b.rd f < 2 ^ 32 - 1) (hge : 2 ^ 32 - 1 ≤ b.rd f + n) :
    (b.countUp f n).ev.pend.getLsbD evHISTO_SAT = true := by
  simp only [Block.countUp, Block.raiseIf, hlt, min_eq_right hge, decide_true, Bool.and_self, if_true]
  exact Block.raise_pending _ (by decide)

/-- A counter that stands at 2^32 - 1 raises nothing. -/
theorem countUp_ev_of_full (h : b.rd f = 2 ^ 32 - 1) : (b.countUp f n).ev = b.ev := by
  simp only [Block.countUp, Block.raiseIf, h, lt_irrefl, decide_false, Bool.false_and, Bool.false_eq_true, if_false, Block.wr_ev]

end

/-- Settles O58: each of the four counters fills its register, so it counts as `countUp` does for such a field. -/
theorem errorCountersStick : Obligations.ErrorCountersStick := by
  unfold Obligations.ErrorCountersStick
  intro b f n hf
  have hwhole : ∀ g ∈ [fMIX_CLIP_COUNT_COUNT, fTIDE_POST_DROP_COUNT, fTDM_ERR_COUNT_COUNT, fSPDIF_ERR_COUNT_COUNT],
      g.lo = 0 ∧ g.hi = 31 := by decide
  obtain ⟨hlo, hhi⟩ := hwhole f hf
  exact ⟨countUp_rd_same hlo hhi, countUp_raises_histoSat, countUp_ev_of_full, fun _ ha => countUp_word_ne ha⟩

end Sys2Proof.Machine
end

section
/-! PROOFS. What a Gralon instruction computes and where it leads (08 R303 to R307, R314 to R318, R325, R327). -/

namespace Sys2Proof.Machine

section
variable {b : Block} {c : Nat}

/-! ### One core of the four changed -/

theorem core_modCore_same (h : c < b.bdsp.length) (f : Gralon → Gralon) : (b.modCore c f).core c = f (b.core c) := by
  simp [Block.core, Block.modCore, nth, h]

/-- A change of a core is what it makes of that core as it stands. -/
theorem modCore_congr {f g : Gralon → Gralon} (h : f (b.core c) = g (b.core c)) : b.modCore c f = b.modCore c g := by
  have hl : b.bdsp.modify c f = b.bdsp.modify c g := by
    rw [List.modify_eq_set_getElem?, List.modify_eq_set_getElem?]
    cases hc : b.bdsp[c]? with
    | none => rfl
    | some x =>
      have hcore : b.core c = x := by simp [Block.core, nth, hc]
      simp [← hcore, h]
  rw [Block.modCore, hl, Block.modCore]

theorem modCore_modCore (f g : Gralon → Gralon) : (b.modCore c f).modCore c g = b.modCore c (fun x => g (f x)) := by
  simp only [Block.modCore, List.modify_modify_eq]
  rfl

@[simp] theorem core_raise (n : Nat) : (b.raise n).core c = b.core c := by simp [Block.core]

@[simp] theorem modCore_length (f : Gralon → Gralon) : (b.modCore c f).bdsp.length = b.bdsp.length := List.length_modify ..

end

/-! ### Bits set (R292) -/

theorem bit_setBit_same (w i : Nat) (v : Bool) : bit (setBit w i v) i = v := by
  rw [bit_eq_bitsOf, setBit, bitsOf_putBits_same le_rfl]
  cases v <;> simp [b2n]

theorem bit_setBit_ne {i j : Nat} (h : j ≠ i) (w : Nat) (v : Bool) : bit (setBit w i v) j = bit w j := by
  rw [bit_eq_bitsOf, bit_eq_bitsOf, setBit]
  rcases Nat.lt_or_gt_of_ne h with h | h
  · rw [bitsOf_putBits_lt le_rfl h]
  · rw [bitsOf_putBits_gt le_rfl h]

/-! ### Addressing (R314, R317) -/

theorem unsx_of_lt {n : Nat} {x : Int} (h0 : 0 ≤ x) (h : x < 2 ^ n) : (unsx n x : Int) = x := by
  rw [unsx, Int.emod_eq_of_lt h0 (by exact_mod_cast h), Int.toNat_of_nonneg h0]

/-- An update by less than the buffer's length leaves it on one side at most, by less than that length. -/
theorem circular_inside {p m base len : Int} (h0 : 0 ≤ base) (htop : base + len ≤ 2 ^ 24) (hp : base ≤ p) (hp' : p < base + len)
    (hm : m.natAbs < len) : base ≤ circular p m base len ∧ (circular p m base len : Int) < base + len := by
  have hwrap : ∀ q : Int, base ≤ q → q < base + len → base ≤ unsx 24 q ∧ (unsx 24 q : Int) < base + len := fun q hq hq' => by
    rw [unsx_of_lt (by omega) (by omega)]
    exact ⟨hq, hq'⟩
  unfold circular
  refine hwrap _ ?_ ?_ <;> split_ifs <;> omega

theorem revBits_lt (w x : Nat) : revBits w x < 2 ^ w := by
  induction w generalizing x with
  | zero => simp [revBits]
  | succ w ih =>
    have hrest := ih (x / 2)
    rw [revBits, pow_succ]
    rcases Nat.mod_two_eq_zero_or_one x with h | h <;> rw [h] <;> omega

/-- The top bit of a number of w + 1 bits comes out lowest. -/
theorem revBits_top {w y : Nat} (t : Nat) (hy : y < 2 ^ w) (ht : t < 2) :
    revBits (w + 1) (t * 2 ^ w + y) = 2 * revBits w y + t := by
  induction w generalizing y with
  | zero =>
    obtain rfl : y = 0 := by omega
    simp [revBits]
    omega
  | succ w ih =>
    have htop : t * 2 ^ (w + 1) = 2 * (t * 2 ^ w) := by ring
    have hlow : (t * 2 ^ (w + 1) + y) % 2 = y % 2 := by omega
    have hhigh : (t * 2 ^ (w + 1) + y) / 2 = t * 2 ^ w + y / 2 := by omega
    rw [revBits, hlow, hhigh, ih (by omega), revBits]
    ring

theorem revBits_revBits {w x : Nat} (h : x < 2 ^ w) : revBits w (revBits w x) = x := by
  induction w generalizing x with
  | zero =>
    rw [pow_zero] at h
    simp [revBits]
    omega
  | succ w ih =>
    rw [pow_succ] at h
    calc revBits (w + 1) (revBits (w + 1) x)
        = 2 * revBits w (revBits w (x / 2)) + x % 2 := revBits_top _ (revBits_lt w _) (Nat.mod_lt _ (by decide))
      _ = 2 * (x / 2) + x % 2 := by rw [ih (by omega)]
      _ = x := by omega

/-! ### A MAC operation (R307, R327) -/

section
variable {b : Block} {c : Nat}

@[simp] theorem captureFault_bdsp (cause ptr pc : Nat) : (captureFault c cause ptr pc b).bdsp = b.bdsp := by
  unfold captureFault
  rw [apply_ite Block.bdsp, Block.wr_bdsp, Block.wr_bdsp, Block.wr_bdsp, Block.wr_bdsp, ite_self]

@[simp] theorem core_captureFault (cause ptr pc : Nat) : (captureFault c cause ptr pc b).core c = b.core c := by simp [Block.core]

/-- AOV set: SR and IPEND of the core change, and bit 0 of SR reads 1. -/
theorem setAov_core (h : c < b.bdsp.length) :
    ∃ sr ipend, (setAov c b).core c = { b.core c with sr := sr, ipend := ipend } ∧ bit sr 0 = true := by
  by_cases hset : bit (b.core c).sr 0 = true
  · exact ⟨(b.core c).sr, (b.core c).ipend, by rw [setAov, if_pos hset], hset⟩
  · rw [setAov, if_neg hset]
    simp only [aovRises, pend]
    split
    · refine ⟨setBit (b.core c).sr 0 true, setBit (b.core c).ipend 2 true, ?_, bit_setBit_same ..⟩
      rw [core_modCore_same (by simpa using h), core_captureFault, core_raise, core_modCore_same h]
    · refine ⟨setBit (b.core c).sr 0 true, (b.core c).ipend, ?_, bit_setBit_same ..⟩
      rw [core_captureFault, core_raise, core_modCore_same h]

/-- A MAC's sum modulo 2^80 joins the writes in flight; beside them it touches SR and IPEND at most, and those only where the sum
wraps. -/
theorem macOp_add_core (h : c < b.bdsp.length) (n s1 s2 : Nat) :
    let g := b.core c
    let exact := nth 0 g.mac n + sext 32 (nth 0 g.d s1) * sext 32 (nth 0 g.d s2)
    let v := sext 80 (unsx 80 exact)
    let g1 := (g.later 1 5 (.mac n) v).later 2 5 (.acc n) v
    (v = exact → (macOp c 1 n s1 s2 b).core c = g1) ∧
    (v ≠ exact → ∃ sr ipend, (macOp c 1 n s1 s2 b).core c = { g1 with sr := sr, ipend := ipend } ∧ bit sr 0 = true) := by
  intro g exact v g1
  let b1 := b.modCore c (fun g => (g.later 1 5 (.mac n) v).later 2 5 (.acc n) v)
  have hop : macOp c 1 n s1 s2 b = if v != exact then setAov c b1 else b1 := rfl
  have hg1 : b1.core c = g1 := core_modCore_same h _
  rw [hop]
  refine ⟨fun hv => ?_, fun hv => ?_⟩
  · rw [if_neg (by simpa using hv), hg1]
  · rw [if_pos (by simpa using hv), ← hg1]
    exact setAov_core (by simpa [b1] using h)

end

/-! ### Sequencing (R305, R318, R319) -/

section
variable {g : Gralon} {a k j t n : Nat}

theorem loopTest_inactive (h : ∀ i < k, g.active i = false) : loopTest a k g = (g, none) := by
  induction k with
  | zero => rfl
  | succ k ih => rw [loopTest, h k (by omega), Bool.false_and, if_neg (by decide), ih (fun i hi => h i (by omega))]

/-- The loop tests change LC and SR only. -/
theorem loopTest_keeps {α : Type} (p : Gralon → α)
    (h : ∀ (g : Gralon) (lc : List Nat) (sr : Nat), p { g with lc := lc, sr := sr } = p g) :
    p (loopTest a k g).1 = p g := by
  induction k generalizing g with
  | zero => rfl
  | succ k ih =>
    rw [loopTest]
    split_ifs
    · exact h g _ g.sr
    · rw [ih]
      exact h g _ _
    · exact ih

/-- The loop tests activate no level. -/
theorem active_of_loopTest (h : (loopTest a k g).1.active j = true) : g.active j = true := by
  induction k generalizing g with
  | zero => exact h
  | succ k ih =>
    rw [loopTest] at h
    split_ifs at h
    · exact h
    · have hcleared := ih h
      simp only [Gralon.active] at hcleared ⊢
      by_cases hj : 4 + j = 4 + k
      · rw [hj, bit_setBit_same] at hcleared
        exact absurd hcleared (by decide)
      · rwa [bit_setBit_ne hj] at hcleared
    · exact ih h

theorem advanceCore_active (h : (advanceCore g).active j = true) : g.active j = true := by
  have hsr : (advanceCore g).sr = (loopTest g.npc 3 g).1.sr := by
    simp only [advanceCore]
    split
    · split <;> rfl
    · rfl
  refine active_of_loopTest (a := g.npc) (k := 3) ?_
  rwa [Gralon.active, ← hsr]

/-- A branch whose delay slots are over leads to its target, one cycle later. -/
theorem advanceCore_lands (h : g.branch = some (t, 1)) :
    (advanceCore g).npc = t ∧ (advanceCore g).branch = none ∧ (advanceCore g).cyc = g.cyc + 1 := by
  have hbranch : (loopTest g.npc 3 g).1.branch = some (t, 1) := (loopTest_keeps (·.branch) (fun _ _ _ => rfl)).trans h
  have hcyc : (loopTest g.npc 3 g).1.cyc = g.cyc := loopTest_keeps (·.cyc) (fun _ _ _ => rfl)
  simp [advanceCore, hbranch, hcyc]

/-- Outside every loop, with instructions left before the target of a branch, the next address follows. -/
theorem advanceCore_delays (h : ∀ i < 3, g.active i = false) (hb : g.branch = some (t, n + 2)) :
    (advanceCore g).npc = g.npc + 1 ∧ (advanceCore g).branch = some (t, n + 1) ∧ (advanceCore g).sr = g.sr := by
  simp [advanceCore, loopTest_inactive h, hb]

/-- A branch taken outside every loop: two delay slots, and then the target. -/
theorem jumpTo_delaySlots (h : ∀ i < 3, g.active i = false) (t : Nat) :
    let slot1 := advanceCore (g.jumpTo t)
    let slot2 := advanceCore slot1
    slot1.npc = g.npc + 1 ∧ slot1.branch = some (t, 2) ∧ slot2.npc = g.npc + 2 ∧ slot2.branch = some (t, 1) := by
  intro slot1 slot2
  obtain ⟨hpc1, hb1, hsr1⟩ := advanceCore_delays (g := g.jumpTo t) (n := 1) h rfl
  have hactive : ∀ i < 3, slot1.active i = false := fun i hi => by
    rw [Gralon.active, hsr1]
    exact h i hi
  obtain ⟨hpc2, hb2, -⟩ := advanceCore_delays hactive hb1
  exact ⟨hpc1, hb1, hpc2.trans (by rw [hpc1]; rfl), hb2⟩

end

/-- Settles O49: addresses by cases of the update and by induction on the width, a MAC by whether its sum wraps, a branch by its two
delay slots. -/
theorem gralonArithmeticAndFlow : Obligations.GralonArithmeticAndFlow := by
  unfold Obligations.GralonArithmeticAndFlow
  refine ⟨fun _ _ _ _ h0 htop hp hp' hm => circular_inside h0 htop hp hp' hm,
    fun w x h => ⟨revBits_revBits h, revBits_lt w x⟩, fun b c n s1 s2 hc => ?mac, fun g t => ?jump, fun b c hc => ?rti⟩
  case mac =>
    intro g product exact v b'
    obtain ⟨hfits, hwraps⟩ := macOp_add_core hc n s1 s2
    by_cases hv : v = exact
    · have hcore : b'.core c = _ := hfits hv
      rw [hcore]
      exact ⟨rfl, rfl, rfl, rfl, fun hne => absurd hv hne, fun _ => rfl⟩
    · obtain ⟨sr, ipend, hcore, hset⟩ := hwraps hv
      have hcore : b'.core c = _ := hcore
      rw [hcore]
      exact ⟨rfl, rfl, rfl, rfl, fun _ => hset, fun heq => absurd heq hv⟩
  case jump =>
    refine ⟨rfl, rfl, fun ha0 ha1 ha2 => ?_⟩
    obtain ⟨hpc1, hb1, hpc2, hb2⟩ := jumpTo_delaySlots (g := g) (by intro i hi; interval_cases i <;> assumption) t
    obtain ⟨hpc, hb, -⟩ := advanceCore_lands hb2
    exact ⟨hpc1, by simp [hb1], hpc2, by simp [hb2], hpc, hb⟩
  case rti =>
    intro g'
    have hcore : g' = _ := core_modCore_same hc _
    rw [hcore]
    exact ⟨bit_setBit_same .., rfl⟩

end Sys2Proof.Machine
end

section
/-! PROOFS. A Gralon core issues one instruction (08 R303, R306, R318, R319, R331, R335). -/

namespace Sys2Proof.Machine

/-- The rows by which a core issues an instruction, by the kind of its word. -/
def issueRows (c : Nat) : List (GKind × Instr) :=
  [(.parallel, .parallelWord c), (.jump, .jump c), (.call, .call c), (.ret, .ret c), (.loop, .loop c), (.endloop, .endloop c),
   (.ldi, .ldi c), (.movr, .movr c), (.far, .far c), (.wait, .wait c), (.swi, .swi c), (.rti, .rti c), (.sha, .sha c)]

theorem exec_issueRows (c : Nat) : ∀ r ∈ issueRows c, ∀ s, exec r.2 s = doneIf (decide (c < 4)) (issue r.1 c) s := by
  simp only [issueRows, List.forall_mem_cons]
  exact ⟨fun _ => rfl, fun _ => rfl, fun _ => rfl, fun _ => rfl, fun _ => rfl, fun _ => rfl, fun _ => rfl, fun _ => rfl,
    fun _ => rfl, fun _ => rfl, fun _ => rfl, fun _ => rfl, fun _ => rfl, by simp⟩

section
variable {b : Block} {c w : Nat} {k : GKind} {i : Instr}

theorem ends_issue (hrow : (k, i) ∈ issueRows c) (hc : c < 4) : Ends i b (issue k c b) :=
  ends_doneIf (exec_issueRows c _ hrow) (decide_eq_true hc)

/-! ### What the issue of one instruction comes to -/

theorem issue_held (h : issuing b c = false) : issue k c b = b := if_pos (by simp [h])

theorem issue_pastEnd (h : issuing b c = true) (hf : fetchWord (landed c b) c = none) :
    issue k c b = illegalStop c (landed c b) := by
  simp [issue, h, hf]

section
variable (h : issuing b c = true) (hf : fetchWord (landed c b) c = some w)
include h hf

theorem issue_stalls (hs : farStall ((landed c b).core c) w = true) :
    issue k c b = b.modCore c (fun g => { g with stalled := true }) := by
  simp [issue, h, hf, hs]

theorem issue_illegal (hs : farStall ((landed c b).core c) w = false) (hl : wordLegal ((landed c b).core c) w = false) :
    issue k c b = illegalStop c (landed c b) := by
  simp [issue, h, hf, hs, hl]

theorem issue_legal (hs : farStall ((landed c b).core c) w = false) (hl : wordLegal ((landed c b).core c) w = true)
    (hk : kindOf w = some k) : issue k c b = (doKind k c w (landed c b)).modCore c advanceCore := by
  simp [issue, h, hf, hs, hl, hk]

end

/-! ### LOOP (R318) -/

/-- The count of a LOOP word: its own, or a data register clamped. -/
def loopCount (g : Gralon) (w : Nat) : Nat :=
  if bit w 53 then (clamp 0 65535 (sext 32 (nth 0 g.d (bitsOf w 52 49)))).toNat else bitsOf w 47 32

theorem doLoop_activates (h : loopCount (b.core c) w ≠ 0) :
    doLoop c w b = b.modCore c (fun g => { g with
      lsa := g.lsa.set (bitsOf w 55 54) ((g.npc + 1) % 2 ^ 14), lea := g.lea.set (bitsOf w 55 54) (bitsOf w 13 0)
      lc := g.lc.set (bitsOf w 55 54) (loopCount (b.core c) w), sr := setBit g.sr (4 + bitsOf w 55 54) true }) :=
  modCore_congr (if_neg h)

theorem doLoop_skips (h : loopCount (b.core c) w = 0) :
    doLoop c w b = b.modCore c (fun _ => { b.core c with branch := some (bitsOf w 13 0 + 1, 1), cyc := (b.core c).cyc + 2 }) :=
  modCore_congr (if_pos h)

end

/-- Settles O48: every row is the issue of its kind of word, which goes by what the core meets at its address. -/
theorem gralonIssuesOneInstruction : Obligations.GralonIssuesOneInstruction := by
  unfold Obligations.GralonIssuesOneInstruction
  intro b c k i hrow hc seen
  have hends : Ends i b (issue k c b) := ends_issue hrow hc
  refine ⟨fun h => ?held, fun h hf => ?pastEnd, fun w h hf => ⟨fun hs => ?stalls, fun hs hl => ?illegal, fun hs hl hk => ?legal⟩⟩
  case held => rwa [issue_held h] at hends
  case pastEnd => rwa [issue_pastEnd h hf] at hends
  case stalls => rwa [issue_stalls h hf hs] at hends
  case illegal => rwa [issue_illegal h hf hs hl] at hends
  case legal => rwa [issue_legal h hf hs hl hk] at hends

/-- Settles O50: the issue of a LOOP word by its count; where that is 0, what stands is a branch to END + 1 with no delay slot. -/
theorem loopActivatesItsLevel : Obligations.LoopActivatesItsLevel := by
  unfold Obligations.LoopActivatesItsLevel
  intro b c w hc seen g k last count idle h hf hs hl hk
  have hends : Ends (.loop c) b (issue .loop c b) := ends_issue (by simp [issueRows]) hc
  rw [issue_legal h hf hs hl hk] at hends
  have hdo : doKind .loop c w (landed c b) = doLoop c w seen := rfl
  rw [hdo] at hends
  refine ⟨fun hn => ?activates, fun hn => ?skips⟩
  case activates =>
    rw [doLoop_activates hn, modCore_modCore] at hends
    exact hends
  case skips =>
    rw [doLoop_skips hn, modCore_modCore] at hends
    obtain ⟨hpc, hbranch, hcyc⟩ := advanceCore_lands (g := idle) rfl
    exact ⟨hends, hpc, hbranch, hcyc, fun j _ hj => advanceCore_active (g := idle) hj⟩

end Sys2Proof.Machine
end

section
/-! PROOFS. Passes, far loads, taps and interrupts of the Gralon cores (08 R294 to R297, R300, R322 to R324, R331, R333). -/

namespace Sys2Proof.Machine

section
variable {b : Block} {c : Nat}

/-! ### The oldest far load is complete (R331, R332) -/

/-- A core with a far access outstanding is one of the cores. -/
theorem lt_length_of_far (h : (b.core c).far ≠ []) : c < b.bdsp.length := by
  by_contra hc
  refine h ?_
  have hcore : b.core c = Gralon.reset := by simp [Block.core, nth, List.getElem?_eq_none (Nat.le_of_not_lt hc)]
  rw [hcore]
  rfl

section
variable {stores rest : List FarLoad} {f : FarLoad}

/-- The oldest far load stands behind the stores before it. -/
theorem findIdx?_oldestLoad (hs : stores.all (fun x => x.reg.isNone) = true) {r : Nat} (hr : f.reg = some r) :
    (stores ++ f :: rest).findIdx? (fun x => x.reg.isSome) = some stores.length := by
  have hnone : stores.findIdx? (fun x => x.reg.isSome) = none := by
    simpa [List.findIdx?_eq_none_iff] using hs
  simp [List.findIdx?_append, hnone, List.findIdx?_cons, hr]

variable (hfar : (b.core c).far = stores ++ f :: rest) (hs : stores.all (fun x => x.reg.isNone) = true) {r : Nat}
  (hr : f.reg = some r)
include hfar hs hr

theorem farLoadComplete_waits (hb : (stores ++ [f]).any (fun x => x.borrowed && borrowed b x.bank) = true) :
    farLoadComplete c b = b := by
  have htake : (stores ++ f :: rest).take (stores.length + 1) = stores ++ [f] := List.take_length_add_append 1
  simp only [farLoadComplete, hfar, findIdx?_oldestLoad hs hr, htake, List.getLast?_concat, hb, if_true]

/-- The load's place and those of the stores before it are free, and its data joins the writes in flight. -/
theorem farLoadComplete_lands (hstall : (b.core c).stalled = false)
    (hb : (stores ++ [f]).any (fun x => x.borrowed && borrowed b x.bank) = false) :
    farLoadComplete c b =
      let due := max f.due (b.core c).cyc
      let b1 := b.modCore c (fun g => { g with far := rest, flight := insertWrite ⟨due, 4, .sel r, f.data⟩ g.flight })
      if (b.core c).waiting then landUpTo c due b1 else b1 := by
  have htake : (stores ++ f :: rest).take (stores.length + 1) = stores ++ [f] := List.take_length_add_append 1
  have hdrop : (stores ++ f :: rest).drop (stores.length + 1) = rest := List.drop_length_add_append 1
  have hc : c < b.bdsp.length := lt_length_of_far (by simp [hfar])
  simp only [farLoadComplete, hfar, findIdx?_oldestLoad hs hr, htake, hdrop, List.getLast?_concat, hb, hstall, hr,
    Bool.false_eq_true, if_false, Nat.add_zero, core_modCore_same hc, modCore_modCore]
  exact congrArg (fun x => if (b.core c).waiting then landUpTo c (max f.due (b.core c).cyc) x else x)
    (modCore_congr (by simp only [hfar, hdrop, hstall]))

end

/-! ### The host requests an interrupt (R322, R336, R400) -/

theorem bdspIrq_address : ∀ c < 4, let a := rBDSP_IRQ + 0x1000 * c
    (0x10000 ≤ a ∧ a < 0xF0000 ∧ a % 4 = 0) ∧ (isMirrored a = true ∧ isEnable a = false) ∧
    blockOf a = 0xC ∧ coreOf a = c ∧ a % 0x1000 = 0x20 := by
  decide

/-- A word written to BDSP_IRQ reaches the core. -/
theorem storeWord_bdspIrq (hc : c < 4) (v : Nat) : storeWord (rBDSP_IRQ + 0x1000 * c) v b = writeBdspIrq c v b := by
  obtain ⟨-, -, hblock, hcore, hoff⟩ := bdspIrq_address c hc
  simp [storeWord, writeBdsp, hblock, hcore, hoff]

theorem writeBdspIrq_pends {v : Nat} (hv : v % 2 = 1) (hd : b.on dBDSP = true) :
    writeBdspIrq c v b = b.modCore c (fun g => { g with ipend := setBit g.ipend 0 true }) := by
  simp [writeBdspIrq, hv, hd, pend]

theorem writeBdspIrq_owes {v : Nat} (hv : v % 2 = 1) (hd : b.on dBDSP = false) :
    writeBdspIrq c v b = b.modCore c (fun g => { g with irqOwed := true }) := by
  simp [writeBdspIrq, hv, hd]

/-- The row of BDSP_IRQ on a device that does not forward the word. -/
theorem ends_bdspIrq {v : Word} (hc : c < 4) (hm : b.hostMay (rBDSP_IRQ + 0x1000 * c) = true) (hp : b.isPrimary = false) :
    let a := rBDSP_IRQ + 0x1000 * c
    Ends (.bdspIrq c v) b (logJournal a v.toNat (restartCheck a (writeBdspIrq c v.toNat b))) := by
  obtain ⟨⟨hlo, hhi, h4⟩, ⟨hi, he⟩, -⟩ := bdspIrq_address c hc
  exact ends_of_eqIf (fun _ => rfl) (decide_eq_true hc)
    ((hostReg_mirrored hm hlo hhi h4 hi he hp).trans (by rw [storeWord_bdspIrq hc]))

end

/-- Settles O51: each row by the guards of its function, the far load by its place behind the stores before it. -/
theorem gralonPassesAndInterrupts : Obligations.GralonPassesAndInterrupts := by
  unfold Obligations.GralonPassesAndInterrupts
  intro b c hc
  refine ⟨fun hr hd hw ho => ?passStart, fun hi hd => ?overrun, fun stores f rest r hfar hs hr hstall => ?farLoad,
    fun n t hn ht hr htr hl hsize => ?tap, fun v hv hm hp => ?irq, fun s hr hd => ?interrupt⟩
  case passStart => exact ends_of_eqIf (fun _ => rfl) (decide_eq_true hc) (if_neg (by simp [hr, hd, hw, ho]))
  case overrun =>
    intro b1
    have hends : Ends (.bdspPassOverrun c) b
        (if deadlineOf b1 c ≤ boundaryNo b1 b1.lastBound + 1 then noteOverrun c b1 else b1) :=
      ends_of_eqIf (f := passOverrun c) (fun _ => rfl) (decide_eq_true hc) (if_neg (by simp [hi, hd]))
    exact ⟨fun h => by rwa [if_pos h] at hends, fun h => by rwa [if_neg (by omega)] at hends⟩
  case farLoad =>
    refine ⟨fun hb => ?_, fun hb => ?_⟩
    · rw [← List.not_any_eq_all_not, Bool.not_eq_true'] at hb
      exact ends_of_eqIf (fun _ => rfl) (decide_eq_true hc) (farLoadComplete_lands hfar hs hr hstall hb)
    · exact ends_of_eqIf (fun _ => rfl) (decide_eq_true hc) (farLoadComplete_waits hfar hs hr hb)
  case tap =>
    exact ends_of_eqIf (f := lineTapArrive c n t) (fun _ => rfl) (by simp [hc, hn, ht]) (if_pos (by simp [hr, htr, hl, hsize]))
  case irq =>
    have hends := ends_bdspIrq (v := v) hc hm hp
    exact ⟨fun hd => by rwa [writeBdspIrq_pends hv hd] at hends, fun hd => by rwa [writeBdspIrq_owes hv hd] at hends⟩
  case interrupt =>
    intro b1 g hfind hopen hmay back
    refine ends_of_eqIf (f := interruptTake c) (fun _ => rfl) (decide_eq_true hc) ?_
    have hguard : ¬ ((!bit g.imask 15 || (!g.waiting && shielded g)) = true) := by
      rcases hmay with h | h <;> simp [hopen, h]
    unfold interruptTake
    rw [if_neg (by simp [hr, hd])]
    simp only [b1, g] at hfind hguard
    simp only [hfind, if_neg hguard]
    rfl

end Sys2Proof.Machine
end

section
/-! PROOFS. The host's commands to the Gralon cores (08 R338 to R340). -/

namespace Sys2Proof.Machine

section
variable {b : Block} {p : List Byte}

/-! ### What each command's checks let through -/

theorem mBdspLoadProg_meets (hk : leAt p 0 1 ≤ 3)
    (hn : leAt p 2 2 + (p.length - 4) / 8 ≤ b.rd (fBDSP_ENTRY_LENGTH.at (leAt p 0 1))) : mBdspLoadProg.chk p b = none :=
  if_neg (by simp [hk, hn])

theorem mBdspLoadEnd_meets (hk : leAt p 0 1 ≤ 3) (hcrc : crc32c (programBytes b (leAt p 0 1)) = leAt p 4 4) :
    mBdspLoadEnd.chk p b = none :=
  if_neg (by simp [hk, hcrc])

theorem mBdspWriteData_meets (hk : leAt p 0 1 ≤ 3) (hm : leAt p 1 1 ≤ 1) (hn : leAt p 2 2 + (p.length - 4) / 4 ≤ 0x4000) :
    mBdspWriteData.chk p b = none :=
  if_neg (by simp [hk, hm, hn])

theorem mBdspRun_meets (hk : leAt p 0 1 ≤ 3) (hr : leAt p 1 1 ≤ 1) (hs : leAt p 2 1 ≤ 4) (ht : leAt p 3 1 ≤ 3) :
    mBdspRun.chk p b = none :=
  if_neg (by simp [hk, hr, hs, ht])

theorem mBdspSetParam_meets (hk : leAt p 0 1 ≤ 3) (hn : leAt p 1 1 + leAt p 2 1 ≤ 64) : mBdspSetParam.chk p b = none :=
  if_neg (by simp [hk, hn])

theorem mBdspStatus_meets (hk : leAt p 0 1 ≤ 3) : mBdspStatus.chk p b = none := if_neg (by omega)

/-! ### BDSP_WRITE_DATA and BDSP_RUN by their operand -/

section
variable {tok : Tok} {stamp : Nat}

/-- The words of a BDSP_WRITE_DATA. -/
def writtenWords (p : List Byte) : List Nat := (List.range ((p.length - 4) / 4)).map (fun i => leAt p (4 + 4 * i) 4)

theorem mBdspWriteData_x (h : leAt p 1 1 = 0) :
    mBdspWriteData.eff tok stamp p b =
      (ok [], b.modCore (leAt p 0 1) (fun g => { g with x := smWriteAll (fun _ => 0) g.x (leAt p 2 2) (writtenWords p) })) :=
  congrArg (Prod.mk (ok [])) (modCore_congr (if_pos h))

theorem mBdspWriteData_y (h : leAt p 1 1 = 1) :
    mBdspWriteData.eff tok stamp p b =
      (ok [], b.modCore (leAt p 0 1) (fun g => { g with y := smWriteAll (fun _ => 0) g.y (leAt p 2 2) (writtenWords p) })) :=
  congrArg (Prod.mk (ok [])) (modCore_congr (if_neg (by omega)))

/-- BDSP_CTRL after the block size and the traps of a BDSP_RUN. -/
def runConfigured (p : List Byte) (b : Block) : Block :=
  writeBdsp (rBDSP_CTRL + 0x1000 * leAt p 0 1)
    (putBits (leAt p 2 1 * 2 ^ 28 + leAt p 3 1 * 2 ^ 8) 7 0 (b.rd (fBDSP_CTRL_LINE_EN.at (leAt p 0 1)))) b

theorem mBdspRun_asks (h : leAt p 1 1 = 1) :
    mBdspRun.eff tok stamp p b =
      (.later, startCheck (rBDSP_CTRL + 0x1000 * leAt p 0 1) (some tok) stamp
        [(rBDSP_CTRL + 0x1000 * leAt p 0 1, b.word (rBDSP_CTRL + 0x1000 * leAt p 0 1))] (runConfigured p b)) :=
  if_pos h

theorem mBdspRun_halts (h : leAt p 1 1 = 0) :
    mBdspRun.eff tok stamp p b =
      (ok [], runFalls (leAt p 0 1) (cancelChecks (fun x => x.addr == rBDSP_CTRL + 0x1000 * leAt p 0 1) (runConfigured p b))) :=
  if_neg (by omega)

end
end

/-- Settles O52: each command by its checks and by what its effect answers. -/
theorem bdspCommands : Obligations.BdspCommands := by
  unfold Obligations.BdspCommands
  intro b c
  refine ⟨?loadBegin, ?loadProg, ?loadEnd, ?writeData, ?readData, ?run, ?setParam, ?setLine, ?status⟩
  case loadBegin | readData | setLine => exact fun hr hc => replies_of_meets (fun _ => rfl) hr hc rfl
  case loadProg => exact fun hr hk hn => replies_of_meets (fun _ => rfl) hr (mBdspLoadProg_meets hk hn) rfl
  case loadEnd => exact fun hr hk hcrc => replies_of_meets (fun _ => rfl) hr (mBdspLoadEnd_meets hk hcrc) rfl
  case writeData =>
    exact fun hr hk hn =>
      ⟨fun h0 => replies_of_meets (fun _ => rfl) hr (mBdspWriteData_meets hk (by omega) hn) (mBdspWriteData_x h0),
       fun h1 => replies_of_meets (fun _ => rfl) hr (mBdspWriteData_meets hk h1.le hn) (mBdspWriteData_y h1)⟩
  case run =>
    exact fun hr hk hs ht =>
      ⟨fun h1 => replies_of_meets (fun _ => rfl) hr (mBdspRun_meets hk h1.le hs ht) (mBdspRun_asks h1),
       fun h0 => replies_of_meets (fun _ => rfl) hr (mBdspRun_meets hk (by omega) hs ht) (mBdspRun_halts h0)⟩
  case setParam => exact fun hr hk hn => replies_of_meets (fun _ => rfl) hr (mBdspSetParam_meets hk hn) rfl
  case status => exact fun hr hk => replies_of_meets (fun _ => rfl) hr (mBdspStatus_meets hk) rfl

end Sys2Proof.Machine
end

section
/-! PROOFS. The memories: what a store keeps of their form, and what reads back (02 R52; 09 R341; 11 R398). -/

namespace Sys2Proof.Machine

section
variable {b : Block} {o k : Nat} {bs : List Byte}

/-! ### The canonical form kept -/

theorem regsWf_setWord (a v : Nat) (h : b.regsWf = true) : (b.setWord a v).regsWf = true := smWf_set h

/-- A host write stores one register word, or none where no register is listed. -/
theorem regsWf_put (a v : Nat) (h : b.regsWf = true) : (b.put a v).regsWf = true := by
  unfold Block.put
  split
  · exact h
  · exact regsWf_setWord _ _ h

/-! ### Reading back -/

theorem slateBytes_one : b.slateBytes k 1 = [b.slateByte k] := by
  rw [slateBytes_map]
  rfl

theorem lpddrBytes_one : b.lpddrBytes k 1 = [smGet (fun _ => 0) b.slate.lpddr k] := rfl

theorem setSlate_outside (h : k < o ∨ o + bs.length ≤ k) : (b.setSlate o bs).slateBytes k 1 = b.slateBytes k 1 := by
  rw [slateBytes_one, slateBytes_one, setSlate_byte.2 h]

theorem setLpddr_reads : (b.setLpddr o bs).lpddrBytes o bs.length = bs := smRange_writeAll bs

theorem setLpddr_outside (h : k < o ∨ o + bs.length ≤ k) : (b.setLpddr o bs).lpddrBytes k 1 = b.lpddrBytes k 1 := by
  rw [lpddrBytes_one, lpddrBytes_one]
  congr 1
  rcases h with h | h
  · exact smGet_writeAll_lt bs h
  · exact smGet_writeAll_ge bs h

end

/-- Settles O7: every operation stores one entry, consecutive entries, or takes entries out. -/
theorem memoriesStayCanonical : Obligations.MemoriesStayCanonical := by
  unfold Obligations.MemoriesStayCanonical
  refine ⟨fun b a v h => ⟨regsWf_setWord a v h, regsWf_put a v h⟩, fun b f v h => regsWf_setWord f.addr _ h, ?mbx, ?slate,
    ?lpddr, ?flash⟩
  case mbx | lpddr => exact fun b o bs h => smWf_writeAll bs h
  case slate => exact fun b o bs h => setSlate_wf h
  case flash => exact fun b a n bs h => ⟨smWf_writeAll _ h, smWf_filter _ h⟩

/-- Settles O8: slate memory and LPDDR5 byte by byte. -/
theorem memoryReadsBackWhatWasWritten : Obligations.MemoryReadsBackWhatWasWritten := by
  unfold Obligations.MemoryReadsBackWhatWasWritten
  exact fun b o bs =>
    ⟨setSlate_reads, fun _ hk => setSlate_outside hk, setLpddr_reads, fun _ hk => setLpddr_outside hk⟩

end Sys2Proof.Machine
end

section
/-! PROOFS. Accesses to slate: reads, writes, atomic operations, write-backs and flipped bits (09 R341 to R353, R358). -/

namespace Sys2Proof.Machine

/-! ### Who may reach a bank (R345, R358) -/

section
variable {b c : Block} {req off bank : Nat}

theorem slateMay_congr (h : c.regs = b.regs) : slateMay c req bank = slateMay b req bank := by
  simp only [slateMay, Block.owner, Block.rd, Block.word, h]

/-- An access of port A to a bank that it may use, with the stall of a borrowed one. -/
def portAEntered (off : Nat) (b : Block) : Block := if borrowed b (bankOf off) then borrowStall b else b

theorem portAEnter_may (h : slateMay b req (bankOf off) = true) : portAEnter req off b = (true, portAEntered off b) := if_pos h

theorem portAEnter_faults (h : slateMay b req (bankOf off) = false) : portAEnter req off b = (false, ownerFault req off b) :=
  if_neg (by simp [h])

end

/-! ### Reads and writes (R343, R345, R350) -/

section
variable {b : Block} {req off : Nat} {p q : OtherPort} {upset : BitVec 72}

theorem hurtWord_regs : (hurtWord off upset b).regs = b.regs := by
  unfold hurtWord
  split <;> rfl

/-- Flipped bits change nobody's right to a bank. -/
theorem slateMay_hurtWord {bank : Nat} : slateMay (hurtWord off upset b) req bank = slateMay b req bank :=
  slateMay_congr hurtWord_regs

/-- A read of a storage word, or of one half of it. -/
def readOp (wide : Bool) : SlateOp := if wide then .read64 else .read32

/-- What a read that no port-B write meets returns. -/
def readValue (off : Nat) (wide : Bool) (b : Block) : Nat :=
  if wide then slateWord b off else ofLE (b.slateBytes (off / 4 * 4) 4)

/-- The word that an access returned to its requester. -/
def Block.shows (b : Block) (v : Nat) : Block := { b with slate := { b.slate with readOut := v } }

section
variable (hf : b.flag fSLATE_STAT_FUSE_DONE = true)
include hf

theorem slateAccess_read_faults (hm : slateMay b req (bankOf off) = false) (hr : req ≠ rqPROCTOR) (wide : Bool)
    (other : TwoCycles) :
    slateAccess req off (readOp wide) other upset b = (ownerFault req off (hurtWord off upset b)).shows 0 := by
  cases wide <;> simp [slateAccess, readOp, hf, slateMay_hurtWord, hm, hr, portAEnter, Block.shows]

theorem slateAccess_read_byPortB (hm : slateMay b rqPROCTOR (bankOf off) = false) (wide : Bool) :
    slateAccess rqPROCTOR off (readOp wide) ⟨.none, q⟩ upset b =
      (checkRead off (hurtWord off upset b)).shows (readValue off wide (hurtWord off upset b)) := by
  cases wide <;> simp [slateAccess, readOp, hf, slateMay_hurtWord, hm, portBRead, readValue, Block.shows]

theorem slateAccess_read_enters (hm : slateMay b req (bankOf off) = true) (wide : Bool) :
    slateAccess req off (readOp wide) ⟨p, q⟩ upset b =
      let y := portARead off wide p (collide off none p (portAEntered off (hurtWord off upset b)))
      y.2.shows y.1 := by
  cases wide <;> simp [slateAccess, readOp, hf, slateMay_hurtWord, hm, portAEnter, portAEntered, Block.shows]

theorem slateAccess_write32_faults (hm : slateMay b req (bankOf off) = false) (d : Word) (other : TwoCycles) :
    slateAccess req off (.write32 d) other upset b = ownerFault req off (hurtWord off upset b) := by
  simp [slateAccess, hf, portAEnter_faults, slateMay_hurtWord, hm]

theorem slateAccess_write64_faults (hm : slateMay b req (bankOf off) = false) (d : DWord) (other : TwoCycles) :
    slateAccess req off (.write64 d) other upset b = ownerFault req off (hurtWord off upset b) := by
  simp [slateAccess, hf, portAEnter_faults, slateMay_hurtWord, hm]

theorem slateAccess_write32_enters (hm : slateMay b req (bankOf off) = true) (d : Word) (other : TwoCycles) :
    slateAccess req off (.write32 d) other upset b =
      portAWrite32 off d.toNat other (portAEntered off (hurtWord off upset b)) := by
  simp [slateAccess, hf, portAEnter_may, slateMay_hurtWord, hm]

theorem slateAccess_write64_enters (hm : slateMay b req (bankOf off) = true) (d : DWord) :
    slateAccess req off (.write64 d) ⟨p, q⟩ upset b =
      portAStore (off / 8 * 8) (toLE 8 d.toNat) (collide off (some d.toNat) p (portAEntered off (hurtWord off upset b))) := by
  simp [slateAccess, hf, portAEnter_may, slateMay_hurtWord, hm]

end

/-! ### What the other port does in the cycle (R350) -/

theorem portARead_unmet (h : p = .none ∨ p = .read) (wide : Bool) :
    portARead off wide p (collide off none p b) = (readValue off wide b, checkRead off b) := by
  rcases h with rfl | rfl <;> rfl

theorem portARead_met (d : DWord) :
    portARead off false (.write d) (collide off none (.write d) b) =
      ((collision 1 off b).freshWord.1, (collision 1 off b).freshWord.2.freshWord.2) := rfl

theorem portAWrite32_unmet (n : Nat) :
    portAWrite32 off n noMeet b = portAStore (off / 4 * 4) (toLE 4 n) (checkMerge off b) := rfl

theorem collide_unmet_or_same {d : DWord} (h : p = .none ∨ p = .write d) : collide off (some d.toNat) p b = b := by
  rcases h with rfl | rfl
  · rfl
  · exact if_pos rfl

theorem collide_other {d e : DWord} (h : e ≠ d) : collide off (some d.toNat) (.write e) b = collision 0 off b :=
  if_neg fun heq => h (BitVec.eq_of_toNat_eq heq).symm

/-! ### Atomic operations (R353) -/

section
variable (hf : b.flag fSLATE_STAT_FUSE_DONE = true) (hr : req = rqPROCTOR ∨ req = rqEVT) {f : Nat → Nat}
include hf hr

omit hf in
theorem atomicRequester : (req != rqPROCTOR && req != rqEVT) = false := by
  rcases hr with rfl | rfl <;> decide

theorem atomicOp_stores (hm : slateMay b req (bankOf off) = true) :
    atomicOp req off f noMeet b =
      let b1 := portAEntered off b
      let old := readValue off false b1
      portAStore (off / 4 * 4) (toLE 4 (f old % 2 ^ 32)) ((checkMerge off b1).shows old) := by
  simp [atomicOp, hf, atomicRequester hr, portAEnter_may hm, noMeet, collide, readValue, Block.shows]

theorem atomicOp_faults (hm : slateMay b req (bankOf off) = false) (other : TwoCycles) :
    atomicOp req off f other b = (ownerFault req off b).shows 0 := by
  simp [atomicOp, hf, atomicRequester hr, portAEnter_faults hm, Block.shows]

end

/-! ### Write-backs (R348, R351) -/

/-- The oldest write-back has left the queue. -/
def Block.writeBackTaken (b : Block) (rest : List (Nat × Nat)) : Block :=
  { b with slate := { b.slate with writeBacks := rest } }

section
variable {o w : Nat} {rest : List (Nat × Nat)} (hw : b.slate.writeBacks = (o, w) :: rest) (hb : borrowed b (bankOf o) = false)
include hw hb

omit hw in
theorem not_borrowed_writeBackTaken : ¬ borrowed (b.writeBackTaken rest) (bankOf o) = true := by
  rw [Bool.not_eq_true]
  exact hb

theorem eccWriteBack_lands : eccWriteBack .none b = (b.writeBackTaken rest).setSlate o (toLE 8 w) := by
  unfold eccWriteBack
  rw [hw]
  exact if_neg (not_borrowed_writeBackTaken hb)

/-- Port A stores another value: the write-back is abandoned, and the collision recorded. -/
theorem eccWriteBack_abandoned {d : DWord} (hd : d.toNat ≠ w) :
    eccWriteBack (.write d) b = portAStore o (toLE 8 d.toNat) (collision 0 o (b.writeBackTaken rest)) := by
  unfold eccWriteBack
  rw [hw]
  exact (if_neg (not_borrowed_writeBackTaken hb)).trans (congrArg (portAStore o (toLE 8 d.toNat)) (if_neg hd))

end

/-! ### One flipped bit (R348) -/

theorem ones_succ (n x : Nat) : ones (n + 1) x = ones n x + x / 2 ^ n % 2 := by
  simp [ones, List.range_succ]

theorem ones_zero (n : Nat) : ones n 0 = 0 := by
  induction n with
  | zero => rfl
  | succ n ih => rw [ones_succ, ih, Nat.zero_div]

/-- A power of two has one bit. -/
theorem ones_two_pow (n i : Nat) : ones n (2 ^ i) = if i < n then 1 else 0 := by
  induction n with
  | zero => rfl
  | succ n ih =>
    have hbit : 2 ^ i / 2 ^ n % 2 = if i = n then 1 else 0 := by
      rw [← Nat.toNat_testBit, Nat.testBit_two_pow]
      split <;> simp [*]
    rw [ones_succ, ih, hbit]
    split_ifs <;> omega

section
variable {i : Nat} (hi : i < 72) (h0 : b.damage (off / 8) = 0)
include hi h0

theorem hurtWord_damage : (hurtWord off (1#72 <<< i) b).damage (off / 8) = 2 ^ i := by
  have hbit : (1#72 <<< i).toNat = 2 ^ i := by
    rw [BitVec.toNat_shiftLeft, Nat.shiftLeft_eq]
    simpa using Nat.mod_eq_of_lt (Nat.pow_lt_pow_right (a := 2) (by decide) hi)
  have hne : ¬ (1#72 <<< i) = 0 := fun h => by
    have hz : (1#72 <<< i).toNat = 0 := by rw [h]; rfl
    have hpos := Nat.two_pow_pos i
    omega
  rw [hurtWord, if_neg hne, h0, hbit]
  exact smGet_set_same.trans (Nat.zero_xor _)

theorem hurtWord_single : eccOf (hurtWord off (1#72 <<< i) b) (off / 8) = .single := by
  simp only [eccOf, hurtWord_damage hi h0, ones_two_pow, if_pos hi]

/-- The code corrects the bit: the word reads as it did. -/
theorem hurtWord_wordRead : wordRead (hurtWord off (1#72 <<< i) b) (off / 8) = wordRead b (off / 8) := by
  have hmem : (hurtWord off (1#72 <<< i) b).slate.mem = b.slate.mem := by
    unfold hurtWord
    split <;> rfl
  simp only [wordRead, hurtWord_damage hi h0, h0, ones_two_pow, ones_zero, if_pos hi, hmem]

end

theorem countUp_flag_ne {f g : Fld} {n : Nat} (h : g.addr ≠ f.addr) : (b.countUp f n).flag g = b.flag g := by
  simp only [Block.flag, Block.rd, countUp_word_ne h]

/-- An ECC error is captured, by this access or by one before it. -/
theorem slateEcc_valid (uncorr : Bool) : (slateEcc uncorr off b).flag fSLATE_ECC_ADDR_VALID = true := by
  have hnoted : (if b.flag fSLATE_ECC_ADDR_VALID then b
      else ((b.wr fSLATE_ECC_ADDR_VALID 1).wrB fSLATE_ECC_ADDR_UNCORR uncorr).wr fSLATE_ECC_ADDR_OFFSET (off / 8 * 8)).flag
        fSLATE_ECC_ADDR_VALID = true := by
    split
    · assumption
    · rw [Block.flag, Block.wr_rd_other _ _ (by decide) (by decide) (by decide), Block.wrB,
        Block.wr_rd_other _ _ (by decide) (by decide) (by decide)]
      exact Block.wr_one_flag ⟨rfl, by decide⟩
  unfold slateEcc
  dsimp only
  split <;> rw [Block.raise_flag, countUp_flag_ne (by decide), hnoted]

theorem slateEcc_corr_pending : (slateEcc false off b).ev.pend.getLsbD evSLATE_ECC_CORR = true := by
  simp only [slateEcc, Bool.false_eq_true, if_false]
  exact Block.raise_pending _ (by decide)

theorem checkRead_single (h : eccOf b (off / 8) = .single) :
    (checkRead off b).flag fSLATE_ECC_ADDR_VALID = true ∧ (checkRead off b).ev.pend.getLsbD evSLATE_ECC_CORR = true := by
  unfold checkRead
  rw [h]
  exact ⟨slateEcc_valid false, slateEcc_corr_pending⟩

end

/-- Settles O46: each row by whether the requester may use the bank and by what the other port does in its cycles; one flipped bit by
the code that finds it. -/
theorem slateAccesses : Obligations.SlateAccesses := by
  unfold Obligations.SlateAccesses
  intro b req off upset hf h0 h10 hoff may x x1 shows word
  have hwf : (decide (0 < req) && decide (req < 10) && decide (off < 0x2000000)) = true := by
    simp only [Bool.and_eq_true, decide_eq_true_eq]
    omega
  have access {op : SlateOp} {other : TwoCycles} {c : Block} (h : slateAccess req off op other upset b = c) :
      Ends (.slateAccess req off op other upset) b c := ends_of_eqIf (fun _ => rfl) hwf h
  refine ⟨fun p q hm => ⟨fun hr => ?faults, fun hr hp => ?byPortB, fun d => ?write32Faults, fun d => ?write64Faults⟩,
    fun p q hm => ⟨fun hp => ?reads, fun d hp => ?readMet⟩, fun d hm => ?write32,
    fun d p q hm => ⟨fun hp => ?write64, fun e hp he => ?write64Met⟩, fun v hr => ?atomic,
    fun o w rest hw hb => ?writeBack, fun i hi hd => ?flip⟩
  case faults =>
    exact ⟨access (slateAccess_read_faults hf hm hr false _), access (slateAccess_read_faults hf hm hr true _)⟩
  case byPortB =>
    subst hr hp
    exact ⟨access (slateAccess_read_byPortB hf hm false), access (slateAccess_read_byPortB hf hm true)⟩
  case write32Faults => exact access (slateAccess_write32_faults hf hm d _)
  case write64Faults => exact access (slateAccess_write64_faults hf hm d _)
  case reads =>
    have hread (wide : Bool) : slateAccess req off (readOp wide) ⟨p, q⟩ upset b =
        (checkRead off x1).shows (readValue off wide x1) := by
      rw [slateAccess_read_enters hf hm, portARead_unmet hp]
      rfl
    exact ⟨access (hread false), access (hread true)⟩
  case readMet =>
    subst hp
    have hmet := slateAccess_read_enters hf hm false (p := .write d) (q := q) (upset := upset)
    rw [portARead_met] at hmet
    exact access hmet
  case write32 => exact access ((slateAccess_write32_enters hf hm d noMeet).trans (portAWrite32_unmet _))
  case write64 => exact access (by rw [slateAccess_write64_enters hf hm, collide_unmet_or_same hp]; rfl)
  case write64Met =>
    subst hp
    exact access (by rw [slateAccess_write64_enters hf hm, collide_other he]; rfl)
  case atomic =>
    have hwrap : v.toNat % 2 ^ 32 = v.toNat := Nat.mod_eq_of_lt v.isLt
    refine ⟨fun hm => ⟨?add, ?swap⟩, fun hm p q => ⟨?addFaults, ?swapFaults⟩⟩
    case add => exact ends_of_eqIf (fun _ => rfl) hwf (atomicOp_stores hf hr hm)
    case swap =>
      have hstores := atomicOp_stores hf hr hm (f := fun _ => v.toNat)
      rw [hwrap] at hstores
      exact ends_of_eqIf (fun _ => rfl) hwf hstores
    case addFaults => exact ends_of_eqIf (fun _ => rfl) hwf (atomicOp_faults hf hr hm _)
    case swapFaults => exact ends_of_eqIf (fun _ => rfl) hwf (atomicOp_faults hf hr hm _)
  case writeBack =>
    exact ⟨ends_of_eq (fun _ => rfl) (eccWriteBack_lands hw hb),
      fun d hd => ends_of_eq (fun _ => rfl) (eccWriteBack_abandoned hw hb hd)⟩
  case flip =>
    have hs := hurtWord_single hi hd
    exact ⟨hs, hurtWord_wordRead hi hd, checkRead_single hs⟩

end Sys2Proof.Machine
end

section
/-! PROOFS. Owners of slate banks, the slate commands, and escorts (09 R346, R351 to R356, R365, R366). -/

namespace Sys2Proof.Machine

section
variable {b : Block} {k stamp : Nat} {tok : Tok} {p : List Byte}

/-! ### A bank takes its owner (R346) -/

theorem ownerChange_takes (hp : ownerPends b k = true) (ha : b.flag (fSLATE_OWNER_AT_BOUNDARY.at k) = false)
    (hb : borrowed b k = false) : ownerChange k b = checkBuild (checkEscort (applyOwner k b)) :=
  if_pos (by simp [hp, ha, hb])

/-! ### SLATE_HANDOVER and SLATE_SET_COMMONS (R346, R352, R366) -/

/-- The banks of a handover await their new owner. -/
def handoverAsked (p : List Byte) (b : Block) : Block :=
  forL (banksIn (leAt p 0 8)) (fun k x =>
    (x.wr (fSLATE_OWNER_PENDING.at k) (leAt p 8 1)).wr (fSLATE_OWNER_AT_BOUNDARY.at k) (leAt p 9 1)) b

/-- The banks of a handover that another owner still holds. -/
def handoverWaits (p : List Byte) (b : Block) : List Nat :=
  (banksIn (leAt p 0 8)).filter (fun k => (handoverAsked p b).owner k != leAt p 8 1)

theorem mSlateHandover_done (h : handoverWaits p b = []) :
    mSlateHandover.eff tok stamp p b = (ok [], (handoverAsked p b).raise evSLATE_HANDOVER_DONE) :=
  if_pos (List.isEmpty_iff.mpr h)

theorem mSlateHandover_waits (h : handoverWaits p b ≠ []) :
    mSlateHandover.eff tok stamp p b =
      let x := handoverAsked p b
      (.later, { x with slate := { x.slate with handovers := x.slate.handovers ++ [(tok, stamp, handoverWaits p b)] } }) :=
  if_neg (mt List.isEmpty_iff.mp h)

theorem mSlateSetCommons_meets (h : Nat.land (leAt p 0 2) (0xFFFF - 0x03C6) = 0) : mSlateSetCommons.chk p b = none :=
  if_neg (not_not_intro h)

/-! ### The running escort (R351, R355, R356) -/

/-- The eight bytes that an escort moves next. -/
def escortBytes (e : Escort) (b : Block) : List Byte :=
  if e.space = 0 then b.slateBytes (e.src + e.moved) 8 else b.lpddrBytes (e.src + e.moved) 8

/-- An escort's read of slate is checked; one of LPDDR5 is not. -/
def escortChecked (e : Escort) (b : Block) : Block := if e.space = 0 then checkRead (e.src + e.moved) b else b

/-- Eight bytes more have been moved: the escort goes on, or ends with the last of them. -/
def escortAdvanced (e : Escort) (rest : List Escort) (b : Block) : Block :=
  if e.len ≤ e.moved + 8 then
    ({ b with slate := { b.slate with escorts := rest } }).finish e.tok e.stamp false (ok (toLE 4 e.len))
  else { b with slate := { b.slate with escorts := { e with moved := e.moved + 8 } :: rest } }

section
variable {e : Escort} {rest : List Escort} (he : b.slate.escorts = e :: rest)
include he

theorem checkEscort_owned (ho : (banksOfRange e.dst e.len).any (fun k => b.owner k != e.req) = false) : checkEscort b = b := by
  unfold checkEscort
  rw [he]
  exact if_neg (by simp [ho])

variable (hf : b.flag fSLATE_STAT_FUSE_DONE = true)
  (ho : (banksOfRange e.dst e.len).any (fun k => b.owner k != e.req) = false)
  (hd : borrowed b (bankOf (e.dst + e.moved)) = false) (hs : e.space = 0 → borrowed b (bankOf (e.src + e.moved)) = false)
include hf ho hd hs

theorem escortTransfer_moves :
    escortTransfer noMeet b =
      escortAdvanced e rest ((escortChecked e b).setSlate (e.dst + e.moved) (escortBytes e b)) := by
  by_cases h0 : e.space = 0
  · simp [escortTransfer, checkEscort_owned he ho, he, hf, hd, hs h0, h0, noMeet, escortAdvanced, escortChecked, escortBytes]
  · simp [escortTransfer, checkEscort_owned he ho, he, hf, hd, h0, noMeet, escortAdvanced, escortChecked, escortBytes]

/-- A port-A write meets the escort's read of slate: the escort tries again. -/
theorem escortTransfer_met (h0 : e.space = 0) (w : DWord) (q : OtherPort) :
    escortTransfer ⟨.write w, q⟩ b =
      portAStore ((e.src + e.moved) / 8 * 8) (toLE 8 w.toNat) (collision 1 (e.src + e.moved) b) := by
  simp [escortTransfer, checkEscort_owned he ho, he, hf, hd, hs h0, h0]

end
end

/-- Settles O47: the change of a bank, each command by its checks and its effect, and the running escort by what port A does. -/
theorem slateOwnership : Obligations.SlateOwnership := by
  unfold Obligations.SlateOwnership
  refine fun b => ⟨fun k hk hp ha hb => ?owner, fun c => ⟨fun hr hc => ⟨fun hw => ?handed, fun hw => ?awaited⟩, ?pin, ?escort,
    fun hr h => ?commons, fun hr => ?status⟩, fun e rest he hf ho hd hs => ⟨fun h => ?moves, fun h => ?ends, fun q w h0 => ?met⟩⟩
  case owner =>
    exact ends_of_eqIf (fun _ => rfl) (decide_eq_true hk) (ownerChange_takes hp ha hb)
  case handed => exact replies_of_meets (fun _ => rfl) hr hc (mSlateHandover_done hw)
  case awaited => exact replies_of_meets (fun _ => rfl) hr hc (mSlateHandover_waits hw)
  case pin | escort => exact fun hr hc => replies_of_meets (fun _ => rfl) hr hc rfl
  case commons => exact replies_of_meets (fun _ => rfl) hr (mSlateSetCommons_meets h) rfl
  case status => exact replies_of_meets (m := mSlateStatus) (fun _ => rfl) hr rfl rfl
  case moves => exact ends_of_eq (fun _ => rfl) ((escortTransfer_moves he hf ho hd hs).trans (if_neg (by omega)))
  case ends => exact ends_of_eq (fun _ => rfl) ((escortTransfer_moves he hf ho hd hs).trans (if_pos h))
  case met => exact ends_of_eq (fun _ => rfl) (escortTransfer_met he hf ho hd hs h0 w q)

end Sys2Proof.Machine
end

section
/-! PROOFS. A step and the queue of commands, and how the Tide starts, wraps and is read (10 R367 to R373, R385, R386, R389). -/

namespace Sys2Proof.Machine

section
variable {b : Block} {req : Nat}

/-! ### A tick on an empty queue (R367) -/

theorem tick_runs (h : b.tideRuns = true) : tick b = b.advanceTo ((b.now + 1) % tideMod) := if_pos h

theorem tick_stands (h : b.tideRuns = false) : tick b = b := if_neg (by simp [h])

theorem step_empty (b : Block) : step { pending := [], blk := b } = .next { pending := [], blk := settle (tick b) } := rfl

/-! ### Start and wrap of the count (R368, R373, R386) -/

theorem tideStart_starts (hl : bit (b.rd fCPR_CLK_STAT_LOCK) 2 = true) (hc : b.on dCORE = true)
    (hr : b.flag fTIDE_STAT_RUNNING = false) :
    tideStart b =
      let b1 := { b with tide := { b.tide with bellFrom := b.now } }
      (b1.wr fTIDE_STAT_RUNNING 1).wr fTIDE_STAT_FAMILY (b.rd fCPR_APLL_CFG_FAMILY) :=
  if_pos (by simp [hl, hc, hr])

theorem tideWrap_wraps (h : b.tideRuns = true) :
    tideWrap b = { b with tide := { b.tide with count := 0, epoch := b.tide.epoch + 1 } }.raise evTIDE_WRAP := if_pos h

/-! ### Latched reads (R371, R389) -/

/-- What one requester latches is not seen by another. -/
theorem latch_setLatch_ne {other : Nat} (h : other ≠ req) (f : Latch → Latch) :
    (b.setLatch req f).latch other = b.latch other := by
  simp [Block.latch, Block.setLatch, nth, List.getElem?_modify_ne f b.tide.latch h.symm]

end

/-- Settles O1: the front of the queue is what `step` takes, and an empty queue leaves the tick. -/
theorem stepTakesTheFrontCommand : Obligations.StepTakesTheFrontCommand := by
  unfold Obligations.StepTakesTheFrontCommand
  refine ⟨fun _ _ _ => rfl, fun b h => ?runs, fun b h => ?stands⟩
  case runs => rw [step_empty, tick_runs h]
  case stands => rw [step_empty, tick_stands h]

/-- Settles O31: start and wrap by their conditions, each read by what it latches and drives. -/
theorem tideCountsAndReads : Obligations.TideCountsAndReads := by
  unfold Obligations.TideCountsAndReads
  refine ⟨fun b => ⟨fun hl hc hr => ?start, fun h => ?wrap, fun req hreq => ⟨?lo, ?bound, fun n hn => ?cap⟩⟩,
    fun b req other f h => latch_setLatch_ne h f⟩
  case start => exact ends_of_eq (fun _ => rfl) (tideStart_starts hl hc hr)
  case wrap => exact ends_of_eq (fun _ => rfl) (tideWrap_wraps h)
  case lo => exact ends_doneIf (f := tideLoRead req) (fun _ => rfl) (decide_eq_true hreq)
  case bound => exact ends_doneIf (f := tideBoundLoRead req) (fun _ => rfl) (decide_eq_true hreq)
  case cap =>
    exact ends_doneIf (f := tideCapLoRead n req) (fun _ => rfl)
      (Bool.and_eq_true_iff.mpr ⟨decide_eq_true hn, decide_eq_true hreq⟩)

end Sys2Proof.Machine
end

section
/-! PROOFS. The test access port and its unlock (10 R370; 17 R570, R571, R574). -/

namespace Sys2Proof.Machine

section
variable {b b' : Block}

/-! ### The TAP's instructions (R570) -/

/-- A row of the TAP out of power-on reset. -/
theorem ends_tap {i : Instr} {f : Block → Block} (h : ∀ s, exec i s = done (tap f) s) (hp : b.pwr.porn = false) (he : f b = b') :
    Ends i b b' :=
  ends_of_eq h ((if_neg (by simp [hp])).trans he)

theorem extest_locked (h : b.flag fTEST_JTAG_STAT_LOCKED = true) : extest b = bypass b := if_pos h

theorem extest_unlocked (h : b.flag fTEST_JTAG_STAT_LOCKED = false) : extest b = selectTap 3 [] b :=
  if_neg (by simp [tapLocked, h])

theorem debugHalt_locked (h : b.flag fTEST_JTAG_STAT_LOCKED = true) : debugHalt b = bypass b := if_pos h

theorem debugHalt_unlocked (h : b.flag fTEST_JTAG_STAT_LOCKED = false) :
    debugHalt b = noteFrozen (selectTap 6 [] { b with tst := { b.tst with halted := true } }) :=
  if_neg (by simp [tapLocked, h])

/-! ### JTAG_UNLOCK (R571, R574) -/

theorem mJtagUnlock_meets {p : List Byte} (h : b.tst.challenge.isSome = true) : mJtagUnlock.chk p b = none :=
  if_neg (by simp [← Option.not_isSome, h])

theorem mJtagUnlock_eff (tok : Tok) (stamp : Nat) (p : List Byte) (b : Block) :
    mJtagUnlock.eff tok stamp p b = (if (attempt p b).1 then ok [] else refusedWith .unsignedImage, (attempt p b).2) := by
  rcases h : attempt p b with ⟨right, c⟩
  cases right <;> simp [mJtagUnlock, h]

end

/-- Settles O35: each instruction by what the TAP selects, locked or not, and each command by the challenge and the attempt. -/
theorem tapAndUnlock : Obligations.TapAndUnlock := by
  unfold Obligations.TapAndUnlock
  intro b
  refine ⟨fun hp => ⟨?bypass, ?idcode, ?sample, fun h => ⟨?extest, ?halt⟩, fun h => ⟨?noExtest, ?noHalt⟩, ?release, ?challenge,
    fun bytes => ?response⟩, fun c => ⟨fun hr => ?jtagChallenge, fun hr hc => ?jtagUnlock⟩⟩
  case bypass => exact ends_tap (f := bypass) (fun _ => rfl) hp rfl
  case idcode => exact ends_tap (f := idcode) (fun _ => rfl) hp rfl
  case sample => exact ends_tap (f := samplePreload) (fun _ => rfl) hp rfl
  case extest => exact ends_tap (fun _ => rfl) hp (extest_unlocked h)
  case halt => exact ends_tap (fun _ => rfl) hp (debugHalt_unlocked h)
  case noExtest => exact ends_tap (fun _ => rfl) hp (extest_locked h)
  case noHalt => exact ends_tap (fun _ => rfl) hp (debugHalt_locked h)
  case release => exact ends_tap (f := debugHaltRelease) (fun _ => rfl) hp rfl
  case challenge => exact ends_tap (f := Machine.challenge) (fun _ => rfl) hp rfl
  case response => exact ends_tap (f := Machine.response bytes) (fun _ => rfl) hp rfl
  case jtagChallenge => exact replies_of_meets (m := mJtagChallenge) (fun _ => rfl) hr rfl rfl
  case jtagUnlock => exact replies_of_meets (fun _ => rfl) hr (mJtagUnlock_meets hc) (mJtagUnlock_eff _ _ _ b)

end Sys2Proof.Machine
end

section
/-! PROOFS. Compare channels, timer pins and captures (10 R374 to R385). -/

namespace Sys2Proof.Machine

section
variable {b : Block} {n : Nat}

/-! ### The words of a compare channel (R376) -/

/-- A word stored to a channel reads back; the four lie apart. -/
theorem setCmpWords_word {i : Nat} (hi : i < 4) (ws : List Nat) :
    (setCmpWords n ws b).word (rTIDE_CMP_LO + 0x10 * n + 4 * i) = nth 0 ws i % 2 ^ 32 := by
  simp only [setCmpWords, forN, List.range_succ, List.range_zero, List.nil_append, List.cons_append, List.foldl_cons, List.foldl_nil]
  interval_cases i <;> simp [Block.setWord_word_ne]

theorem setCmpWords_ev (ws : List Nat) : (setCmpWords n ws b).ev = b.ev := forN_keeps (·.ev) (fun _ _ => rfl) 4 b

theorem setCmpWords_sched (ws : List Nat) : (setCmpWords n ws b).sched = b.sched := forN_keeps (·.sched) (fun _ _ => rfl) 4 b

theorem Block.word_withTide (t : Tide) (a : Nat) (b : Block) : { b with tide := t }.word a = b.word a := rfl

theorem nth_cmpWords {i : Nat} (hi : i < 4) : nth 0 (cmpWords n b) i = b.word (rTIDE_CMP_LO + 0x10 * n + 4 * i) := by
  simp [nth, cmpWords, hi]

/-! ### A channel that a write has reached in this tick (R375, R376) -/

theorem cmpHeld_chan {h : CmpHold} (hh : cmpHeld b n = some h) : h.chan = n := by
  have hfound := List.find?_some hh
  rw [Bool.and_eq_true, beq_iff_eq] at hfound
  exact hfound.1

theorem cmpHeld_none (hf : cmpFresh b n = false) : cmpHeld b n = none := by
  simpa [cmpFresh] using hf

/-- The words of a channel after a match of what it held before: those written prevail. -/
def wordsPrevailing (h : CmpHold) (b : Block) : List Nat :=
  (List.range 4).map (fun i => if h.fresh.contains i then nth 0 (cmpWords h.chan b) i
    else nth 0 (cmpWords h.chan (matchNow h.chan (setCmpWords h.chan h.old b))) i)

theorem nth_wordsPrevailing {h : CmpHold} {i : Nat} (hi : i < 4) :
    nth 0 (wordsPrevailing h b) i = if h.fresh.contains i then b.word (rTIDE_CMP_LO + 0x10 * h.chan + 4 * i)
      else (matchNow h.chan (setCmpWords h.chan h.old b)).word (rTIDE_CMP_LO + 0x10 * h.chan + 4 * i) := by
  rw [← nth_cmpWords hi, ← nth_cmpWords hi]
  simp [wordsPrevailing, nth, hi]

section
variable {h : CmpHold}

/-- The machine after a match of what the channel held before, the channel's words those that prevail. -/
def heldMatched (holds : List CmpHold) (h : CmpHold) (b : Block) : Block :=
  let c := setCmpWords h.chan (wordsPrevailing h b) (matchNow h.chan (setCmpWords h.chan h.old b))
  { c with tide := { c.tide with cmpHold := holds } }

section
variable (holds : List CmpHold) {i : Nat} (hi : i < 4)
include hi

theorem heldMatched_word :
    (heldMatched holds h b).word (rTIDE_CMP_LO + 0x10 * h.chan + 4 * i) = nth 0 (wordsPrevailing h b) i % 2 ^ 32 := by
  rw [heldMatched, Block.word_withTide, setCmpWords_word hi]

theorem heldMatched_word_fresh (hf : h.fresh.contains i = true) :
    (heldMatched holds h b).word (rTIDE_CMP_LO + 0x10 * h.chan + 4 * i) = b.word (rTIDE_CMP_LO + 0x10 * h.chan + 4 * i) := by
  rw [heldMatched_word holds hi, nth_wordsPrevailing hi, if_pos hf, Nat.mod_eq_of_lt (Block.word_lt _ _)]

theorem heldMatched_word_kept (hf : h.fresh.contains i = false) :
    (heldMatched holds h b).word (rTIDE_CMP_LO + 0x10 * h.chan + 4 * i) =
      (matchNow h.chan (setCmpWords h.chan h.old b)).word (rTIDE_CMP_LO + 0x10 * h.chan + 4 * i) := by
  rw [heldMatched_word holds hi, nth_wordsPrevailing hi, hf, if_neg (by decide), Nat.mod_eq_of_lt (Block.word_lt _ _)]

end

theorem heldMatched_ev (holds : List CmpHold) :
    (heldMatched holds h b).ev = (matchNow h.chan (setCmpWords h.chan h.old b)).ev := by
  rw [heldMatched, setCmpWords_ev]

theorem heldMatched_sched (holds : List CmpHold) :
    (heldMatched holds h b).sched = (matchNow h.chan (setCmpWords h.chan h.old b)).sched := by
  rw [heldMatched, setCmpWords_sched]

/-- A channel that matches by what it held before. -/
theorem matchHeld_matches (he : (setCmpWords h.chan h.old b).flag (fTIDE_CMP_CTRL_EN.at h.chan) = true)
    (hv : cmpV (setCmpWords h.chan h.old b) h.chan = b.now) :
    ∃ holds, matchHeld h b = (true, heldMatched holds h b) := by
  unfold matchHeld
  exact ⟨_, if_neg (by simp [he, hv])⟩

theorem matchHeld_passes (hw : (setCmpWords h.chan h.old b).flag (fTIDE_CMP_CTRL_EN.at h.chan) = false ∨
    cmpV (setCmpWords h.chan h.old b) h.chan ≠ b.now) : matchHeld h b = (false, b) := by
  unfold matchHeld
  exact if_pos (by simpa using hw)

end

/-! ### TIDE_CMP (R374 to R377) -/

section
variable (ht : b.tideRuns = true)
include ht

theorem tideCmp_matches (hf : cmpFresh b n = false) (he : b.flag (fTIDE_CMP_CTRL_EN.at n) = true) :
    tideCmp n b = matchNow n (if cmpV b n = b.now then b else b.advanceTo (cmpV b n)) := by
  simp [tideCmp, ht, cmpHeld_none hf, he]

variable {h : CmpHold} (hh : cmpHeld b n = some h)
include hh

theorem tideCmp_heldMatches {c : Block} (hm : matchHeld h b = (true, c)) : tideCmp n b = c := by
  simp [tideCmp, ht, hh, hm]

theorem tideCmp_heldComes (hm : matchHeld h b = (false, b)) (he : b.flag (fTIDE_CMP_CTRL_EN.at n) = true) (hv : cmpV b n ≠ b.now) :
    tideCmp n b = matchNow n (b.advanceTo (cmpV b n)) := by
  simp [tideCmp, ht, hh, hm, he, hv]

theorem tideCmp_heldRests (hm : matchHeld h b = (false, b))
    (hr : b.flag (fTIDE_CMP_CTRL_EN.at n) = false ∨ cmpV b n = b.now) : tideCmp n b = b := by
  rcases hr with hr | hr <;> simp [tideCmp, ht, hh, hm, hr]

end

/-! ### A write to a compare register leaves (R376) -/

/-- No compare register has a roll-called enable. -/
theorem isEnable_compare {a : Nat} (h1 : 0x20100 ≤ a) (h2 : a < 0x20200) : isEnable a = false := by
  have hout : ∀ r ∈ enableRegs, r < 0x20100 ∨ 0x20200 ≤ r := by decide
  simp only [isEnable, List.contains_eq_mem, decide_eq_false_iff_not]
  exact fun hm => by rcases hout a hm with h | h <;> omega

theorem storeWord_tide {a v : Nat} (h : blockOf a = 2) : storeWord a v b = writeTide a v b := by
  simp [storeWord, h]

theorem storeWord_compare {a v : Nat} (h1 : 0x20100 ≤ a) (h2 : a < 0x20200) (ha : (regAt a).isSome = true) :
    storeWord a v b = sendCompare a v b := by
  rw [storeWord_tide (by unfold blockOf; omega)]
  simp [writeTide, isCompareReg, h1, h2, ha]

theorem hostWord_compare {addr v : Word} {a : Nat} (ha : addr.toNat / 4 * 4 = a) (h1 : 0x20100 ≤ a) (h2 : a < 0x20200)
    (hr : (regAt a).isSome = true) (hm : b.hostMay a = true) : hostWord addr v b = restartCheck a (sendCompare a v.toNat b) := by
  have hi : isMirrored a = false := by
    have hblock : a / 2 ^ 16 = 2 := by omega
    simp only [isMirrored, hblock]
    simp; omega
  rw [hostWord_writes ha hm (by omega) (by omega) (by simp [hi]), hi, writeReg_plain (isEnable_compare h1 h2),
    storeWord_compare h1 h2 hr]
  rfl

theorem compareWriteArrive_arrives {ticks : Nat} {w : CmpWrite} {ws : List CmpWrite} (h : b.tide.cmpWrites = w :: ws) :
    compareWriteArrive ticks b =
      let t := (w.done + ticks) % tideMod
      let b1 := { b with tide := { b.tide with cmpWrites := ws } }
      let b2 := if b1.tideRuns && !b1.hasCome t then b1.advanceTo t else b1
      (holdCompare ((w.addr - rTIDE_CMP_LO) / 0x10) (w.addr % 0x10 / 4) b2).put w.addr w.value := by
  unfold compareWriteArrive
  rw [h]

/-! ### Pins and pulses (R382, R383) -/

section
variable {m : Nat}

/-- A change of a pin is what it makes of that pin as it stands. -/
theorem setPin_congr {f g : TioPin → TioPin} (h : f (b.tioPin m) = g (b.tioPin m)) : b.setPin m f = b.setPin m g := by
  have hl : b.tide.pins.modify m f = b.tide.pins.modify m g := by
    rw [List.modify_eq_set_getElem?, List.modify_eq_set_getElem?]
    cases hp : b.tide.pins[m]? with
    | none => rfl
    | some p =>
      have hpin : b.tioPin m = p := by simp [Block.tioPin, nth, hp]
      simp [← hpin, h]
  rw [Block.setPin, hl, Block.setPin]

theorem pulseEnd_comes {t : Nat} (ht : b.tideRuns = true) (hn : nextOf b (b.tioPin m).ends = some t) (hc : b.hasCome t = false) :
    pulseEnd m b = endPulses m (b.advanceTo t) := by
  simp [pulseEnd, hn, ht, hc]

/-- The one pulse of a pin, its end come, ends. -/
theorem pulseEnd_last {t : Nat} (he : (b.tioPin m).ends = [t]) (hc : b.hasCome t = true) :
    pulseEnd m b = (b.setPin m (fun p => { p with ends := [], acts := none })).setTioLatch m false := by
  have hends : endPulses m b =
      (b.setPin m (fun p => { p with ends := p.ends.filter (fun t => !b.hasCome t), acts := none })).setTioLatch m false :=
    if_pos (by simp [he, hc])
  have hpin := setPin_congr (b := b) (m := m) (f := fun p => { p with ends := p.ends.filter (fun t => !b.hasCome t), acts := none })
    (g := fun p => { p with ends := [], acts := none }) (by simp [he, hc])
  rw [← hpin, ← hends]
  simp [pulseEnd, nextOf, he, hc]

theorem pinLevel_input (h : b.rd (fTIO_CFG_MODE.at m) ≠ 1) : pinLevel b m = (b.tioPin m).ext := if_neg h

/-- The level that the latch asks of an output. -/
def pinDrive (b : Block) (m : Nat) : Bool := b.flag (fTIO_CFG_LATCH.at m) != b.flag (fTIO_CFG_INVERT.at m)

theorem pinLevel_output (h : b.rd (fTIO_CFG_MODE.at m) = 1) :
    pinLevel b m = if b.flag (fTIO_CFG_OD.at m) && pinDrive b m then (b.tioPin m).ext else pinDrive b m := if_pos h

end

/-! ### TIDE_CAP (R384, R385) -/

section
variable {t : Nat} (hs : (nth CapState.reset b.tide.caps n).since = some t) (he : b.flag (fTIDE_CAP_CFG_EN.at n) = true)
  (ht : b.tideRuns = true)

/-- The tick at which the filter accepts a level first seen at t. -/
def capAccepted (b : Block) (n t : Nat) : Nat :=
  (t + (max (b.rd (fTIDE_CAP_CFG_FILT.at n) * 2 ^ b.rd (fTIDE_CAP_CFG_PRE.at n)) 1 - 1)) % tideMod

/-- The machine at that tick. -/
def atAccepted (b : Block) (n t : Nat) : Block := if b.hasCome (capAccepted b n t) then b else b.advanceTo (capAccepted b n t)

/-- The new level is accepted, the tick of the latest edge recorded being `landed`. -/
def capLevelled (b : Block) (n t : Nat) (landed : Option Nat) : Block :=
  let b1 := atAccepted b n t
  { b1 with tide := { b1.tide with
    caps := b1.tide.caps.set n { level := !(nth CapState.reset b.tide.caps n).level, since := none, landed := landed } } }

/-- An edge of the selected kind. -/
def capSelected (b : Block) (n t : Nat) : Bool :=
  let rise := !(nth CapState.reset b.tide.caps n).level
  let e := (atAccepted b n t).rd (fTIDE_CAP_CFG_EDGE.at n)
  (rise && bit e 0) || (!rise && bit e 1)

/-- The first tick and the kind of an edge are recorded, with NEW, or OVR beside it, and the event. -/
def capRecorded (n t : Nat) (rise : Bool) (b : Block) : Block :=
  let b1 := b.wrB (fTIDE_CAP_HI_OVR.at n) (b.flag (fTIDE_CAP_HI_OVR.at n) || b.flag (fTIDE_CAP_HI_NEW.at n))
  let b2 := ((b1.wr (fTIDE_CAP_LO_STAMP_LO.at n) t).wr (fTIDE_CAP_HI_STAMP_HI.at n) (t / 2 ^ 32)).wrB (fTIDE_CAP_HI_RISE.at n) rise
  (b2.wr (fTIDE_CAP_HI_NEW.at n) 1).raise (evTIDE_CAP n)

include hs he ht

theorem tideCap_accepts :
    tideCap n b =
      let c := nth CapState.reset b.tide.caps n
      let b1 := capLevelled b n t (if capSelected b n t then some (atAccepted b n t).now else c.landed)
      if capSelected b n t then capRecorded n t (!c.level) b1 else b1 := by
  unfold tideCap
  dsimp only
  rw [hs]
  exact if_pos (by simp [he, ht])

theorem tideCap_records (h : capSelected b n t = true) :
    tideCap n b = capRecorded n t (!(nth CapState.reset b.tide.caps n).level) (capLevelled b n t (some (atAccepted b n t).now)) := by
  simp [tideCap_accepts hs he ht, h]

theorem tideCap_ignores (h : capSelected b n t = false) :
    tideCap n b = capLevelled b n t (nth CapState.reset b.tide.caps n).landed := by
  simp [tideCap_accepts hs he ht, h]

end

end

/-- Settles O32: a channel by whether a write has reached it in the tick, a pin by its pulses and its mode, a capture by the edge. -/
theorem comparesAndCaptures : Obligations.ComparesAndCaptures := by
  unfold Obligations.ComparesAndCaptures
  refine ⟨fun b => ⟨fun n hn ht => ?channel, fun m hm ht => ⟨fun t hnext hc => ?pulse, fun t he hc => ?lastPulse⟩,
      fun addr v h1 h2 hr hm => ?write, fun ticks w ws hwf hw => ?arrive, fun m hm level => ?edge, fun m hm => ?level⟩,
    fun b n t hn hs he ht => ⟨fun hit => ?records, fun hit => ?ignores⟩⟩
  case channel =>
    intro fires
    have hends {c : Block} (h : tideCmp n b = c) : Ends (.tideCmp n) b c := ends_of_eqIf (fun _ => rfl) (decide_eq_true hn) h
    refine ⟨fun hf he => hends (tideCmp_matches ht hf he), fun h hh => ?_⟩
    obtain rfl := cmpHeld_chan hh
    refine ⟨fun he hv => ?_, fun hw => ⟨fun he hv => ?_, fun hr => ?_⟩⟩
    · obtain ⟨holds, hm⟩ := matchHeld_matches he hv
      exact ⟨heldMatched holds h b, hends (tideCmp_heldMatches ht hh hm), heldMatched_ev holds, heldMatched_sched holds,
        fun i hi hfresh => heldMatched_word_fresh holds hi hfresh, fun i hi hkept => heldMatched_word_kept holds hi hkept⟩
    · exact hends (tideCmp_heldComes ht hh (matchHeld_passes hw) he hv)
    · exact hends (tideCmp_heldRests ht hh (matchHeld_passes hw) hr)
  case pulse => exact ends_of_eqIf (fun _ => rfl) (decide_eq_true hm) (pulseEnd_comes ht hnext hc)
  case lastPulse => exact ends_of_eqIf (fun _ => rfl) (decide_eq_true hm) (pulseEnd_last he hc)
  case write => exact ends_of_eq (fun _ => rfl) (hostWord_compare rfl h1 h2 hr hm)
  case arrive => exact ends_of_eqIf (fun _ => rfl) hwf (compareWriteArrive_arrives hw)
  case edge => exact ends_doneIf (f := tioPinEdge m level) (fun _ => rfl) (decide_eq_true hm)
  case level =>
    refine ⟨pinLevel_input, fun ho => ?_⟩
    rw [pinLevel_output ho]
    exact ⟨fun hod => if_neg (by simp [hod]), fun hod hd => (if_neg (by simp [show pinDrive b m = false from hd])).trans hd,
      fun hod hd => if_pos (by simp [hod, show pinDrive b m = true from hd])⟩
  case records => exact ends_of_eqIf (fun _ => rfl) (decide_eq_true hn) (tideCap_records hs he ht hit)
  case ignores => exact ends_of_eqIf (fun _ => rfl) (decide_eq_true hn) (tideCap_ignores hs he ht hit)

end Sys2Proof.Machine
end

section
/-! PROOFS. The timer commands, and a write of the bell's register (10 R379, R380, R387, R391, R392). -/

namespace Sys2Proof.Machine

section
variable {b : Block} {p : List Byte}

/-! ### What each command's checks let through (R392) -/

theorem mTideArm_meets (hch : leAt p 0 1 < 16) (hw : regWordOk (rTIDE_CMP_CTRL + 0x10 * leAt p 0 1) (leAt p 12 4) = true)
    (hv : bit (leAt p 12 4) 31 = true → 4 ≤ b.ahead (leAt p 4 6) ∧ b.ahead (leAt p 4 6) < 2 ^ 47)
    (ha : aimedAtInput b (leAt p 12 4) = false) : mTideArm.chk p b = none := by
  have hfield : ¬ (decide (16 ≤ leAt p 0 1) || !regWordOk (rTIDE_CMP_CTRL + 0x10 * leAt p 0 1) (leAt p 12 4)) = true := by
    simp [hw, hch]
  have hahead : ¬ (bit (leAt p 12 4) 31 && (decide (b.ahead (leAt p 4 6) < 4) || decide (2 ^ 47 ≤ b.ahead (leAt p 4 6)))) = true := by
    simpa using hv
  exact (if_neg hfield).trans ((if_neg hahead).trans (if_neg (by simp [ha])))

theorem mTideSetPost_meets (hch : leAt p 0 1 < 16) (ht : typeListed (leAt p 4 1) = true) (h3 : bit (leAt p 5 1) 3 = false)
    (h7 : bit (leAt p 5 1) 7 = false) : mTideSetPost.chk p b = none :=
  if_neg (by simp [hch, ht, h3, h7])

theorem mTideSetCapture_meets (hn : leAt p 0 1 < 8)
    (hw : regWordOk (rTIDE_CAP_CFG + 0x10 * leAt p 0 1) (leAt p 4 4) = true) : mTideSetCapture.chk p b = none :=
  if_neg (by simp [hn, hw])

theorem mTioSet_meets (hm : leAt p 0 1 < 8) (hw : regWordOk (rTIO_CFG + 4 * leAt p 0 1) (leAt p 4 4) = true)
    (ha : bitsOf (leAt p 4 4) 1 0 ≠ 0 ∨ pinAimedAt b (leAt p 0 1) = false) : mTioSet.chk p b = none := by
  have hpin : ¬ (bitsOf (leAt p 4 4) 1 0 = 0 ∧ pinAimedAt b (leAt p 0 1) = true) := by
    rintro ⟨h0, h1⟩
    rcases ha with ha | ha
    · exact ha h0
    · simp [ha] at h1
  exact (if_neg (by simp [hm, hw])).trans (if_neg hpin)

/-! ### TIDE_CAP_CFGn by the pin it names (R384) -/

section
variable {n w : Nat}

theorem writeCapCfg_stays (he : b.flag (fTIDE_CAP_CFG_EN.at n) = true)
    (hp : (b.put (rTIDE_CAP_CFG + 0x10 * n) w).rd (fTIDE_CAP_CFG_PIN.at n) = b.rd (fTIDE_CAP_CFG_PIN.at n)) :
    writeCapCfg n w b = b.put (rTIDE_CAP_CFG + 0x10 * n) w :=
  if_pos (by simp [he, hp])

theorem writeCapCfg_turns (h : b.flag (fTIDE_CAP_CFG_EN.at n) = false ∨
      (b.put (rTIDE_CAP_CFG + 0x10 * n) w).rd (fTIDE_CAP_CFG_PIN.at n) ≠ b.rd (fTIDE_CAP_CFG_PIN.at n)) :
    writeCapCfg n w b =
      let b1 := b.put (rTIDE_CAP_CFG + 0x10 * n) w
      { b1 with tide := { b1.tide with
        caps := b1.tide.caps.modify n (fun k =>
          { k with level := pinLevel b1 (b1.rd (fTIDE_CAP_CFG_PIN.at n)), since := none }) } } :=
  if_neg (by rcases h with h | h <;> simp [h])

end

/-! ### BELL_CFG (R387) -/

/-- While the Tide runs, the write reaches the counter two or three ticks after it. -/
theorem bellCfgWrite_runs (ht : b.tideRuns = true) (v : Nat) :
    bellCfgWrite v b = setBellPeriod v (forN (2 + (b.fresh 387).1 % 2) (fun _ => bellingTick) (b.fresh 387).2) :=
  congrArg (setBellPeriod v) (if_pos ht)

theorem writeTide_bellCfg (v : Nat) : writeTide rBELL_CFG v b = bellCfgWrite v b := by
  rw [writeTide, if_neg (by decide), if_pos rfl]

theorem hostReg_bellCfg {v : Word} (hm : b.hostMay rBELL_CFG = true) :
    hostReg rBELL_CFG v b = restartCheck rBELL_CFG (bellCfgWrite v.toNat b) := by
  rw [hostReg_plain hm (by decide) (by decide) (by decide) (by decide) (by decide), storeWord_tide (by decide), writeTide_bellCfg]

end

/-- Settles O33: each command by its checks and its effect, the bell's register by the ticks that its write takes. -/
theorem tideCommands : Obligations.TideCommands := by
  unfold Obligations.TideCommands
  refine fun b => ⟨fun c => ⟨fun hr => ?get, fun hr hch hw hv ha => ?arm, fun hr hch ht h3 h7 => ?post,
    fun hr hn hw => ⟨fun he hp => ?stays, fun h => ?turns⟩, fun hr hm hw ha => ?tio, fun hr => ?bell⟩, fun v hm ht => ?write⟩
  case get => exact replies_of_meets (m := mTideGet) (fun _ => rfl) hr rfl rfl
  case arm => exact replies_of_meets (fun _ => rfl) hr (mTideArm_meets hch hw hv ha) rfl
  case post => exact replies_of_meets (fun _ => rfl) hr (mTideSetPost_meets hch ht h3 h7) rfl
  case stays =>
    exact replies_of_meets (fun _ => rfl) hr (mTideSetCapture_meets hn hw) (congrArg (ok [], ·) (writeCapCfg_stays he hp))
  case turns =>
    exact replies_of_meets (fun _ => rfl) hr (mTideSetCapture_meets hn hw) (congrArg (ok [], ·) (writeCapCfg_turns h))
  case tio => exact replies_of_meets (fun _ => rfl) hr (mTioSet_meets hm hw ha) rfl
  case bell => exact replies_of_meets (m := mBellSet) (fun _ => rfl) hr rfl rfl
  case write => exact ends_of_eq (fun _ => rfl) ((hostReg_bellCfg hm).trans (by rw [bellCfgWrite_runs ht]))

end Sys2Proof.Machine
end

section
/-! PROOFS. Clock sources, the clock monitor, PLLs and fallback (10 R369; 11 R394 to R412, R415; 16 R545). -/

namespace Sys2Proof.Machine

/-! ### What the end of a command leaves as it was (R60, R62) -/

section
variable {α : Type} (q : Block → α) (hproc : ∀ (b : Block) x, q { b with proc := x } = q b)
  (hraise : ∀ (b : Block) n, q (b.raise n) = q b) (hwr : ∀ (b : Block) f v, q (b.wr f v) = q b)
include hproc hraise

theorem noteOverflow_keeps (b : Block) : q b.noteOverflow = q b := by
  unfold Block.noteOverflow
  split
  · split
    · rfl
    · rw [hraise, hproc]
  · exact hproc ..

include hwr

theorem deliver_keeps (b : Block) (r : Reply) : q (b.deliver r) = q b := by
  unfold Block.deliver
  split
  · exact (hwr ..).trans (hproc ..)
  · rw [noteOverflow_keeps q hproc hraise, hproc]

/-- A command's end touches the Proctor, the doorbell and the pending events only. -/
theorem finish_keeps (b : Block) (tok : Tok) (stamp : Nat) (late : Bool) (e : End) : q (b.finish tok stamp late e) = q b := by
  unfold Block.finish
  split
  · rfl
  · split
    · rfl
    · exact deliver_keeps q hproc hraise hwr ..

end

theorem finish_clk (b : Block) (tok : Tok) (stamp : Nat) (late : Bool) (e : End) : (b.finish tok stamp late e).clk = b.clk :=
  finish_keeps (·.clk) (fun _ _ => rfl) (fun _ _ => Block.raise_clk ..) (fun _ _ _ => rfl) b tok stamp late e

section
variable {b : Block}

/-! ### A source is proven (R394, R395, R408, R545) -/

theorem heldFallbacks_none (h : b.clk.fbHeld = []) : heldFallbacks b = b := by
  have hb : { b with clk := { b.clk with fbHeld := [] } } = b := by rw [← h]
  unfold heldFallbacks
  rw [hb, h]
  rfl

theorem heldFallbacks_one {f : Nat} (h : b.clk.fbHeld = [f]) (hon : pllsOn b f ≠ []) :
    heldFallbacks b = fallback f { b with clk := { b.clk with fbHeld := [] } } := by
  unfold heldFallbacks
  rw [h]
  exact if_neg (by rwa [List.isEmpty_iff])

/-- The IRC is proven, and CORE switches on where it is off. -/
def ircProven (b : Block) : Block :=
  let b1 := b.setProven 0 true
  if b1.on dCORE || b1.pwr.sysrst then b1
  else { b1 with pwr := { b1.pwr with rising := Nat.lor b1.pwr.rising (2 ^ dCORE) } }

section
variable {src : Nat} (hp : b.pwr.porn = false) (hon : sourceOn b src = true) (hpr : proven b src = false)
include hp hon hpr

theorem sourceProven_starts :
    sourceProven src b = takeRefs (if src = 0 then heldFallbacks (ircProven b) else b.setProven src true) := by
  by_cases h0 : src = 0
  · subst h0
    exact if_neg (by simp [hp, hon, hpr])
  · simp [sourceProven, hp, hon, hpr, h0]

end

/-! ### A source fails (R403 to R408, R412) -/

theorem activityTrip_fails {src : Nat} (hp : b.pwr.porn = false) (h0 : src ≠ 0) : activityTrip src b = sourceFail src b :=
  (if_neg (by simp [hp])).trans (if_neg h0)

theorem activityTrip_irc (hp : b.pwr.porn = false) : activityTrip 0 b = ircFail b := if_neg (by simp [hp])

/-- The counts of a window kept for the enabled sources. -/
def windowCounts (xa xb mclk : Nat) (b : Block) : Block :=
  let b1 := if sourceOn b 1 then b.wr fCPR_MON_COUNT0_XA xa else b
  let b2 := if sourceOn b1 2 then b1.wr fCPR_MON_COUNT0_XB xb else b1
  if sourceOn b2 3 then b2.wr fCPR_MON_COUNT1_MCLK mclk else b2

theorem monitorWindow_ends (hp : b.pwr.porn = false) (xa xb mclk : Nat) :
    monitorWindow xa xb mclk b =
      let c := windowCounts xa xb mclk b
      if c.clk.windowTainted || !proven c 0 then { c with clk := { c.clk with windowTainted := !proven c 0 } }
      else windowVerdict 3 mclk (windowVerdict 2 xb (windowVerdict 1 xa c)) :=
  if_neg (by simp [hp])

/-! ### Holdover and unlock (R397, R402, R407, R415) -/

section
variable {pll : Nat}

theorem pllHoldover_holds (hp : b.pwr.porn = false) : pllHoldover pll b = b.setHold pll true := if_neg (by simp [hp])

theorem clkForcedSwitch_raises (hp : b.pwr.porn = false) : clkForcedSwitch pll b = b.raise evCLK_FORCED_SWITCH :=
  if_neg (by simp [hp])

theorem pllUnlock_unlocks (hh : bit (b.rd fCPR_CLK_STAT_HOLD) (2 - pll) = true) (hf : b.clk.fbWait.contains pll = false) :
    pllUnlock pll b = failWaiting pll ((b.setLocked pll false).raise (evPLL_UNLOCK pll)) :=
  congrArg (failWaiting pll) (if_pos (by rw [hh, hf]; rfl))

theorem pllUnlock_fails (h : bit (b.rd fCPR_CLK_STAT_HOLD) (2 - pll) = false ∨ b.clk.fbWait.contains pll = true) :
    pllUnlock pll b = failWaiting pll b :=
  congrArg (failWaiting pll) (if_neg (by rcases h with h | h <;> simp only [h] <;> simp))

/-! ### PLL_LOCK in its stages (R369, R396, R401, R407, R411, R415, R545) -/

/-- The PLL is locked and out of holdover. -/
def pllLocked (pll : Nat) (b : Block) : Block := (b.setLocked pll true).setHold pll false

/-- FALLBACK_ACTIVE is raised, and SAFE asked for with FAIL_SAFE at 1. -/
def fallbackActive (b : Block) : Block :=
  let b1 := b.raise evFALLBACK_ACTIVE
  if b1.flag fCPR_CLK_CFG_FAIL_SAFE then { b1 with pwr := { b1.pwr with safeAsked := true } } else b1

/-- The PLLs that a fallback switched: the last one locked ends the switch. -/
def fallbackLocked (pll : Nat) (b : Block) : Block :=
  let rest := b.clk.fbWait.filter (· != pll)
  let b1 := { b with clk := { b.clk with fbWait := rest } }
  if b.clk.fbWait.contains pll && rest.isEmpty then fallbackActive b1 else b1

/-- The PLLs of a switch back: the last one locked ends the fallback. -/
def clearingLocked (pll : Nat) (b : Block) : Block :=
  match b.clk.clearing with
  | [] => b
  | ps =>
    let left := ps.filter (· != pll)
    let b1 := { b with clk := { b.clk with clearing := left } }
    if left.isEmpty then endFallback b1 else b1

/-- A Tide held by a change of family runs on with the APLL. -/
def tideResumed (pll : Nat) (b : Block) : Block :=
  if pll = 0 && b.clk.tideHeld then
    ({ b with clk := { b.clk with tideHeld := false } }.wr fTIDE_STAT_RUNNING 1).wr fTIDE_STAT_FAMILY (b.rd fCPR_APLL_CFG_FAMILY)
  else b

/-- What a PLL's lock ends beside a fallback's switch. -/
def lockEnds (pll : Nat) (b : Block) : Block := tideResumed pll (servedWaiting pll (clearingLocked pll b))

theorem pllLock_stages (hp : b.pwr.porn = false) (hl : locked b pll = false) (hs : proven b (sourceOf pll (actRef b pll)) = true)
    (hc : b.on dCORE = true) :
    pllLock pll b = coreStart (lockEnds pll (fallbackLocked pll (pllLocked pll b))) :=
  if_neg (by simp [hp, hl, hs, hc])

theorem fallbackLocked_none (h : b.clk.fbWait = []) : fallbackLocked pll b = { b with clk := { b.clk with fbWait := [] } } := by
  simp [fallbackLocked, h]

theorem fallbackLocked_last (h : b.clk.fbWait = [pll]) :
    fallbackLocked pll b = fallbackActive { b with clk := { b.clk with fbWait := [] } } := by
  simp [fallbackLocked, h]

theorem fallbackActive_clk : (fallbackActive b).clk = b.clk := by
  unfold fallbackActive
  dsimp only
  split <;> exact Block.raise_clk ..

theorem clearingLocked_none (h : b.clk.clearing = []) : clearingLocked pll b = b := by
  unfold clearingLocked
  rw [h]

theorem clearingLocked_last (h : b.clk.clearing = [pll]) :
    clearingLocked pll b = endFallback { b with clk := { b.clk with clearing := [] } } := by
  unfold clearingLocked
  rw [h]
  simp

theorem servedWaiting_none (h : b.clk.waiting = []) : servedWaiting pll b = b := by
  have hb : { b with clk := { b.clk with waiting := [] } } = b := by rw [← h]
  unfold servedWaiting
  rw [h]
  exact hb

theorem servedWaiting_last {tok : Tok} {stamp : Nat} (h : b.clk.waiting = [(tok, stamp, [pll])]) :
    servedWaiting pll b = { b with clk := { b.clk with waiting := [] } }.finish tok stamp false (ok []) := by
  simp [servedWaiting, h, forL]

theorem tideResumed_none (h : b.clk.tideHeld = false) : tideResumed pll b = b := if_neg (by simp [h])

theorem tideResumed_runs (h : b.clk.tideHeld = true) :
    tideResumed 0 b = ({ b with clk := { b.clk with tideHeld := false } }.wr fTIDE_STAT_RUNNING 1).wr fTIDE_STAT_FAMILY
      (b.rd fCPR_APLL_CFG_FAMILY) := if_pos (by simp [h])

theorem endFallback_clk : (endFallback b).clk = { b.clk with before := none } := rfl

section
variable (ht : b.clk.tideHeld = false)
include ht

theorem lockEnds_none (hc : b.clk.clearing = []) (hw : b.clk.waiting = []) : lockEnds pll b = b := by
  rw [lockEnds, clearingLocked_none hc, servedWaiting_none hw, tideResumed_none ht]

theorem lockEnds_replies {tok : Tok} {stamp : Nat} (hc : b.clk.clearing = []) (hw : b.clk.waiting = [(tok, stamp, [pll])]) :
    lockEnds pll b = { b with clk := { b.clk with waiting := [] } }.finish tok stamp false (ok []) := by
  rw [lockEnds, clearingLocked_none hc, servedWaiting_last hw, tideResumed_none (by rwa [finish_clk])]

theorem lockEnds_clears (hc : b.clk.clearing = [pll]) (hw : b.clk.waiting = []) :
    lockEnds pll b = endFallback { b with clk := { b.clk with clearing := [] } } := by
  rw [lockEnds, clearingLocked_last hc, servedWaiting_none (by rwa [endFallback_clk]), tideResumed_none (by rwa [endFallback_clk])]

end

theorem lockEnds_resumes (ht : b.clk.tideHeld = true) (hc : b.clk.clearing = []) (hw : b.clk.waiting = []) :
    lockEnds 0 b = ({ b with clk := { b.clk with tideHeld := false } }.wr fTIDE_STAT_RUNNING 1).wr fTIDE_STAT_FAMILY
      (b.rd fCPR_APLL_CFG_FAMILY) := by
  rw [lockEnds, clearingLocked_none hc, servedWaiting_none hw, tideResumed_runs ht]

end

end

theorem pllLocked_clk (pll : Nat) (b : Block) : (pllLocked pll b).clk = b.clk := by
  unfold pllLocked Block.setHold Block.setLocked
  rw [Block.wr_clk, Block.wr_clk]

theorem Block.rd_withClk (k : Clocks) (f : Fld) (b : Block) : { b with clk := k }.rd f = b.rd f := rfl

/-- The family that CPR_APLL_CFG asks for does not go by a PLL's lock. -/
theorem pllLocked_family (pll : Nat) (b : Block) : (pllLocked pll b).rd fCPR_APLL_CFG_FAMILY = b.rd fCPR_APLL_CFG_FAMILY := by
  unfold pllLocked Block.setHold Block.setLocked
  rw [Block.wr_rd_other _ _ (by decide) (by decide) (.inl (by decide)),
    Block.wr_rd_other _ _ (by decide) (by decide) (.inl (by decide))]

/-- Settles O29: each source and PLL by its conditions, PLL_LOCK by what each of its stages finds waiting. -/
theorem clockEventsAndLocks : Obligations.ClockEventsAndLocks := by
  unfold Obligations.ClockEventsAndLocks
  refine ⟨fun b hp => ⟨fun src hsrc hon hpr => ?proven, fun src hsrc h0 => ?trip, ⟨?irc, ?ircTrip⟩, fun xa xb mclk hwf => ?window,
    fun pll hpll => ⟨?hold, fun hh hf => ?unlock, fun h => ?unlockFails, ?forced⟩⟩, fun b pll hpll hp hl hs hc => ?lock⟩
  case proven =>
    have hends {c : Block} (h : sourceProven src b = c) : Ends (.sourceProven src) b c :=
      ends_of_eqIf (fun _ => rfl) (decide_eq_true hsrc) h
    have hstart := sourceProven_starts hp hon hpr
    refine ⟨fun h0 => hends (by rw [hstart, if_neg h0]), fun h0 hf => ?_, fun f h0 hf hpll => ?_⟩
    · subst h0
      exact hends (hstart.trans (congrArg takeRefs (heldFallbacks_none (b := ircProven b) hf)))
    · subst h0
      exact hends (hstart.trans (congrArg takeRefs (heldFallbacks_one (b := ircProven b) hf hpll)))
  case trip => exact ends_of_eqIf (fun _ => rfl) (decide_eq_true hsrc) (activityTrip_fails hp h0)
  case irc => exact ends_of_eq (f := fun b => if b.pwr.porn then b else ircFail b) (fun _ => rfl) (if_neg (by simp [hp]))
  case ircTrip => exact ends_of_eqIf (fun _ => rfl) rfl (activityTrip_irc hp)
  case window =>
    have hends {c : Block} (h : monitorWindow xa xb mclk b = c) : Ends (.monitorWindow xa xb mclk) b c :=
      ends_of_eqIf (fun _ => rfl) hwf h
    have hwindow := monitorWindow_ends hp xa xb mclk
    exact ⟨fun ht => hends (hwindow.trans (if_pos ht)), fun ht => hends (hwindow.trans (if_neg (Bool.eq_false_iff.mp ht)))⟩
  case hold => exact ends_of_eqIf (fun _ => rfl) (decide_eq_true hpll) (pllHoldover_holds hp)
  case unlock => exact ends_of_eqIf (fun _ => rfl) (decide_eq_true hpll) (pllUnlock_unlocks hh hf)
  case unlockFails => exact ends_of_eqIf (fun _ => rfl) (decide_eq_true hpll) (pllUnlock_fails h)
  case forced => exact ends_of_eqIf (fun _ => rfl) (decide_eq_true hpll) (clkForcedSwitch_raises hp)
  case lock =>
    intro b1 b2
    have hends {c d : Block} (hf : fallbackLocked pll b1 = c) (hd : lockEnds pll c = d) : Ends (.pllLock pll) b (coreStart d) :=
      ends_of_eqIf (fun _ => rfl) (decide_eq_true hpll)
        ((pllLock_stages hp hl hs hc).trans (congrArg coreStart ((congrArg (lockEnds pll) hf).trans hd)))
    have hclk : b1.clk = b.clk := pllLocked_clk pll b
    rw [← hclk]
    have hplain (hf : b1.clk.fbWait = []) : fallbackLocked pll b1 = b2 := fallbackLocked_none hf
    have hlast (hf : b1.clk.fbWait = [pll]) : fallbackLocked pll b1 = fallbackActive b2 := fallbackLocked_last hf
    refine ⟨fun hf hcl hw ht => ?_, fun hf hcl hw ht => ?_, fun tok stamp hf hcl hw ht => ?_,
      fun hf hcl hw ht => ?_, fun h0 hf hcl hw ht => ?_⟩
    · exact hends (hplain hf) (lockEnds_none (b := b2) ht hcl hw)
    · have hclk2 : (fallbackActive b2).clk = b2.clk := fallbackActive_clk
      exact hends (hlast hf) (lockEnds_none (by rwa [hclk2]) (by rwa [hclk2]) (by rwa [hclk2]))
    · exact hends (hplain hf) (lockEnds_replies (b := b2) ht hcl hw)
    · exact hends (hplain hf) (lockEnds_clears (b := b2) ht hcl hw)
    · subst h0
      rw [← pllLocked_family 0 b, ← Block.rd_withClk b2.clk _ (pllLocked 0 b)]
      exact hends (hplain hf) (lockEnds_resumes (b := b2) ht hcl hw)

end Sys2Proof.Machine
end

section
/-! PROOFS. The clock registers and the clock commands (10 R369; 11 R394 to R398, R411 to R415). -/

namespace Sys2Proof.Machine

section
variable {b : Block} {v : Nat}

/-! ### What a write of each register makes of the clocks (R369, R394 to R396, R411) -/

theorem writeIrcTrim_unproves (h : b.flag fCPR_CLK_STAT_FALLBACK = false) :
    writeIrcTrim v b =
      let b1 := (b.put rCPR_IRC_TRIM v).setProven 0 false
      { b1 with clk := { b1.clk with windowTainted := true } } :=
  if_neg (by simp [h])

/-- CPR_CLK_CFG stored: sources switched off are proven no longer, and proven references come into use. -/
def clkCfgStored (v : Nat) (b : Block) : Block :=
  takeRefs (forL [1, 2, 3] (fun s x => if sourceOn x s then x else x.setProven s false) (b.put rCPR_CLK_CFG v))

theorem writeClkCfg_stores (h : (clkCfgStored v b).flag fCPR_CLK_STAT_FALLBACK = false) : writeClkCfg v b = clkCfgStored v b :=
  if_neg (show ¬ (clkCfgStored v b).flag fCPR_CLK_STAT_FALLBACK = true by simp [h])

theorem writeClkCfg_asks (h : (clkCfgStored v b).flag fCPR_CLK_STAT_FALLBACK = true) :
    writeClkCfg v b = { clkCfgStored v b with clk := { (clkCfgStored v b).clk with restoreAtBound := true } } :=
  if_pos h

theorem writeApllCfg_keeps (h : (b.put rCPR_APLL_CFG v).rd fCPR_APLL_CFG_FAMILY = b.rd fCPR_APLL_CFG_FAMILY) :
    writeApllCfg v b = b.put rCPR_APLL_CFG v := if_pos h

theorem writeApllCfg_changes (h : (b.put rCPR_APLL_CFG v).rd fCPR_APLL_CFG_FAMILY ≠ b.rd fCPR_APLL_CFG_FAMILY) :
    writeApllCfg v b =
      let b1 := b.put rCPR_APLL_CFG v
      let b2 := { b1 with clk := { b1.clk with tideHeld := b1.clk.tideHeld || b1.flag fTIDE_STAT_RUNNING } }
      (retuneApll (b2.setLocked 0 false)).wr fTIDE_STAT_RUNNING 0 := if_neg h

/-! ### A granted word for each register -/

theorem storeWord_cpr {a : Nat} (h : blockOf a = 1) : storeWord a v b = writeCpr a v b := by
  simp [storeWord, h]

theorem writeCpr_clkCfg : writeCpr rCPR_CLK_CFG v b = writeClkCfg v b := if_pos rfl

theorem writeCpr_apllCfg : writeCpr rCPR_APLL_CFG v b = writeApllCfg v b := by
  rw [writeCpr, if_neg (by decide), if_pos rfl]

theorem writeCpr_ircTrim : writeCpr rCPR_IRC_TRIM v b = writeIrcTrim v b := by
  rw [writeCpr, if_neg (by decide), if_neg (by decide), if_neg (by decide), if_pos rfl]

section
variable {v : Word}

theorem hostReg_ircTrim (hm : b.hostMay rCPR_IRC_TRIM = true) :
    hostReg rCPR_IRC_TRIM v b = restartCheck rCPR_IRC_TRIM (writeIrcTrim v.toNat b) := by
  rw [hostReg_plain hm (by decide) (by decide) (by decide) (by decide) (by decide), storeWord_cpr (by decide), writeCpr_ircTrim]

theorem hostReg_clkCfg (hm : b.hostMay rCPR_CLK_CFG = true) :
    hostReg rCPR_CLK_CFG v b = restartCheck rCPR_CLK_CFG (writeClkCfg v.toNat b) := by
  rw [hostReg_plain hm (by decide) (by decide) (by decide) (by decide) (by decide), storeWord_cpr (by decide), writeCpr_clkCfg]

theorem hostReg_apllCfg (hm : b.hostMay rCPR_APLL_CFG = true) :
    hostReg rCPR_APLL_CFG v b = restartCheck rCPR_APLL_CFG (writeApllCfg v.toNat b) := by
  rw [hostReg_plain hm (by decide) (by decide) (by decide) (by decide) (by decide), storeWord_cpr (by decide), writeCpr_apllCfg]

end

/-! ### CLOCK_SET_REF, CLOCK_RESTORE and MEM_CONFIG (R398, R414) -/

section
variable {p : List Byte}

theorem mClockSetRef_writes (tok : Tok) (stamp : Nat) :
    mClockSetRef.eff tok stamp p b =
      let b1 := writeClkCfg (leAt p 0 4) (writeApllCfg (leAt p 8 1) (writeMclkCfg (leAt p 4 4) b))
      replyWhenLocked tok stamp (if b1.clk.restoreAtBound then restoreRefs b1 else b1) := rfl

section
variable {x y z : Nat} (hb : b.clk.before = some (x, y, z))
include hb

theorem mClockRestore_meets (hf : b.flag fCPR_CLK_STAT_FALLBACK = true) (hx : proven b (sourceOf 0 x) = true)
    (hy : proven b (sourceOf 1 y) = true) (hz : proven b (sourceOf 2 z) = true) : mClockRestore.chk p b = none := by
  simp [mClockRestore, hf, hb, hx, hy, hz]

/-- The references kept before the fallback are named, and the switch back is tried at once. -/
theorem mClockRestore_names (tok : Tok) (stamp : Nat) :
    mClockRestore.eff tok stamp p b =
      let b1 := ((b.setCfgRef 0 x).setCfgRef 1 y).setCfgRef 2 z
      replyWhenLocked tok stamp (restoreRefs { b1 with clk := { b1.clk with restoreAtBound := true } }) := by
  simp only [mClockRestore, hb]

end

theorem mMemConfig_meets (hm : b.on dMEM = false) (hw : regWordOk rCPR_MEM_CFG (leAt p 0 4) = true) :
    mMemConfig.chk p b = none :=
  (if_neg (by simp [hm])).trans (if_pos hw)

end

end

/-- Settles O30: each register by what its write makes of the clocks, each command by its checks and its effect. -/
theorem clockRegistersAndCommands : Obligations.ClockRegistersAndCommands := by
  unfold Obligations.ClockRegistersAndCommands
  refine fun b => ⟨fun v hm hf => ?trim, fun v hm => ⟨fun hf => ?cfg, fun hf => ?cfgAsks⟩, fun v hm => ⟨fun h => ?sameFamily,
    fun h => ?newFamily⟩, fun c hr hc => ?setRef, fun c x y z hr hf hb hx hy hz => ?restore, fun c hr => ?status,
    fun c hr hm hw => ?mem⟩
  case trim => exact ends_of_eq (fun _ => rfl) ((hostReg_ircTrim hm).trans (by rw [writeIrcTrim_unproves hf]))
  case cfg => exact ends_of_eq (fun _ => rfl) ((hostReg_clkCfg hm).trans (congrArg _ (writeClkCfg_stores hf)))
  case cfgAsks => exact ends_of_eq (fun _ => rfl) ((hostReg_clkCfg hm).trans (congrArg _ (writeClkCfg_asks hf)))
  case sameFamily => exact ends_of_eq (fun _ => rfl) ((hostReg_apllCfg hm).trans (by rw [writeApllCfg_keeps h]))
  case newFamily => exact ends_of_eq (fun _ => rfl) ((hostReg_apllCfg hm).trans (by rw [writeApllCfg_changes h]))
  case setRef =>
    intro b1 b2 r
    exact replies_of_meets (fun _ => rfl) hr hc ((mClockSetRef_writes _ _).trans Prod.mk.eta.symm)
  case restore =>
    intro b1 r
    exact replies_of_meets (fun _ => rfl) hr (mClockRestore_meets hb hf hx hy hz)
      ((mClockRestore_names hb _ _).trans Prod.mk.eta.symm)
  case status => exact replies_of_meets (m := mClockStatus) (fun _ => rfl) hr rfl (by simp [mClockStatus, plain, words4])
  case mem => exact replies_of_meets (fun _ => rfl) hr (mMemConfig_meets hm hw) rfl

end Sys2Proof.Machine
end

section
/-! PROOFS. Every row and every step: what answers, and at which levels (00 R1; 02 R45 to R48; 18 R576, R577), and the part right after a
power-on reset (16 R539). -/

namespace Sys2Proof.Machine

section
variable {i : Instr} {b : Block}

/-! ### What a row answers -/

/-- Every row changes the machine alone, by a function of it, and answers where its operands name units of the part: each arm is `done`
or `doneIf` of its meaning. -/
theorem exec_answers (i : Instr) : ∃ f : Block → Block, ∀ s, exec i s = doneIf i.wf f s := by
  cases i <;> exact ⟨_, fun _ => rfl⟩

theorem ends_of_wf (h : i.wf = true) : ∃ b', Ends i b b' := by
  obtain ⟨f, hf⟩ := exec_answers i
  exact ⟨f b, ends_doneIf hf h⟩

theorem refused_of_not_wf (h : i.wf = false) (q : List Instr) : exec i { pending := q, blk := b } = .refused .illFormed := by
  obtain ⟨f, hf⟩ := exec_answers i
  rw [hf, h]
  rfl

theorem exec_next_settles {s t : State} (h : exec i s = .next t) : ∃ b', t.blk = settle b' := by
  obtain ⟨f, hf⟩ := exec_answers i
  rw [hf] at h
  cases hw : i.wf with
  | true =>
    simp only [doneIf, hw, if_true] at h
    exact ⟨f s.blk, by rw [← Host.Outcome.next.inj h]⟩
  | false => simp [doneIf, hw] at h

/-- A step answers a machine brought to its levels, whether it takes a command or ticks on an empty queue. -/
theorem step_next_settles {s t : State} (h : step s = .next t) : ∃ b', t.blk = settle b' := by
  unfold step at h
  split at h
  case h_1 => exact ⟨tick s.blk, by rw [← Host.Outcome.next.inj h]⟩
  case h_2 c rest hq => exact exec_next_settles h

/-! ### The part right after a power-on reset -/

theorem reset_releasesIrq : Block.reset.host.hirq = Block.reset.irqDue := by decide

theorem reset_assertsBusy : Block.reset.host.hbusy = Block.reset.busyDue := by decide

theorem reset_holdsNoSource : Block.reset.heldSources = 0 := rfl

/-- Right after a power-on reset the part is at its levels: with PORN low no source is held. -/
theorem reset_settled : Block.reset.Settled := by
  refine ⟨reset_releasesIrq, reset_assertsBusy, fun n hn _ => ?_, rfl, rfl⟩
  rw [reset_holdsNoSource] at hn
  simp at hn

end

/-- Settles O3: what a step answers has been brought to its levels. -/
theorem everyStepKeepsLevelsAndHeldSources : Obligations.EveryStepKeepsLevelsAndHeldSources := by
  unfold Obligations.EveryStepKeepsLevelsAndHeldSources
  intro s t h
  obtain ⟨b', hb⟩ := step_next_settles h
  rw [hb]
  exact settled_settle b'

/-- Settles O2: every row by whether its operands name units of the part. -/
theorem everyCommandAnswers : Obligations.EveryCommandAnswers := by
  unfold Obligations.EveryCommandAnswers
  exact fun i b => ⟨ends_of_wf, refused_of_not_wf⟩

/-- Settles O4: the Tide, the port and the events as reset leaves them, every register by its table, the levels by those of PORN low. -/
theorem resetLeaves : Obligations.ResetLeaves := by
  unfold Obligations.ResetLeaves
  refine ⟨rfl, rfl, rfl, ?stands, rfl, rfl, rfl, ?mode, rfl, rfl, rfl, fun a => rfl, rfl, reset_settled⟩
  case stands => decide
  case mode => decide

end Sys2Proof.Machine
end

section
/-! PROOFS. Changes of mode: the transitions, and SET_MODE as it is judged and taken (16 R531 to R534). -/

namespace Sys2Proof.Machine

section
variable {b : Block} {m rate clk : Nat}

/-! ### The transitions (R531) -/

theorem isPlaying_iff : isPlaying m = true ↔ m = mLITE ∨ m = mPLAY ∨ m = mFULL := by
  simp [isPlaying, or_assoc]

/-- The targets of each mode, among the modes that SET_MODE may name. -/
theorem mayGo_iff (h1 : mSTANDBY ≤ m) (h2 : m ≤ mSELFTEST) :
    b.mayGo m = true ↔
      (b.mode = mSTANDBY ∧ m ≠ mSTANDBY) ∨
      (b.mode = mLISTEN ∧ (m = mSTANDBY ∨ isPlaying m = true)) ∨
      (isPlaying b.mode = true ∧ m ≠ mSELFTEST) ∨
      (b.mode = mSAFE ∧ (m = mSTANDBY ∨ (m = b.pwr.safeHeld ∧ isPlaying m = true))) ∨
      (b.mode = mSELFTEST ∧ m = mSTANDBY) := by
  simp only [Block.mayGo, isPlaying_iff, mSTANDBY, mSELFTEST, mLISTEN, mSAFE, mLITE, mPLAY, mFULL] at *
  split
  case isTrue hstandby => simp [isPlaying_iff, mLITE, mPLAY, mFULL]; omega
  split
  case isTrue hlisten => simp [isPlaying_iff, mLITE, mPLAY, mFULL]; omega
  split
  case isTrue hplays => simp [isPlaying_iff, mLITE, mPLAY, mFULL]; omega
  by_cases hsafe : b.mode = 7
  · simp [isPlaying_iff, mLITE, mPLAY, mFULL, hsafe]
  · simp [hsafe]; omega

/-- Where the operands are listed and neither role, ferry nor fallback forbids a change, the transitions alone decide. -/
theorem modeRefusal_transitions (hs : b.isShadow = false) (he : b.flag fFERRY_CTRL_EN = false)
    (hf : b.flag fCPR_CLK_STAT_FALLBACK = false)
    (hp : isPlaying m = true → clockListed m rate clk = true ∧ rateListed m rate = true ∧ rate % 2 ≠ b.rd fCPR_APLL_CFG_FAMILY)
    (hm : b.sameMode m rate clk = false) (h1 : mSTANDBY ≤ m) (h2 : m ≤ mSELFTEST) :
    b.modeRefusal m rate clk 0 = if b.mayGo m then none else some .notInMode := by
  have hbad : ¬ (m < mSTANDBY ∨ mSELFTEST < m ∨ 0 ≠ 0 ∨ (isPlaying m ∧ !clockListed m rate clk)) := by
    rintro (h | h | h | ⟨h, hc⟩)
    · omega
    · omega
    · exact h rfl
    · simp [(hp h).1] at hc
  have hrate : ¬ (isPlaying m ∧ (!rateListed m rate ∨ rate % 2 = b.rd fCPR_APLL_CFG_FAMILY)) := by
    rintro ⟨h, hr | hr⟩
    · simp [(hp h).2.1] at hr
    · exact (hp h).2.2 hr
  unfold Block.modeRefusal
  dsimp only
  rw [if_neg hbad, if_neg hrate]
  cases hg : b.mayGo m <;> simp [hs, hm, he, hf]

/-! ### SET_MODE taken (R531, R532) -/

/-- Sildacen takes a SET_MODE that meets the common checks. -/
theorem setMode_taken {c : Cmd} {i : CmdInfo} (ht : b.takes = true) (hs : b.serving = true) (hi : cmdInfo 0x0002 = some i)
    (hp : precheck i c.due c.payload b = none) :
    setMode c b = takeMode { cmdTok 0x0002 c b with late := false } (cmdDue c) c.payload b := by
  unfold setMode
  dsimp only
  rw [if_neg (by simp [ht]), if_neg (by simp [hs]), hi]
  dsimp only
  rw [hp]
  rfl

section
variable {tok : Tok} {due : Option Nat} {p : List Byte}

theorem takeMode_refused {r : Reason}
    (hr : (b.foreseen (modeDue due b)).modeRefusal (leAt p 0 1) (leAt p 1 1) (leAt p 2 1) (leAt p 3 1) = some r) :
    takeMode tok due p b = b.finish tok b.now false (refusedWith r) := by
  unfold takeMode
  dsimp only
  rw [hr]

section
variable (hr : (b.foreseen (modeDue due b)).modeRefusal (leAt p 0 1) (leAt p 1 1) (leAt p 2 1) (leAt p 3 1) = none)
include hr

theorem takeMode_same (hm : (b.foreseen (modeDue due b)).sameMode (leAt p 0 1) (leAt p 1 1) (leAt p 2 1) = true) :
    takeMode tok due p b = b.finish tok b.now (due.any b.isPast) (ok []) := by
  unfold takeMode
  dsimp only
  rw [hr]
  exact if_pos hm

theorem takeMode_waits (hm : (b.foreseen (modeDue due b)).sameMode (leAt p 0 1) (leAt p 1 1) (leAt p 2 1) = false)
    (hn : (due.isSome && !due.any b.isPast) = false ∨ b.dueHeld < 256) (hl : b.leads = false) :
    takeMode tok due p b =
      startChange { mode := leAt p 0 1, rate := leAt p 1 1, clk := leAt p 2 1, due := modeDue due b, tok := some tok,
                    late := due.any b.isPast, timed := due.isSome && !due.any b.isPast,
                    src := some (b.foreseen (modeDue due b)).mode } b := by
  have hroom : ¬ ((due.isSome && !due.any b.isPast) && decide (256 ≤ b.dueHeld)) = true := by
    rw [Bool.and_eq_true, decide_eq_true_eq]
    rintro ⟨ht, h256⟩
    rcases hn with h | h
    · simp [h] at ht
    · omega
  unfold takeMode
  dsimp only
  rw [hr]
  dsimp only
  rw [if_neg (by simp [hm]), if_neg hroom, if_neg (by simp [hl])]

end

end

end

/-- Settles O22: SET_MODE by the refusal, the present mode, or the change that waits. -/
theorem setModeIsJudgedAndTaken : Obligations.SetModeIsJudgedAndTaken := by
  unfold Obligations.SetModeIsJudgedAndTaken
  intro b c i ht hs hi hp m rate clk t f late timed tok
  have hends {d : Block} (h : takeMode tok (cmdDue c) c.payload b = d) : Ends (.setMode c) b d :=
    ends_of_eq (fun _ => rfl) ((setMode_taken ht hs hi hp).trans h)
  refine ⟨fun r hr => hends (takeMode_refused hr), fun hr hm => hends (takeMode_same hr hm), fun hr hm hn hl => ?_⟩
  exact hends (takeMode_waits hr hm hn hl)

/-- Settles O23: with the other premises of R531 met, a target is accepted where the present mode lists it. -/
theorem modeTransitions : Obligations.ModeTransitions := by
  unfold Obligations.ModeTransitions
  intro b m rate clk hs he hf hp hm h1 h2
  rw [modeRefusal_transitions hs he hf hp hm h1 h2, ← mayGo_iff h1 h2]
  cases b.mayGo m <;> simp

end Sys2Proof.Machine
end

section
/-! PROOFS. Domains, supply and junction, the resets and the watchdog (11 R398, R400; 16 R528, R529, R539 to R545; 18 R579). -/

namespace Sys2Proof.Machine

section
variable {b : Block}

/-! ### A domain comes on, or faults (R528, R529) -/

theorem domainGood_rising {d : Nat} (h : bit b.pwr.rising d = true) :
    domainGood d b =
      let b1 := (clearDomain d (notRising d b)).setOn d true
      let b2 := if d = dMEM then { b1 with pwr := { b1.pwr with training := b1.clk.memSize != 0 } } else b1
      let b3 := forL enableOrder (resumeEnable d) b2
      let b4 := if d = dBDSP then arriveIrqs b3 else if d = dCOMM then arriveTx b3 else b3
      if d = dCORE then coreStart b4 else b4 :=
  if_neg (by simp [h])

/-- The fault of a domain beside AON and CORE that is on or coming on. -/
theorem pdFault_on {d : Nat} (hd : 1 < d) (hp : b.pwr.porn = false) (h : (b.on d || bit b.pwr.rising d) = true) :
    pdFault d b =
      let off := switchOff d b
      let bad := primaryFails
        ((off.wr fCPR_PD_STAT_FAULT (putBits (off.rd fCPR_PD_STAT_FAULT) d d 1)).raise evPD_FAULT)
      if bit (mandatory b b.effMode) d then enterFault bad else bad := by
  have h0 : d ≠ 0 := by omega
  have h1 : d ≠ dCORE := by simp only [dCORE]; omega
  unfold pdFault
  rw [if_neg (by simp [hp, h0, h])]
  exact if_neg h1

/-! ### The supply and the junction (R543) -/

theorem thermalWarn_stores (hp : b.pwr.porn = false) {temp : Int} (hlo : -128 ≤ temp) (hhi : temp ≤ 127) :
    thermalWarn temp b = b.wr fCPR_THERM_TEMP (unsx 8 temp) := by
  have hc : clamp (-128) 127 temp = temp := by
    unfold clamp
    omega
  rw [thermalWarn, if_neg (by simp [hp]), hc]

theorem thermalTrip_below (hp : b.pwr.porn = false) (h : b.rdS fCPR_THERM_TEMP < 115) :
    thermalTrip b = enterFault (primaryFails ((b.wr fCPR_THERM_TEMP 115).raise evTHERMAL_TRIP)) := by
  rw [thermalTrip, if_neg (by simp [hp]), if_pos h]

theorem thermalTrip_above (hp : b.pwr.porn = false) (h : 115 ≤ b.rdS fCPR_THERM_TEMP) :
    thermalTrip b = enterFault (primaryFails (b.raise evTHERMAL_TRIP)) := by
  rw [thermalTrip, if_neg (by simp [hp]), if_neg (by omega)]

/-! ### Resets by pin and command, and the watchdog (R539 to R545) -/

theorem mReset_meets {p : List Byte} (h : leAt p 0 1 ≤ 2) : mReset.chk p b = none := if_neg (by omega)

theorem mReset_system {p : List Byte} (h : leAt p 0 1 = 0) (tok : Tok) (stamp : Nat) :
    mReset.eff tok stamp p b = (.later, systemReset fCPR_RST_CAUSE_COMMAND false b) := by
  simp only [mReset, h]

theorem mReset_engine {p : List Byte} (h : leAt p 0 1 = 1) (tok : Tok) (stamp : Nat) :
    mReset.eff tok stamp p b =
      let b' := abortHere 0x1F b
      (.later, { b' with proc := { b'.proc with engineReset := b'.proc.engineReset ++ [(tok, stamp)] } }) := by
  simp only [mReset, h]

theorem mReset_proctor {p : List Byte} (h : leAt p 0 1 = 2) (tok : Tok) (stamp : Nat) :
    mReset.eff tok stamp p b = (.later, restartProctor b) := by
  simp only [mReset, h]

theorem wdogSecond_expires (ha : b.pwr.wdogArmed = true) (hw : b.pwr.wdog ≠ 0) :
    wdogSecond b = if b.flag fCPR_RST_CFG_WDOG_SYS then systemReset fCPR_RST_CAUSE_WDOG_SYS false b else restartProctor b :=
  if_pos (by simp [ha, hw])

/-! ### What a system reset leaves (R539 to R541) -/

/-- A machine that differs from another in its registers only. -/
def SameButRegs (b c : Block) : Prop := ∃ rs, c = { b with regs := rs }

theorem SameButRegs.refl (b : Block) : SameButRegs b b := ⟨b.regs, rfl⟩

section
variable {c : Block} (h : SameButRegs b c)
include h

theorem SameButRegs.wr (f : Fld) (v : Nat) : SameButRegs b (c.wr f v) := by
  obtain ⟨rs, rfl⟩ := h
  exact ⟨_, rfl⟩

theorem SameButRegs.setOn (d : Nat) (v : Bool) : SameButRegs b (c.setOn d v) := h.wr _ _

theorem SameButRegs.setProven {src : Nat} (hs : src ≠ 4) (v : Bool) : SameButRegs b (c.setProven src v) := by
  rw [Block.setProven, if_neg hs]
  exact h.wr _ _

theorem SameButRegs.foldl {α : Type} {f : Block → α → Block} {l : List α}
    (hf : ∀ x ∈ l, ∀ c, SameButRegs b c → SameButRegs b (f c x)) : SameButRegs b (l.foldl f c) := by
  induction l generalizing c with
  | nil => exact h
  | cons x l ih => exact ih (hf x (by simp) c h) (fun y hy => hf y (by simp [hy]))

theorem SameButRegs.applyFuses : SameButRegs b (applyFuses c) := by
  refine SameButRegs.foldl (((h.wr ..).wr ..).wr ..) fun n _ d hd => ?_
  exact (hd.wr ..).wr ..

theorem SameButRegs.ite {d : Block} (hd : SameButRegs b d) (p : Prop) [Decidable p] : SameButRegs b (if p then d else c) := by
  split
  · exact hd
  · exact h

theorem SameButRegs.coreOn : SameButRegs b (if proven c 0 then c.setOn dCORE true else c) := h.ite (h.setOn ..) _

theorem SameButRegs.fused : SameButRegs b (if c.pwr.fusesLoaded then Machine.applyFuses c else c) := h.ite h.applyFuses _

end

/-- Everything but the registers after a system reset of a machine whose flash and slate have stopped short. -/
def resetKeeping (hold : Bool) (b : Block) : Block :=
  { Block.reset with
    free := b.free
    pwr := { Power.reset with
      porn := false, sysrst := hold, flash := b.pwr.flash, fusesLoaded := b.pwr.fusesLoaded, lowCore := b.pwr.lowCore }
    proc := { Proctor.reset with gen := b.proc.gen + 1 }
    clk := { Clocks.reset with backupOsc := b.clk.backupOsc }
    slate := { Slate.reset with mem := b.slate.mem, hurt := b.slate.hurt, steered := b.slate.steered } }

/-- A system reset touches beside the registers what reset and AON hold alone. -/
theorem systemReset_sameButRegs (cause : Fld) (hold : Bool) :
    SameButRegs (resetKeeping hold (tornFlash (tearSlice b))) (systemReset cause hold b) := by
  have hkept : SameButRegs (resetKeeping hold (tornFlash (tearSlice b)))
      (forL aonFields (fun f n => n.wr f ((tornFlash (tearSlice b)).rd f)) (resetKeeping hold (tornFlash (tearSlice b)))) :=
    (SameButRegs.refl _).foldl fun f _ d hd => hd.wr ..
  have hproven := ((hkept.wr cause 1).wr fFERRY_CTRL_ROLE ((tornFlash (tearSlice b)).rd fFERRY_STAT_STRAP)).foldl (l := [1, 2, 3])
    (f := fun n s => if sourceOn n s then n else n.setProven s false)
    fun s hs d hd => (hd.setProven (by rintro rfl; simp at hs) false).ite hd _
  exact hproven.coreOn.fused

theorem tornFlash_idle (h : b.pwr.update.waiting = none) : tornFlash b = b := by
  unfold tornFlash
  dsimp only
  rw [h]

theorem tearSlice_idle (h : b.slate.slice = none) : tearSlice b = b := by
  unfold tearSlice
  rw [h]

/-- A slice torn touches slate and the free values only. -/
theorem tearSlice_keeps {α : Type} (q : Block → α) (h : ∀ (b : Block) s n, q { b with slate := s, free := n } = q b) (b : Block) :
    q (tearSlice b) = q b := by
  unfold tearSlice
  split
  · rfl
  · exact (h ..).trans (forN_keeps q (fun i b => h ..) 64 b)

theorem tearSlice_pwr : (tearSlice b).pwr = b.pwr := tearSlice_keeps (·.pwr) (fun _ _ _ => rfl) b

theorem tearSlice_proc : (tearSlice b).proc = b.proc := tearSlice_keeps (·.proc) (fun _ _ _ => rfl) b

/-- A flash operation torn touches the power state and the free values only. -/
theorem tornFlash_keeps {α : Type} (q : Block → α) (h : ∀ (b : Block) s n, q { b with pwr := s, free := n } = q b) (b : Block) :
    q (tornFlash b) = q b := by
  unfold tornFlash
  dsimp only
  split
  · rfl
  · split
    · exact h b _ _
    · split <;> exact h b _ _

theorem tornFlash_slate : (tornFlash b).slate = b.slate := tornFlash_keeps (·.slate) (fun _ _ _ => rfl) b

theorem tornFlash_proc : (tornFlash b).proc = b.proc := tornFlash_keeps (·.proc) (fun _ _ _ => rfl) b

end

/-- Settles O24: each row by its conditions. -/
theorem powerEvents : Obligations.PowerEvents := by
  unfold Obligations.PowerEvents
  refine fun b => ⟨fun d hd hr => ?good, fun d hd h1 hp ho => ?fault, fun ht => ⟨?trained, ?trainFails⟩,
    fun hp => ⟨fun temp hlo hhi => ?warn, fun h => ?tripBelow, fun h => ?tripAbove, ?brownout⟩⟩
  case good => exact ends_of_eqIf (fun _ => rfl) (decide_eq_true hd) (domainGood_rising hr)
  case fault => exact ends_of_eqIf (fun _ => rfl) (decide_eq_true hd) (pdFault_on h1 hp ho)
  case trained => exact ends_of_eq (f := lpddrTrained) (fun _ => rfl) (if_pos ht)
  case trainFails => exact ends_of_eq (f := lpddrTrainFail) (fun _ => rfl) (if_pos ht)
  case warn => exact ends_of_eq (fun _ => rfl) (thermalWarn_stores hp hlo hhi)
  case tripBelow => exact ends_of_eq (fun _ => rfl) (thermalTrip_below hp h)
  case tripAbove => exact ends_of_eq (fun _ => rfl) (thermalTrip_above hp h)
  case brownout => exact ends_of_eq (f := brownoutWarn) (fun _ => rfl) (if_neg (by simp [hp]))

/-- Settles O25: each row by its conditions and scope; what a system reset leaves, by all it touches beside the registers. -/
theorem resetsAndWatchdog : Obligations.ResetsAndWatchdog := by
  unfold Obligations.ResetsAndWatchdog
  refine ⟨fun b => ⟨fun brownout => ?powerOn, fun hp role bootsel => ?release, fun hp => ⟨?pin, ?core, ?pinRelease⟩,
    fun c hr => ⟨fun h => ?system, fun h => ?engine, fun h => ?proctor⟩, fun ha hw => ?first,
    fun ha hw => ⟨fun hs => ?secondSystem, fun hs => ?secondProctor⟩⟩, fun b cause hold => ?leaves⟩
  case powerOn => exact ends_done (f := powerOnReset brownout) (fun _ => rfl)
  case release => exact ends_of_eq (f := pornRelease role bootsel) (fun _ => rfl) (if_neg (by simp [hp]))
  case pin => exact ends_of_eq (f := systemResetPin false) (fun _ => rfl) (if_neg (by simp [hp]))
  case core => exact ends_of_eq (f := systemResetPin true) (fun _ => rfl) (if_neg (by simp [hp]))
  case pinRelease => exact ends_of_eq (f := systemResetRelease) (fun _ => rfl) (if_neg (by simp [hp]))
  case system => exact replies_of_meets (fun _ => rfl) hr (mReset_meets (by omega)) (mReset_system h _ _)
  case engine => exact replies_of_meets (fun _ => rfl) hr (mReset_meets (by omega)) (mReset_engine h _ _)
  case proctor => exact replies_of_meets (fun _ => rfl) hr (mReset_meets (by omega)) (mReset_proctor h _ _)
  case first => exact ends_of_eq (f := wdogFirst) (fun _ => rfl) (if_pos (by simp [ha, hw]))
  case secondSystem => exact ends_of_eq (fun _ => rfl) ((wdogSecond_expires ha hw).trans (if_pos hs))
  case secondProctor => exact ends_of_eq (fun _ => rfl) ((wdogSecond_expires ha hw).trans (if_neg (by simp [hs])))
  case leaves =>
    intro r
    obtain ⟨rs, hr⟩ := systemReset_sameButRegs (b := b) cause hold
    have hflash : b.pwr.update.waiting = none → (tornFlash (tearSlice b)).pwr.flash = b.pwr.flash := fun h => by
      rw [tornFlash_idle (by rwa [tearSlice_pwr]), tearSlice_pwr]
    have hmem : b.slate.slice = none → (tornFlash (tearSlice b)).slate.mem = b.slate.mem := fun h => by
      rw [tornFlash_slate, tearSlice_idle h]
    have hgen : (tornFlash (tearSlice b)).proc.gen = b.proc.gen := by rw [tornFlash_proc, tearSlice_proc]
    have hr' : r = { resetKeeping hold (tornFlash (tearSlice b)) with regs := rs } := hr
    rw [hr', ← hgen]
    exact ⟨rfl, rfl, rfl, rfl, rfl, rfl, rfl, rfl, rfl, rfl, rfl, rfl, hflash, hmem, rfl⟩

end Sys2Proof.Machine
end

section
/-! PROOFS. Firmware updates by command, by the flash operations they start, and by DFU (12 R437; 16 R538, R550, R551, R554). -/

namespace Sys2Proof.Machine

section
variable {b : Block} {p : List Byte} {tok : Tok}

/-! ### What each command's checks let through (R554) -/

section
variable (hw : writing b = true) (hn : b.pwr.update.waiting = none)
include hw hn

theorem mUpdateData_meets (hl : leAt p 0 4 + (p.length - 4) ≤ b.pwr.update.length) : mUpdateData.chk p b = none := by
  have hlen : ¬ b.pwr.update.length < leAt p 0 4 + (p.length - 4) := by omega
  simp [mUpdateData, hw, hn, hlen]

theorem mUpdateEnd_meets : mUpdateEnd.chk p b = none := by
  simp [mUpdateEnd, hw, hn]

end

theorem mUpdateActivate_meets (hm : b.mode = mUPDATE) (hs : b.pwr.update.state = 4) : mUpdateActivate.chk p b = none :=
  if_pos ⟨hm, hs⟩

theorem mUpdateCancel_meets (hm : b.mode = mUPDATE) (hc : b.pwr.changes = []) : mUpdateCancel.chk p b = none :=
  if_neg (by simp [hm, hc])

/-! ### A flash operation ends (R550, R554) -/

section
variable (hw : b.pwr.update.waiting = some (tok, p))
include hw

theorem flashDone_erase (ho : tok.op = 0x0F00) (error : Bool) :
    flashDone error b = eraseDone error tok ((if error then tornFlash b else b).setUpdate (fun u => { u with waiting := none })) := by
  simp only [flashDone, hw, ho, if_true]

theorem flashDone_program (ho : tok.op = 0x0F01) (error : Bool) :
    flashDone error b =
      programDone error tok p ((if error then tornFlash b else b).setUpdate (fun u => { u with waiting := none })) := by
  simp [flashDone, hw, ho]

theorem flashDone_header (ho : tok.op = 0x0F02) (error : Bool) :
    flashDone error b =
      headerDone error tok p ((if error then tornFlash b else b).setUpdate (fun u => { u with waiting := none })) := by
  simp [flashDone, hw, ho]

/-- An erase cut short has erased a free number of its sectors. -/
theorem tornFlash_erase (ho : tok.op = 0x0F00) :
    tornFlash b =
      eraseFlash (slotBase b.pwr.update.target) ((b.fresh 554).1 % (sectorsFor b.pwr.update.length + 1)) (b.fresh 554).2 := by
  simp only [tornFlash, hw, ho, if_true]

/-- A programming cut short has programmed a free number of its bytes. -/
theorem tornFlash_program (ho : tok.op = 0x0F01) :
    tornFlash b =
      programFlash (slotBase b.pwr.update.target + 0x1000 + leAt p 0 4) ((p.drop 4).take (b.fresh 554).1) (b.fresh 554).2 := by
  simp [tornFlash, hw, ho]

theorem flashDone_eraseTorn (ho : tok.op = 0x0F00) :
    flashDone true b =
      let b1 := b.setUpdate (fun u => { u with waiting := none })
      ((eraseFlash (slotBase b.pwr.update.target) ((b1.fresh 554).1 % (sectorsFor b.pwr.update.length + 1))
        ((b1.fresh 554).2.setUpdate (fun u => { u with state := 0 }))).raise evFLASH_ERR).finish tok b.now false
        (failedWith .aborted []) := by
  rw [flashDone_erase hw ho, if_pos rfl, tornFlash_erase hw ho]
  rfl

theorem flashDone_programTorn (ho : tok.op = 0x0F01) :
    flashDone true b =
      let b1 := b.setUpdate (fun u => { u with waiting := none })
      ((programFlash (slotBase b.pwr.update.target + 0x1000 + leAt p 0 4) ((p.drop 4).take (b1.fresh 554).1)
        (b1.fresh 554).2).raise evFLASH_ERR).finish tok b.now false (failedWith .aborted []) := by
  rw [flashDone_program hw ho, if_pos rfl, tornFlash_program hw ho]
  rfl

end

/-! ### DFU (R437, R538, R554) -/

section
variable (hu : usbOn b = true)
include hu

theorem dfuDetach_goes (hs : b.serving = true) :
    dfuDetach b =
      if b.flag fFERRY_CTRL_EN || b.mode == mBOOT || b.mode == mSELFTEST || b.mode == mFAULT || b.pwr.update.waiting.isSome then
        dfuStall true b
      else
        let b' := dfuStall false (enterUpdate b)
        b'.setUpdate (fun _ => { freshUpdate b' 0 0 with dfu := some [] }) :=
  if_neg (by simp [hu, hs])

theorem dfuManifest_none (hd : b.pwr.update.dfu = none) : dfuManifest b = dfuStall true b := by
  rw [dfuManifest, if_neg (by simp [hu]), hd]

theorem dfuDownload_none (hd : b.pwr.update.dfu = none) (bytes : List Byte) : dfuDownload bytes b = dfuStall true b := by
  rw [dfuDownload, if_neg (by simp [hu]), hd]

section
variable {got : List Byte} (hd : b.pwr.update.dfu = some got)
include hd

theorem dfuDownload_stalls {bytes : List Byte} (h : 3 ≤ b.pwr.update.state ∨ 4096 < bytes.length) :
    dfuDownload bytes b = dfuStall true b := by
  rw [dfuDownload, if_neg (by simp [hu]), hd]
  refine if_pos ?_
  rcases h with h | h <;> simp [h]

/-- A download within its state, its block and its length. -/
theorem dfuDownload_goes {bytes : List Byte} (hs : b.pwr.update.state < 3) (hl : bytes.length ≤ 4096)
    (hf : (got ++ bytes).length < 104 ∨
      (lengthOk b (leAt (got ++ bytes) 0 4) = true ∧ (got ++ bytes).length ≤ leAt (got ++ bytes) 0 4 + 104)) :
    dfuDownload bytes b =
      let b1 := dfuStall false (dfuFields (got ++ bytes) b)
      let b2 := programFlash (slotBase b1.pwr.update.target + 0x1000 + (got.length - 104)) (bytes.drop (104 - got.length)) b1
      b2.setUpdate (fun u => { u with dfu := some (got ++ bytes) }) := by
  have hlen : (decide (104 ≤ (got ++ bytes).length) &&
      (!lengthOk b (leAt (got ++ bytes) 0 4) || decide (leAt (got ++ bytes) 0 4 + 104 < (got ++ bytes).length))) = false := by
    rcases hf with h | ⟨hok, hle⟩
    · rw [decide_eq_false (by omega), Bool.false_and]
    · rw [hok, decide_eq_false (p := _ < _) (by omega), Bool.not_true, Bool.or_false, Bool.and_false]
  rw [dfuDownload, if_neg (by simp [hu]), hd]
  dsimp only
  rw [hlen, decide_eq_false (by omega), decide_eq_false (by omega)]
  rfl

theorem dfuManifest_verifies (hs : b.pwr.update.state = 2) :
    dfuManifest b =
      let header := programFlash (slotBase b.pwr.update.target) (headerPage b.pwr.update got) b
      if targetOk b (got.take 104) then dfuStall false (header.setUpdate (fun u => { u with state := 4 })) else dfuStall true b := by
  rw [dfuManifest, if_neg (by simp [hu]), hd]
  simp only [hs, true_and]

end

end

end

/-- Settles O28: each command by its checks and its effect, a flash operation by the command it ends, a DFU request by the state it
finds. -/
theorem firmwareUpdates : Obligations.FirmwareUpdates := by
  unfold Obligations.FirmwareUpdates
  refine ⟨fun b c => ⟨fun hr hc => ?begin, fun hw hn => ⟨fun hr hl => ?data, fun hr => ?finished⟩, fun tok p hw => ?flash,
    fun hr hm hs => ?activate, fun hr hm hc => ?cancel, fun hr => ?status⟩,
    fun b hu => ⟨fun hs => ⟨fun hb => ?detachStalls, fun hb => ?detach⟩, fun hd => ⟨?noManifest, fun bytes => ?noDownload⟩,
      fun got hd => ⟨fun bytes => ⟨fun hs hl hf => ?download, fun h => ?downloadStalls⟩, fun hs => ?manifest⟩⟩⟩
  case begin => exact replies_of_meets (fun _ => rfl) hr hc rfl
  case data => exact replies_of_meets (fun _ => rfl) hr (mUpdateData_meets hw hn hl) rfl
  case finished => exact replies_of_meets (fun _ => rfl) hr (mUpdateEnd_meets hw hn) rfl
  case flash =>
    intro b1 u base k b2
    have hends {error : Bool} {d : Block} (h : flashDone error b = d) : Ends (.flashOperationDone error) b d :=
      ends_of_eq (fun _ => rfl) h
    refine ⟨fun ho => ⟨hends (flashDone_erase hw ho false), hends (flashDone_eraseTorn hw ho)⟩,
      fun ho => ⟨hends (flashDone_program hw ho false), hends (flashDone_programTorn hw ho)⟩,
      fun ho => hends (flashDone_header hw ho false)⟩
  case activate => exact replies_of_meets (fun _ => rfl) hr (mUpdateActivate_meets hm hs) rfl
  case cancel => exact replies_of_meets (fun _ => rfl) hr (mUpdateCancel_meets hm hc) rfl
  case status => exact replies_of_meets (m := mUpdateStatus) (fun _ => rfl) hr rfl rfl
  case detachStalls => exact ends_of_eq (fun _ => rfl) ((dfuDetach_goes hu hs).trans (if_pos hb))
  case detach => exact ends_of_eq (fun _ => rfl) ((dfuDetach_goes hu hs).trans (if_neg (by simpa using hb)))
  case noManifest => exact ends_of_eq (fun _ => rfl) (dfuManifest_none hu hd)
  case noDownload => exact ends_of_eq (fun _ => rfl) (dfuDownload_none hu hd bytes)
  case download => exact ends_of_eq (fun _ => rfl) (dfuDownload_goes hu hd hs hl hf)
  case downloadStalls => exact ends_of_eq (fun _ => rfl) (dfuDownload_stalls hu hd h)
  case manifest => exact ends_of_eq (fun _ => rfl) (dfuManifest_verifies hu hd hs)

end Sys2Proof.Machine
end

section
/-! PROOFS. The serial event ports: characters sent and decided, flow bytes, the parser and the commands (12 R417 to R430, R438, R441). -/

namespace Sys2Proof.Machine

/-! ### The bits of a character and its samples (R417, R418) -/

/-- Sixteen samples of each bit: sample i of bit k shows that bit. -/
theorem nth_samples {i : Nat} (hi : i < 16) (l : List Bool) (k : Nat) :
    nth false (l.flatMap (List.replicate 16)) (16 * k + i) = nth false l k := by
  induction l generalizing k with
  | nil => rfl
  | cons x l ih =>
    rw [List.flatMap_cons]
    cases k with
    | zero =>
      rw [nth, List.getD_append _ _ _ _ (by simpa using hi), Nat.mul_zero, Nat.zero_add]
      exact List.getD_replicate _ hi
    | succ k =>
      have hk : 16 * (k + 1) + i - (List.replicate 16 x).length = 16 * k + i := by simp; omega
      rw [nth, List.getD_append_right _ _ _ _ (by simp; omega), hk]
      exact ih k

/-- The majority of samples 7, 8 and 9 is the bit itself. -/
theorem bitAt_samples (l : List Bool) (k : Nat) : bitAt (l.flatMap (List.replicate 16)) k = nth false l k := by
  simp only [bitAt, nth_samples (i := 7) (by decide), nth_samples (i := 8) (by decide), nth_samples (i := 9) (by decide),
    Bool.and_self, Bool.or_self]

theorem samples_length (l : List Bool) : (l.flatMap (List.replicate 16)).length = 16 * l.length := by
  induction l with
  | nil => rfl
  | cons x l ih => simp [ih]; omega

/-- After a high level the first sample of the start bit is that of the character. -/
theorem huntStart_samples (l : List Bool) :
    huntStart ((false :: l).flatMap (List.replicate 16)).length true ((false :: l).flatMap (List.replicate 16)) =
      (false :: l).flatMap (List.replicate 16) := by
  have hlen : ((false :: l).flatMap (List.replicate 16)).length = 16 * l.length + 15 + 1 := by
    rw [samples_length]
    simp; omega
  have hfall : huntFall true ((false :: l).flatMap (List.replicate 16)) = (false :: l).flatMap (List.replicate 16) := rfl
  have hbit : bitAt ((false :: l).flatMap (List.replicate 16)) 0 = false := bitAt_samples _ 0
  rw [hlen, huntStart]
  simp only [hfall, hbit, Bool.false_eq_true, if_false]

section
variable {f : SerFormat} {c : Nat}

theorem frame_start : ∃ l, f.frame c = false :: l := ⟨_, rfl⟩

theorem frame_length : (f.frame c).length = f.length := by
  unfold SerFormat.frame SerFormat.length
  by_cases hp : f.parity = 0
  · simp [hp, b2n]; omega
  · simp [hp, b2n]; omega

theorem nth_frame_data {i : Nat} (hi : i < f.bits) : nth false (f.frame c) (1 + i) = bit c i := by
  have hlen : i < ((List.range f.bits).map (bit c)).length := by simpa using hi
  unfold SerFormat.frame
  rw [List.append_assoc, List.append_assoc, Nat.add_comm, List.singleton_append]
  rw [nth, List.getD_cons_succ, List.getD_append _ _ _ _ hlen]
  simp [List.getD, hi]

theorem nth_frame_parity (hp : f.parity ≠ 0) : nth false (f.frame c) (1 + f.bits) = f.parityBit c := by
  unfold SerFormat.frame
  rw [List.append_assoc, nth, List.getD_append_right _ _ _ _ (by simp)]
  simp [hp, Nat.add_comm]

theorem nth_frame_stop (hs : 1 ≤ f.stops) : nth false (f.frame c) (f.length - 1) = true := by
  obtain ⟨n, hn⟩ : ∃ n, f.stops = n + 1 := ⟨f.stops - 1, by omega⟩
  have hlen : ([false] ++ (List.range f.bits).map (bit c) ++ (if f.parity = 0 then [] else [f.parityBit c])).length =
      f.length - 1 - n := by
    unfold SerFormat.length
    by_cases hp : f.parity = 0 <;> simp [hp, b2n, hn] <;> omega
  have hn' : n ≤ f.length - 1 := by unfold SerFormat.length; omega
  unfold SerFormat.frame
  rw [nth, List.getD_append_right _ _ _ _ (by rw [hlen]; omega), hlen, hn]
  exact List.getD_replicate _ (by omega)

/-- The bits of a number below a place spell it. -/
theorem foldl_bits (n : Nat) : (List.range n).foldl (fun d i => d + b2n (bit c i) * 2 ^ i) 0 = c % 2 ^ n := by
  induction n with
  | zero => simp [Nat.mod_one]
  | succ n ih =>
    rw [List.range_succ, List.foldl_append, ih, Nat.mod_pow_succ]
    have hbit : b2n (bit c n) = c / 2 ^ n % 2 := by
      unfold b2n bit
      rcases Nat.mod_two_eq_zero_or_one (c / 2 ^ n) with h | h <;> simp [h]
    simp [hbit, Nat.mul_comm]

theorem bit_mod {n i : Nat} (h : i < n) : bit (c % 2 ^ n) i = bit c i := by
  rw [bit_eq_bitsOf, bit_eq_bitsOf, bitsOf_mod h]

theorem parityBit_mod : f.parityBit (c % 2 ^ f.bits) = f.parityBit c := by
  refine List.foldl_ext _ _ _ fun p i hi => ?_
  rw [bit_mod (List.mem_range.mp hi)]

/-- What is sent is what the receiver decides (R417, R418). -/
theorem decideChar_frame (hs : 1 ≤ f.stops) :
    decideChar f true ((f.frame c).flatMap (List.replicate 16)) = some ⟨c % 2 ^ f.bits, false, false, true⟩ := by
  have hhunt : huntStart ((f.frame c).flatMap (List.replicate 16)).length true ((f.frame c).flatMap (List.replicate 16)) =
      (f.frame c).flatMap (List.replicate 16) := by
    obtain ⟨l, hl⟩ := frame_start (f := f) (c := c)
    rw [hl]
    exact huntStart_samples l
  have hpos : 1 ≤ f.length := by unfold SerFormat.length; omega
  have hwhole : ¬ ((f.frame c).flatMap (List.replicate 16)).length < 16 * (f.length - 1) + 10 := by
    rw [samples_length, frame_length]
    omega
  have hdata : (List.range f.bits).foldl (fun d i => d + b2n (nth false (f.frame c) (1 + i)) * 2 ^ i) 0 = c % 2 ^ f.bits := by
    rw [← foldl_bits]
    refine List.foldl_ext _ _ _ fun d i hi => ?_
    rw [nth_frame_data (List.mem_range.mp hi)]
  have hparity : (f.parity != 0 && nth false (f.frame c) (1 + f.bits) != f.parityBit (c % 2 ^ f.bits)) = false := by
    by_cases hp : f.parity = 0
    · simp [hp]
    · simp [nth_frame_parity hp, parityBit_mod]
  unfold decideChar
  dsimp only
  rw [hhunt, if_neg hwhole]
  simp only [bitAt_samples, hdata, hparity, nth_samples (i := 8) (by decide), nth_frame_stop hs, Bool.not_true]

end

section
variable {b : Block} {n : Nat}

/-! ### One port changed -/

/-- A change of a port is what it makes of that port as it stands. -/
theorem modSer_congr {f g : Ser → Ser} (h : f (b.serial n) = g (b.serial n)) : b.modSer n f = b.modSer n g := by
  have hl : b.ser.modify n f = b.ser.modify n g := by
    rw [List.modify_eq_set_getElem?, List.modify_eq_set_getElem?]
    cases hp : b.ser[n]? with
    | none => rfl
    | some p =>
      have hser : b.serial n = p := by simp [Block.serial, nth, hp]
      simp [← hser, h]
  rw [Block.modSer, hl, Block.modSer]

/-- What a change of a port leaves of it reads as before. -/
theorem serial_modSer_keeps {α : Type} (q : Ser → α) {f : Ser → Ser} (h : ∀ s, q (f s) = q s) :
    q ((b.modSer n f).serial n) = q (b.serial n) := by
  simp only [Block.modSer, Block.serial, nth, List.getD_eq_getElem?_getD, List.getElem?_modify]
  cases hp : b.ser[n]? with
  | none => simp
  | some p => simp [h]

/-! ### A character decided (R420, R424, R425) -/

section
variable {ch : SerChar} {d : Decided} (ho : serOn b n = true)
include ho

theorem serCharacter_measures (ha : (serGeneral b n && b.flag (fSER_CFG_AUTOBAUD.at n) && !b.flag (fSER_CFG_DATA7.at n)) = true) :
    serCharacter n ch b = autobaud n ch.edges (b.modSer n (fun s => { s with level := ch.samples.getLastD s.level })) := by
  rw [serCharacter, if_neg (by simp [ho]), if_pos ha]

section
variable (ha : (serGeneral b n && b.flag (fSER_CFG_AUTOBAUD.at n) && !b.flag (fSER_CFG_DATA7.at n)) = false)
include ha

theorem serCharacter_none (hd : decideChar (rxFormat b n) (b.serial n).level ch.samples = none) : serCharacter n ch b = b := by
  rw [serCharacter, if_neg (by simp [ho]), if_neg (by simp [ha]), hd]

theorem serCharacter_some (hd : decideChar (rxFormat b n) (b.serial n).level ch.samples = some d) :
    serCharacter n ch b = receive n d (b.modSer n (fun s => { s with level := d.level })) := by
  rw [serCharacter, if_neg (by simp [ho]), if_neg (by simp [ha]), hd]

end

end

section
variable {d : Decided}

theorem receive_error (he : (d.framing || d.parity) = true) :
    receive n d b =
      let e1 := if d.framing then b.wr (fSER_STAT_FE.at n) 1 else b
      let e2 := if d.parity then e1.wr (fSER_STAT_PE.at n) 1 else e1
      let e3 := if d.framing && d.data == 0 then e2.wr (fSER_STAT_BRK.at n) 1 else e2
      ((e3.modSer n (fun s => { s with run := none, msg := none })).countUp (fSER_ERRCNT_COUNT.at n) 1).raise (evSER_RX_ERR n) :=
  if_pos he

section
variable (he : (d.framing || d.parity) = false)
include he

theorem receive_flow (hx : (xonOn b n && (d.data == 0x13 || d.data == 0x11)) = true) :
    receive n d b = b.wrB (fSER_STAT_TX_PAUSED.at n) (d.data == 0x13) := by
  obtain ⟨hon, hbyte⟩ := Bool.and_eq_true_iff.mp hx
  rw [receive, if_neg (by simp [he])]
  by_cases h13 : d.data = 0x13
  · simp [hon, h13, Block.wrB, b2n]
  · have h11 : d.data = 0x11 := by simpa [h13] using hbyte
    simp [hon, h11, Block.wrB, b2n]

section
variable (hx : (xonOn b n && (d.data == 0x13 || d.data == 0x11)) = false)
include hx

theorem receive_data :
    receive n d b =
      if 64 ≤ (b.serial n).rx.length then
        ((b.wr (fSER_STAT_OVR.at n) 1).countUp (fSER_ERRCNT_COUNT.at n) 1).raise (evSER_RX_ERR n)
      else
        flowCheck n (b.modSer n (fun s =>
          { s with rx := s.rx ++ [(BitVec.ofNat 8 d.data, b.now)]
                   sense := s.sense || (b.flag (fSER_CFG_SENSE.at n) && !serRaw b n && d.data == 0xFE) })) := by
  have hno (x : Nat) (hx' : x = 0x13 ∨ x = 0x11) : ¬ (xonOn b n && d.data == x) = true := by
    rw [Bool.and_or_distrib_left, Bool.or_eq_false_iff] at hx
    rcases hx' with rfl | rfl <;> simp [hx.1, hx.2]
  rw [receive, if_neg (by simp [he]), if_neg (hno 0x13 (.inl rfl)), if_neg (hno 0x11 (.inr rfl))]

end

end

end

/-! ### A character sent (R417, R425) -/

section
variable (ho : serOn b n = true)
include ho

theorem serTx_flow {x : Bool} (hf : (b.serial n).flow = some x) :
    serTx n b =
      flowCheck n ((b.modSer n (fun s => { s with flow := none, shift := (serFormat b n).frame (if x then 0x13 else 0x11) })).wrB
        (fSER_STAT_XOFF_SENT.at n) x) := by
  rw [serTx, if_neg (by simp [ho])]
  simp only [hf]

theorem serTx_byte {c : Byte} {rest : List Byte} (hf : (b.serial n).flow = none) (hp : b.flag (fSER_STAT_TX_PAUSED.at n) = false)
    (ht : (b.serial n).tx = c :: rest) :
    serTx n b = b.modSer n (fun s => { s with tx := rest, shift := (serFormat b n).frame c.toNat }) := by
  rw [serTx, if_neg (by simp [ho])]
  simp [hf, hp, ht]

theorem serTx_idle (hf : (b.serial n).flow = none) (h : b.flag (fSER_STAT_TX_PAUSED.at n) = true ∨ (b.serial n).tx = []) :
    serTx n b = b.modSer n (fun s => { s with shift := [] }) := by
  rw [serTx, if_neg (by simp [ho])]
  rcases h with h | h <;> simp [hf, h]

end

/-! ### SENSE_TIMEOUT (R430) -/

/-- One ALL_NOTES_OFF of a sense timeout: it is kept where an earlier one of the port waits or it finds no place (R605). -/
def senseOff (n ch : Nat) (b : Block) : Block :=
  let r := midiRecord n (b.rd (fSER_CFG_PRIO.at n)) evtAllNotesOff 0 ch 0 0
  let wait (y : Block) : Block := { y with sched := { y.sched with waitSer := y.sched.waitSer ++ [(n, r, y.now)] } }
  if b.sched.waitSer.any (fun w => w.1 == n) then wait b
  else if (offer r b.now b).1 then (offer r b.now b).2 else wait (offer r b.now b).2

theorem senseTimeout_posts (hs : (b.serial n).sense = true) (hf : b.flag (fSER_CFG_SENSE.at n) = true) (ho : serOn b n = true) :
    senseTimeout n b = forN 16 (senseOff n) (b.modSer n (fun s => { s with sense := false })) := by
  rw [senseTimeout, if_pos (by simp [hs, hf, ho])]
  congr 1
  funext ch x
  unfold senseOff
  dsimp only
  split
  · rfl
  · rcases offer (midiRecord n (x.rd (fSER_CFG_PRIO.at n)) evtAllNotesOff 0 ch 0 0) x.now x with ⟨placed, y⟩
    cases placed <;> rfl

/-! ### SER_TXDATA and SER_RXDATA (R400, R438) -/

section
variable (hn : n < 5)
include hn

theorem storeWord_serTx (v : Nat) : storeWord (rSER_TXDATA + 0x40 * n) v b = writeTx n v b := by
  have hblock : blockOf (rSER_TXDATA + 0x40 * n) = 3 := by
    simp only [blockOf, rSER_TXDATA]
    omega
  have hport : (rSER_TXDATA + 0x40 * n - rSER_CFG) / 0x40 = n := by
    simp only [rSER_TXDATA, rSER_CFG]
    omega
  have hoff : (rSER_TXDATA + 0x40 * n) % 0x40 = 0x14 := by
    simp only [rSER_TXDATA]
    omega
  have hser : storeWord (rSER_TXDATA + 0x40 * n) v b = writeSer (rSER_TXDATA + 0x40 * n) v b := by
    simp [storeWord, hblock]
  rw [hser, writeSer, hport, hoff, if_neg (by omega), if_neg (by decide), if_neg (by decide), if_pos (by decide)]

theorem isEnable_serTx : isEnable (rSER_TXDATA + 0x40 * n) = false := by
  have hout : ∀ k < 5, isEnable (rSER_TXDATA + 0x40 * k) = false := by decide
  exact hout n hn

theorem isMirrored_serTx : isMirrored (rSER_TXDATA + 0x40 * n) = false := by
  have hout : ∀ k < 5, isMirrored (rSER_TXDATA + 0x40 * k) = false := by decide
  exact hout n hn

theorem hostReg_serTx {v : Word} (hm : b.hostMay (rSER_TXDATA + 0x40 * n) = true) :
    hostReg (rSER_TXDATA + 0x40 * n) v b = restartCheck (rSER_TXDATA + 0x40 * n) (writeTx n v.toNat b) := by
  have ha : 0x10000 ≤ rSER_TXDATA + 0x40 * n ∧ rSER_TXDATA + 0x40 * n < 0xF0000 ∧ (rSER_TXDATA + 0x40 * n) % 4 = 0 := by
    simp only [rSER_TXDATA]
    omega
  obtain ⟨h1, h2, h4⟩ := ha
  rw [hostReg_plain hm h1 h2 h4 (isMirrored_serTx hn) (isEnable_serTx hn), storeWord_serTx hn]

theorem hostRead_serRx (req : Nat) (hit : SlateHit) : hostRead req hit (rSER_RXDATA + 0x40 * n) b = readRx n b := by
  have ha : 0x30000 ≤ rSER_RXDATA + 0x40 * n ∧ rSER_RXDATA + 0x40 * n < 0x40000 := by
    simp only [rSER_RXDATA]
    omega
  obtain ⟨h1, h2⟩ := ha
  have hblock : blockOf (rSER_RXDATA + 0x40 * n) = 3 := by
    simp only [blockOf]
    omega
  have hport : (rSER_RXDATA + 0x40 * n - rSER_CFG) / 0x40 = n := by
    simp only [rSER_RXDATA, rSER_CFG]
    omega
  have hoff : (rSER_RXDATA + 0x40 * n) % 0x40 = 0x10 := by
    simp only [rSER_RXDATA]
    omega
  have hreg : readReg req (rSER_RXDATA + 0x40 * n) b = readSer (rSER_RXDATA + 0x40 * n) b := by
    simp only [readReg, hblock]
  rw [hostRead, if_neg (by omega), if_neg (by omega), if_pos ⟨by omega, by omega⟩, hreg, readSer, hport, hoff, if_neg (by omega),
    if_neg (by decide), if_pos (by decide)]

theorem readOne_serRx (hr : b.host.ready = true) :
    readOne (rSER_RXDATA + 0x40 * n) b = (readRx n b).2.drive (toLE 4 (readRx n b).1) := by
  have hreg : isRegisterWord (rSER_RXDATA + 0x40 * n) = true := by
    have ha : 0x10000 ≤ rSER_RXDATA + 0x40 * n ∧ rSER_RXDATA + 0x40 * n < 0xF0000 := by
      simp only [rSER_RXDATA]
      omega
    simp [isRegisterWord, ha]
  rw [readOne, if_pos hr, hostReads_register hreg, hostRead_serRx hn]

end

theorem readRx_oldest {c : Byte} {t : Nat} {rest : List (Byte × Nat)} (hx : (b.serial n).rx = (c, t) :: rest)
    (hw : serRaw b n = true) (ho : b.on dCOMM = true) :
    readRx n b = (2 ^ 31 + c.toNat, flowCheck n (b.modSer n (fun s => { s with rx := rest }))) := by
  simp only [readRx, hx, hw, ho, Bool.and_self, if_true]

theorem writeTx_room (ho : b.on dCOMM = true) (h : (b.serial n).tx.length < 64) (v : Nat) :
    writeTx n v b = b.modSer n (fun s => { s with tx := s.tx ++ [BitVec.ofNat 8 v] }) :=
  (if_pos ho).trans (modSer_congr (if_neg (by omega)))

theorem writeTx_full (ho : b.on dCOMM = true) (h : 64 ≤ (b.serial n).tx.length) (v : Nat) : writeTx n v b = b.modSer n id :=
  (if_pos ho).trans (modSer_congr (if_pos h))

theorem writeTx_off (ho : b.on dCOMM = false) (v : Nat) :
    writeTx n v b = b.modSer n (fun s => { s with owed := s.owed ++ [BitVec.ofNat 8 v] }) :=
  if_neg (by simp [ho])

/-! ### SER_SEND (R441) -/

theorem mSerSend_meets {p : List Byte} (hn : leAt p 0 1 < 5) (he : b.flag (fSER_CFG_EN.at (leAt p 0 1)) = true)
    (hl : (b.serial (leAt p 0 1)).tx.length + leAt p 2 2 ≤ 64) : mSerSend.chk p b = none := by
  have h5 : ¬ 5 ≤ leAt p 0 1 := by omega
  have h64 : ¬ 64 < (b.serial (leAt p 0 1)).tx.length + leAt p 2 2 := by omega
  simp [mSerSend, h5, he, h64]

end

/-- Settles O53: a character by what its samples decide and the port's state, a write and a read of the FIFOs by their room, the commands
by their checks. -/
theorem serialPorts : Obligations.SerialPorts := by
  unfold Obligations.SerialPorts
  refine fun b n hn => ⟨fun ch ho => ?char, fun f c hc h0 h8 hp h1 h2 => decideChar_frame h1,
    fun ho => ⟨fun x hf => ?txFlow, fun c rest hf hp ht => ?txByte, fun hf h => ?txIdle⟩, fun ho hr he => ?midi,
    fun h4 ho hs hf => ?sense, fun v hm => ?txdata, fun c t rest hr hx hw ho => ?rxdata, fun c hc => ⟨fun hr hk => ?config,
    fun hr he hl => ?send⟩⟩
  case char =>
    have hends {d : Block} (h : serCharacter n ch b = d) : Ends (.serCharacter n ch) b d :=
      ends_of_eqIf (fun _ => rfl) (decide_eq_true hn) h
    refine ⟨fun ha => hends (serCharacter_measures ho ha), fun ha hd => hends (serCharacter_none ho ha hd), fun d ha hd => ?_⟩
    intro r e1 e2 e3 xon
    have hdec {x : Block} (h : receive n d r = x) : Ends (.serCharacter n ch) b x := hends ((serCharacter_some ho ha hd).trans h)
    have hfill : (r.serial n).rx = (b.serial n).rx := serial_modSer_keeps (·.rx) fun s => rfl
    refine ⟨fun he => hdec (receive_error he), fun he hx => hdec (receive_flow (b := r) he hx), fun he hx hl => hdec ?_,
      fun he hx hl => hdec ?_⟩
    · exact (receive_data (b := r) he hx).trans (if_pos (by rwa [hfill]))
    · exact (receive_data (b := r) he hx).trans (if_neg (by rw [hfill]; omega))
  case txFlow => exact ends_of_eqIf (fun _ => rfl) (decide_eq_true hn) (serTx_flow ho hf)
  case txByte => exact ends_of_eqIf (fun _ => rfl) (decide_eq_true hn) (serTx_byte ho hf hp ht)
  case txIdle => exact ends_of_eqIf (fun _ => rfl) (decide_eq_true hn) (serTx_idle ho hf h)
  case midi =>
    have h4 : n < 4 := by
      have hne : n ≠ 4 := by
        rintro rfl
        simp [serRaw] at hr
      omega
    exact ends_of_eqIf (f := midiMessage n) (fun _ => rfl) (decide_eq_true h4) (if_pos (by simp [ho, hr, he]))
  case sense => exact ends_of_eqIf (fun _ => rfl) (decide_eq_true h4) (senseTimeout_posts hs hf ho)
  case txdata =>
    intro queued
    have hends {f : Ser → Ser} (h : writeTx n v.toNat b = b.modSer n f) : queued f :=
      ends_of_eqIf (fun _ => rfl) (decide_eq_true hn) ((hostReg_serTx hn hm).trans (by rw [h]))
    exact ⟨fun ho hl => hends (writeTx_room ho hl _), fun ho hl => hends (writeTx_full ho hl _), fun ho => hends (writeTx_off ho _)⟩
  case rxdata =>
    exact ends_of_eqIf (fun _ => rfl) (decide_eq_true hn) ((readOne_serRx hn hr).trans (by rw [readRx_oldest hx hw ho]))
  case config =>
    subst hc
    exact replies_of_meets (fun _ => rfl) hr hk rfl
  case send =>
    subst hc
    exact replies_of_meets (fun _ => rfl) hr (mSerSend_meets hn he hl) rfl

end Sys2Proof.Machine
end

section
/-! PROOFS. The USB function: its states, its audio frames, its MIDI packets and its commands (12 R431 to R436, R439, R442). -/

namespace Sys2Proof.Machine

section
variable {b : Block} {p : List Byte}

/-! ### Interfaces (R431) -/

section
variable (hu : usbOn b = true) (hc : b.flag fUSB_STAT_CONFIGURED = true)
include hu hc

theorem usbSetInterface_configured (i alt : Nat) :
    usbSetInterface i alt b =
      if i = 1 ∧ alt ≤ 2 ∧ b.flag fUSB_STAT_HIGH_SPEED then b.wr fUSB_STAT_ALT_OUT alt
      else if i = 2 ∧ alt ≤ 2 ∧ b.flag fUSB_STAT_HIGH_SPEED then b.wr fUSB_STAT_ALT_IN alt
      else if i = 3 ∧ alt ≤ 1 then b.wr fUSB_STAT_ALT_MIDI alt
      else b :=
  if_neg (by simp [hu, hc])

theorem usbSetInterface_out (hs : b.flag fUSB_STAT_HIGH_SPEED = true) {alt : Nat} (h : alt ≤ 2) :
    usbSetInterface 1 alt b = b.wr fUSB_STAT_ALT_OUT alt :=
  (usbSetInterface_configured hu hc 1 alt).trans (if_pos ⟨rfl, h, hs⟩)

theorem usbSetInterface_in (hs : b.flag fUSB_STAT_HIGH_SPEED = true) {alt : Nat} (h : alt ≤ 2) :
    usbSetInterface 2 alt b = b.wr fUSB_STAT_ALT_IN alt := by
  rw [usbSetInterface_configured hu hc, if_neg (by simp), if_pos ⟨rfl, h, hs⟩]

theorem usbSetInterface_midi {alt : Nat} (h : alt ≤ 1) : usbSetInterface 3 alt b = b.wr fUSB_STAT_ALT_MIDI alt := by
  rw [usbSetInterface_configured hu hc, if_neg (by simp), if_neg (by simp), if_pos ⟨rfl, h⟩]

/-- At Full-Speed the audio interfaces are absent. -/
theorem usbSetInterface_absent (hs : b.flag fUSB_STAT_HIGH_SPEED = false) {i : Nat} (hi : i ≠ 3) (alt : Nat) :
    usbSetInterface i alt b = b := by
  rw [usbSetInterface_configured hu hc]
  simp [hs, hi]

end

/-! ### Audio frames (R433, R434) -/

section
variable (hu : usbOn b = true)
include hu

section
variable {samples : List Int} (ha : b.rd fUSB_STAT_ALT_OUT ≠ 0)
include ha

/-- An OUT frame that finds room. -/
theorem usbOutFrame_joins (hl : b.usb.outBuf.length < 64) :
    usbOutFrame samples b =
      let wide := b.rd fUSB_STAT_ALT_OUT == 1
      let f := (List.range 8).map (fun c =>
        if wide then sext 24 (unsx 24 (nth 0 samples c)) * 2 ^ 8 else sext 16 (unsx 16 (nth 0 samples c)) * 2 ^ 16)
      { b with usb := { b.usb with outBuf := b.usb.outBuf ++ [f], full := false } } := by
  rw [usbOutFrame, if_neg (by simp [hu, ha]), if_neg (by omega)]

/-- An OUT frame that finds the buffer full. -/
theorem usbOutFrame_lost (hl : 64 ≤ b.usb.outBuf.length) :
    usbOutFrame samples b = { usbErr (!b.usb.full) b with usb := { b.usb with full := true } } := by
  rw [usbOutFrame, if_neg (by simp [hu, ha]), if_pos hl]

theorem usbFeedback_follows (m : Nat) :
    usbFeedback m b = b.wr fUSB_FB_VALUE (unsx 32 ((m : Int) + (32 - (b.usb.outBuf.length : Int)) * 2 ^ 8)) :=
  if_pos (by simp [hu, ha])

end

theorem usbInPacket_takes {f : List Int} {rest : List (List Int)} (hb : b.usb.inBuf = f :: rest) (ha : b.rd fUSB_STAT_ALT_IN ≠ 0) :
    usbInPacket b = { b with usb := { b.usb with sent := f, inBuf := rest } } := by
  have hon : (usbOn b && b.rd fUSB_STAT_ALT_IN != 0) = true := by simp [hu, ha]
  simp only [usbInPacket, hb, hon, if_true]

theorem usbSofTimeout_reports (h : b.rd fUSB_STAT_ALT_OUT ≠ 0 ∨ b.rd fUSB_STAT_ALT_IN ≠ 0) :
    usbSofTimeout b = (b.countUp fUSB_AUD_ERR_COUNT 1).raise evUSB_AUDIO_SYNC_LOST :=
  if_pos (by rcases h with h | h <;> simp [hu, h])

/-! ### MIDI packets (R435, R436) -/

/-- The records of a packet (R435). -/
def usbRecords (ws : List Word) (b : Block) : List EventRecord :=
  let words := ws.map (·.toNat)
  if b.flag fUSB_STAT_ALT_MIDI then umpRecords b (words.length + 1) words else words.flatMap usbMidi1

/-- The records of a packet offered in order, up to the first that finds no place. -/
def usbOffered (ws : List Word) (b : Block) : Bool × Block :=
  (usbRecords ws b).foldl (fun (a : Bool × Block) e => if a.1 then offer e b.now a.2 else a) (true, b)

theorem usbMidiPacket_offers {ws : List Word} (hc : b.flag fUSB_STAT_CONFIGURED = true) (he : b.on dEVT = true) :
    usbMidiPacket ws b =
      if (usbOffered ws b).1 then { (usbOffered ws b).2 with usb := { (usbOffered ws b).2.usb with nak := false } }
      else { b with usb := { b.usb with nak := true } } := by
  rw [usbMidiPacket, if_neg (by simp [hu, hc]), if_neg (by simp [he])]
  rfl

end

/-! ### What each command's checks let through (R442) -/

theorem mUsbEnable_meets (h0 : leAt p 0 1 ≤ 1) (h1 : leAt p 1 1 ≤ 1) : mUsbEnable.chk p b = none := by
  have h0' : ¬ 1 < leAt p 0 1 := by omega
  have h1' : ¬ 1 < leAt p 1 1 := by omega
  simp [mUsbEnable, h0', h1']

/-- The words that USB_ENABLE stores; the reference stays where the function is on. -/
def usbStored (p : List Byte) (b : Block) : Block :=
  let b1 := if b.flag fUSB_CTRL_EN then b else b.wr fUSB_CTRL_REF (leAt p 1 1)
  (b1.wr fUSB_UMP_CFG_NPC_A (leAt p 2 1)).wr fUSB_UMP_CFG_NPC_B (leAt p 3 1)

theorem mUsbEnable_asks (h : leAt p 0 1 = 1) (tok : Tok) (stamp : Nat) :
    mUsbEnable.eff tok stamp p b =
      (.later, startCheck rUSB_CTRL (some tok) stamp [(rUSB_CTRL, b.word rUSB_CTRL), (rUSB_UMP_CFG, b.word rUSB_UMP_CFG)]
        (usbStored p b)) :=
  if_pos h

theorem mUsbEnable_detaches (h : leAt p 0 1 = 0) (tok : Tok) (stamp : Nat) :
    mUsbEnable.eff tok stamp p b = (ok [], usbDisabled (clearEnable rUSB_CTRL (usbStored p b))) :=
  if_neg (by omega)

theorem mUsbSendMidi_meets (hc : b.flag fUSB_STAT_CONFIGURED = true) (hm : b.flag fUSB_STAT_ALT_MIDI = true) :
    mUsbSendMidi.chk p b = none :=
  if_pos (by simp [hc, hm])

end

/-- Settles O54: each row by what the function finds set, a packet by whether all its records are placed, the commands by their
checks. -/
theorem usbFunction : Obligations.UsbFunction := by
  unfold Obligations.UsbFunction
  refine fun b => ⟨fun hu => ⟨fun hs => ?reset, ?suspend, ?resume, ?configuration, fun hc => ⟨fun hs alt ha => ⟨?out, ?in_⟩,
    fun alt ha => ?midi, fun hs alt ha => ⟨?noOut, ?noIn⟩⟩, fun samples ha => ⟨fun hl => ?joins, fun hl => ?lost⟩,
    fun f rest hb ha => ?packet, fun m ha => ?feedback, fun h => ?sof, fun hz => ?rate, fun hm hs => ?discovery,
    fun ws hc he => ⟨fun h => ?placed, fun h => ?refused⟩⟩,
    fun c => ⟨fun hr h1 => ⟨fun h0 => ?enable, fun h0 => ?disable⟩, fun hr hc hm => ?send, fun hr => ?status⟩⟩
  case reset => exact ends_of_eq (f := usbReset hs) (fun _ => rfl) (if_pos hu)
  case suspend => exact ends_of_eq (f := usbSuspend) (fun _ => rfl) (if_pos hu)
  case resume => exact ends_of_eq (f := usbResume) (fun _ => rfl) (if_pos hu)
  case configuration => exact ends_of_eq (f := usbSetConfiguration) (fun _ => rfl) (if_pos hu)
  case out => exact ends_of_eqIf (fun _ => rfl) (by simp; omega) (usbSetInterface_out hu hc hs ha)
  case in_ => exact ends_of_eqIf (fun _ => rfl) (by simp; omega) (usbSetInterface_in hu hc hs ha)
  case midi => exact ends_of_eqIf (fun _ => rfl) (by simp; omega) (usbSetInterface_midi hu hc ha)
  case noOut => exact ends_of_eqIf (fun _ => rfl) (by simp; omega) (usbSetInterface_absent hu hc hs (by decide) alt)
  case noIn => exact ends_of_eqIf (fun _ => rfl) (by simp; omega) (usbSetInterface_absent hu hc hs (by decide) alt)
  case joins => exact ends_of_eq (fun _ => rfl) (usbOutFrame_joins hu ha hl)
  case lost => exact ends_of_eq (fun _ => rfl) (usbOutFrame_lost hu ha hl)
  case packet => exact ends_of_eq (fun _ => rfl) (usbInPacket_takes hu hb ha)
  case feedback => exact ends_of_eq (fun _ => rfl) (usbFeedback_follows hu ha m)
  case sof => exact ends_of_eq (fun _ => rfl) (usbSofTimeout_reports hu h)
  case rate => exact ends_of_eq (f := usbRateRequest hz) (fun _ => rfl) (if_pos hu)
  case discovery => exact ends_of_eq (f := endpointDiscovery) (fun _ => rfl) (if_pos (by simp [hu, hm, hs]))
  case placed => exact ends_of_eq (fun _ => rfl) ((usbMidiPacket_offers hu hc he).trans (if_pos h))
  case refused => exact ends_of_eq (fun _ => rfl) ((usbMidiPacket_offers hu hc he).trans (if_neg (Bool.eq_false_iff.mp h)))
  case enable => exact replies_of_meets (fun _ => rfl) hr (mUsbEnable_meets (by omega) h1) (mUsbEnable_asks h0 _ _)
  case disable => exact replies_of_meets (fun _ => rfl) hr (mUsbEnable_meets (by omega) h1) (mUsbEnable_detaches h0 _ _)
  case send => exact replies_of_meets (fun _ => rfl) hr (mUsbSendMidi_meets hc hm) rfl
  case status => exact replies_of_meets (m := mSerUsbStatus) (fun _ => rfl) hr rfl rfl

end Sys2Proof.Machine
end

section
/-! PROOFS. Frames of the network ports: received, released and sent, the ways of access and the bucket (13 R444 to R456, R461 to
R463). -/

namespace Sys2Proof.Machine

section
variable {b : Block} {n : Nat}

/-! ### What counting leaves as it was -/

theorem raiseIf_net (c : Bool) (k : Nat) : (b.raiseIf c k).net = b.net := by
  cases c
  · rfl
  · exact Block.raise_net ..

theorem countUp_netPort (f : Fld) (k : Nat) : (b.countUp f k).netPort n = b.netPort n := by
  unfold Block.netPort
  rw [Block.countUp, raiseIf_net, Block.wr_net]

/-! ### A frame is received (R448, R449) -/

section
variable (hh : netHears b n = true) {f : NetFrame}
include hh

theorem netFrameReceive_symbol (hs : f.symbolError = true) : netFrameReceive n f b = b.countUp (fNET_SYM_COUNT_COUNT.at n) 1 := by
  rw [netFrameReceive, if_neg (by simp [hh]), if_pos hs]

section
variable (hs : f.symbolError = false)
include hs

theorem netFrameReceive_length (hl : f.length < 64 ∨ 1518 < f.length) :
    netFrameReceive n f b = b.countUp (fNET_BAD_FRAME_COUNT.at n) 1 := by
  rw [netFrameReceive, if_neg (by simp [hh]), if_neg (by simp [hs]), if_pos hl]

section
variable (hl : ¬ (f.length < 64 ∨ 1518 < f.length))
include hl

theorem netFrameReceive_fcs (hf : f.fcsGood = false) :
    netFrameReceive n f b = (b.countUp (fNET_FCS_COUNT_COUNT.at n) 1).raise (evNET_FCS_ERR n) := by
  rw [netFrameReceive, if_neg (by simp [hh]), if_neg (by simp [hs]), if_neg hl, if_pos (by simp [hf])]

/-- A whole frame is counted, and meets the filter. -/
theorem netFrameReceive_whole (hf : f.fcsGood = true) :
    netFrameReceive n f b =
      let b1 := b.countUp (fNET_RX_FRAMES_COUNT.at n) 1
      if !passesFilter b1 n f then (b1.countUp (fNET_STRANGER_COUNT_COUNT.at n) 1).raise (evNET_STRANGER_DROP n)
      else acceptFrame n f b1 := by
  rw [netFrameReceive, if_neg (by simp [hh]), if_neg (by simp [hs]), if_neg hl, if_neg (by simp [hf])]

end

end

/-! ### The oldest frame received releases its records (R454 to R456, R461) -/

theorem netFrameRelease_offers {g : NetRx} {rest : List NetRx} (hx : (b.netPort n).rx = g :: rest) (he : b.on dEVT = true) :
    netFrameRelease n b =
      let conv := g.records.map (convertDue b g.netTime)
      let rs := conv.map (fun c => setFlag c.1 2 false)
      let b1 := b.modNet n (fun p => { p with rx := rest })
      let b2 := b1.countUp fNET_UNSYNC_COUNT_COUNT (conv.filter (·.2)).length
      if placesFor b g.stamp rs then forL rs (fun r x => (offer r g.stamp x).2) b2 else b := by
  rw [netFrameRelease, if_pos hh, releaseFrame, hx]
  dsimp only
  rw [if_neg (by simp [he])]
  split <;> rfl

end

/-! ### A frame is sent (R446, R463) -/

section
variable (ho : netOn b n = true) {g : NetTx} {rest : List NetTx} (ht : (b.netPort n).tx = g :: rest)
include ho ht

theorem netFrameTransmit_sends :
    netFrameTransmit n false b = b.modNet n (fun p => { p with tx := rest, tries := 0, sent := some g }) := by
  rw [netFrameTransmit, if_neg (by simp [ho]), ht]
  rfl

theorem netFrameTransmit_collides :
    netFrameTransmit n true b =
      let b1 := b.countUp (fNET_COLL_COUNT_COUNT.at n) 1
      if 15 ≤ (b.netPort n).tries then
        ((b1.countUp (fNET_TX_ABORT_COUNT.at n) 1).raise (evNET_COLLISION_LIMIT n)).modNet n (fun p => { p with tx := rest, tries := 0 })
      else b1.modNet n (fun p => { p with tries := p.tries + 1 }) := by
  rw [netFrameTransmit, if_neg (by simp [ho]), ht]
  simp only [if_true, countUp_netPort]

end

end

/-- Settles O55: a frame received by the first check that fails, one released by its places, one sent by its attempts. -/
theorem networkFrames : Obligations.NetworkFrames := by
  unfold Obligations.NetworkFrames
  refine fun b n hn => ⟨fun hh f hwf => ?receive, fun f rest hh hx he => ?release, fun f rest ho ht => ⟨?send, ?collide⟩,
    fun ho hp => ⟨?beacon, fun hc => ?timeout⟩, fun hh hr => ?bucket⟩
  case receive =>
    intro fails b1
    have hends {d : Block} (h : netFrameReceive n f b = d) : Ends (.netFrameReceive n f) b d := ends_of_eqIf (fun _ => rfl) hwf h
    have hwhole (h : fails = false) : f.symbolError = false ∧ ¬ (f.length < 64 ∨ 1518 < f.length) ∧ f.fcsGood = true := by
      simpa [fails, and_assoc] using h
    refine ⟨fun hs => hends (netFrameReceive_symbol hh hs), fun hs hl => hends (netFrameReceive_length hh hs hl),
      fun hs h64 h1518 hf => hends (netFrameReceive_fcs hh hs (by omega) hf), fun hw hp => ?_, fun hw hp => ?_⟩
    · obtain ⟨hs, hl, hf⟩ := hwhole hw
      exact hends ((netFrameReceive_whole hh hs hl hf).trans (if_pos (by rw [hp]; rfl)))
    · obtain ⟨hs, hl, hf⟩ := hwhole hw
      exact hends ((netFrameReceive_whole hh hs hl hf).trans (if_neg (by rw [hp]; decide)))
  case release =>
    intro conv rs b1 b2
    have hends {d : Block} (h : netFrameRelease n b = d) : Ends (.netFrameRelease n) b d :=
      ends_of_eqIf (fun _ => rfl) (decide_eq_true hn) h
    exact ⟨fun hp => hends ((netFrameRelease_offers hh hx he).trans (if_pos hp)),
      fun hp => hends ((netFrameRelease_offers hh hx he).trans (if_neg (Bool.eq_false_iff.mp hp)))⟩
  case send => exact ends_of_eqIf (fun _ => rfl) (decide_eq_true hn) (netFrameTransmit_sends ho ht)
  case collide =>
    have hends {d : Block} (h : netFrameTransmit n true b = d) : Ends (.netFrameTransmit n true) b d :=
      ends_of_eqIf (fun _ => rfl) (decide_eq_true hn) h
    exact ⟨fun h => hends ((netFrameTransmit_collides ho ht).trans (if_neg (by omega))),
      fun h => hends ((netFrameTransmit_collides ho ht).trans (if_pos h))⟩
  case beacon => exact ends_of_eqIf (f := beacon n) (fun _ => rfl) (decide_eq_true hn) (if_neg (by simp [ho, hp]))
  case timeout => exact ends_of_eqIf (f := plcaTimeout n) (fun _ => rfl) (decide_eq_true hn) (if_neg (by simp [ho, hp, hc]))
  case bucket => exact ends_of_eqIf (f := bucketToken n) (fun _ => rfl) (decide_eq_true hn) (if_neg (by simp [hh, hr]))

end Sys2Proof.Machine
end

section
/-! PROOFS. Network time by the messages of PTP, and the commands to the network ports (13 R455 to R460, R465, R467, R468). -/

namespace Sys2Proof.Machine

section
variable {b : Block}

/-! ### Messages of the grandmaster and of other clocks (R458) -/

section
variable (hp : ptpServes b = true) {ident : DWord}
include hp

theorem fromMaster_foreign (hi : ident.toNat ≠ b.word64 rNET_PTP_GM) (f : Block → Block) :
    fromMaster ident f b = b.countUp fNET_PTP_FOREIGN_COUNT 1 := by
  rw [fromMaster, if_neg (by simp [hp]), if_neg hi]

theorem fromMaster_heard (hi : ident.toNat = b.word64 rNET_PTP_GM) (f : Block → Block) :
    fromMaster ident f b = f { b with ptp := { b.ptp with heard := true } } := by
  rw [fromMaster, if_neg (by simp [hp]), if_pos hi]

end

/-! ### A Sync (R459, R460) -/

/-- The Sync of the grandmaster is stamped. -/
def syncStamped (b : Block) : Block :=
  { b with ptp := { b.ptp with heard := true, syncAt := (b.now + tideMod - b.rd fNET_PTP_LAT_RX_LAT) % tideMod } }

/-- The estimates in a row that lie near, this one with them. -/
def nearInRow (e : PtpEstimate) (b : Block) : Nat :=
  if e.offsetNs.natAbs ≤ b.rd fNET_PTP_LOCK_LOCK_NS then min 8 (b.ptp.good + 1) else 0

/-- The estimate's anchor and rate are committed, and its offset shown. -/
def syncCommitted (e : PtpEstimate) (b : Block) : Block :=
  (commitAnchor e.rate.toNat { b with ptp := { (syncStamped b).ptp with
    staged := (e.tide.toNat, e.net.toNat), good := nearInRow e b } }).wr fNET_PTP_STAT_OFFSET_NS (unsx 16 (satS 16 e.offsetNs))

theorem syncCommitted_good (e : PtpEstimate) (b : Block) : (syncCommitted e b).ptp.good = nearInRow e b := rfl

section
variable (hp : ptpServes b = true) {ident : DWord} (hi : ident.toNat = b.word64 rNET_PTP_GM) {e : PtpEstimate}
include hp hi

theorem ptpSync_unserved (hs : b.serving = false) : ptpSync ident e b = syncStamped b := by
  rw [ptpSync, fromMaster_heard hp hi]
  exact if_pos (by rw [Bool.not_eq_true']; exact hs)

theorem ptpSync_served (hs : b.serving = true) :
    ptpSync ident e b =
      let b1 := syncCommitted e b
      if 8 * b.rd fNET_PTP_LOCK_LOCK_NS < e.offsetNs.natAbs then loseLock b1
      else if nearInRow e b = 8 ∧ !b1.flag fNET_PTP_STAT_LOCKED then (b1.wr fNET_PTP_STAT_LOCKED 1).raise evPTP_LOCK
      else b1 := by
  have hnear : (if decide (e.offsetNs.natAbs ≤ b.rd fNET_PTP_LOCK_LOCK_NS) = true then min 8 (b.ptp.good + 1) else 0) =
      nearInRow e b := by
    simp only [decide_eq_true_eq, nearInRow]
  rw [ptpSync, fromMaster_heard hp hi]
  refine (if_neg (by rw [Bool.not_eq_true', Bool.not_eq_false]; exact hs)).trans ?_
  unfold syncCommitted
  rw [← hnear]
  rfl

end

/-! ### A port that has listened (R468) -/

section
variable {n : Nat} {tok : Tok} {stamp : Nat} {undo : List (Nat × Nat)} (hl : (b.netPort n).listen = some (tok, stamp, undo))
include hl

theorem netListenDone_conflict :
    netListenDone n true b =
      let b1 := b.modNet n (fun p => { p with listen := none })
      (forL undo (fun w x => x.setWord w.1 w.2) (b1.modNet n (fun p => { p with rx := [] }))).finish tok stamp false
        (refusedWith .nodeIdConflict) := by
  rw [netListenDone, hl]
  rfl

theorem netListenDone_free :
    netListenDone n false b =
      startCheck (rNET_CTRL + 0x200 * n) (some tok) stamp undo (b.modNet n (fun p => { p with listen := none })) := by
  rw [netListenDone, hl]
  rfl

end

/-! ### NET_CONFIG (R467, R468) -/

section
variable {p : List Byte}

/-- The words that NET_CONFIG stores. -/
def netConfigRegs (n : Nat) : List Nat :=
  [rNET_CTRL + 0x200 * n, rNET_PLCA + 0x200 * n, rNET_PLCA2 + 0x200 * n, rNET_BCAST + 0x200 * n]

/-- The port disabled before NET_CONFIG stores its words. -/
def netDisabled (n : Nat) (b : Block) : Block := netFalls n (cancelChecks (fun c => c.addr == rNET_CTRL + 0x200 * n) b)

/-- The words of NET_CONFIG stored on the port disabled. -/
def netConfigured (p : List Byte) (b : Block) : Block :=
  forN 4 (fun i x => writeNet (nth 0 (netConfigRegs (leAt p 0 1)) i) (leAt p (4 + 4 * i) 4) x) (netDisabled (leAt p 0 1) b)

/-- What the words of NET_CONFIG were before it stored them. -/
def netUndo (n : Nat) (b : Block) : List (Nat × Nat) := (netConfigRegs n).map (fun a => (a, (netDisabled n b).word a))

theorem mNetConfig_eff (tok : Tok) (stamp : Nat) :
    mNetConfig.eff tok stamp p b =
      if !bit (leAt p 4 4) 31 then (ok [], netConfigured p b)
      else if leAt p 1 1 = 1 then
        (.later, (fillBucket (leAt p 0 1) (netConfigured p b)).modNet (leAt p 0 1) (fun q =>
          { q with listen := some (tok, stamp, netUndo (leAt p 0 1) b) }))
      else
        (.later, startCheck (rNET_CTRL + 0x200 * leAt p 0 1) (some tok) stamp (netUndo (leAt p 0 1) b) (netConfigured p b)) := rfl

theorem mNetConfig_disables (h : bit (leAt p 4 4) 31 = false) (tok : Tok) (stamp : Nat) :
    mNetConfig.eff tok stamp p b = (ok [], netConfigured p b) := by
  rw [mNetConfig_eff, if_pos (by rw [h]; rfl)]

section
variable (h : bit (leAt p 4 4) 31 = true)
include h

theorem mNetConfig_listens (hl : leAt p 1 1 = 1) (tok : Tok) (stamp : Nat) :
    mNetConfig.eff tok stamp p b =
      (.later, (fillBucket (leAt p 0 1) (netConfigured p b)).modNet (leAt p 0 1) (fun q =>
        { q with listen := some (tok, stamp, netUndo (leAt p 0 1) b) })) := by
  rw [mNetConfig_eff, if_neg (by simp [h]), if_pos hl]

theorem mNetConfig_asks (hl : leAt p 1 1 = 0) (tok : Tok) (stamp : Nat) :
    mNetConfig.eff tok stamp p b =
      (.later, startCheck (rNET_CTRL + 0x200 * leAt p 0 1) (some tok) stamp (netUndo (leAt p 0 1) b) (netConfigured p b)) := by
  rw [mNetConfig_eff, if_neg (by simp [h]), if_neg (by omega)]

end

/-! ### The filter (R467) -/

theorem mNetFilterAdd_held {e : Nat} (h : filtFind b (leAt p 0 1) (leAt p 1 1) (leAt p 2 6) = some e) (tok : Tok) (stamp : Nat) :
    mNetFilterAdd.eff tok stamp p b = (ok (toLE 4 e), b) := by
  simp only [mNetFilterAdd, filtArgs, h]

/-- The entry that a new address takes: one of those free. -/
def filtTaken (n : Nat) (b : Block) : Nat :=
  let left := (List.range 32).filter (fun e => !(filtEntry b n e).1)
  nth 0 left ((b.fresh 468).1 % max 1 left.length)

theorem mNetFilterAdd_takes (h : filtFind b (leAt p 0 1) (leAt p 1 1) (leAt p 2 6) = none) (tok : Tok) (stamp : Nat) :
    mNetFilterAdd.eff tok stamp p b =
      let n := leAt p 0 1
      let e := filtTaken n b
      let b1 := (b.fresh 468).2.wr (fNET_FILT_LO_ADDR_LO.at2 n e) (leAt p 2 6)
      let b2 := (b1.wr (fNET_FILT_HI_ADDR_HI.at2 n e) (leAt p 2 6 / 2 ^ 32)).wr (fNET_FILT_HI_KIND.at2 n e) (leAt p 1 1)
      (ok (toLE 4 e), b2.wr (fNET_FILT_HI_VALID.at2 n e) 1) := by
  simp only [mNetFilterAdd, filtArgs, h]
  rfl

theorem mNetFilterRemove_meets (hn : leAt p 0 1 ≤ 1) (hk : leAt p 1 1 ≤ 1) : mNetFilterRemove.chk p b = none := by
  have hn' : ¬ 1 < leAt p 0 1 := by omega
  have hk' : ¬ 1 < leAt p 1 1 := by omega
  simp [mNetFilterRemove, hn', hk']

theorem mNetFilterRemove_eff (tok : Tok) (stamp : Nat) :
    mNetFilterRemove.eff tok stamp p b =
      (ok [], match filtFind b (leAt p 0 1) (leAt p 1 1) (leAt p 2 6) with
        | some e => b.wr (fNET_FILT_HI_VALID.at2 (leAt p 0 1) e) 0
        | none => b) := by
  simp only [mNetFilterRemove, filtArgs]
  cases filtFind b (leAt p 0 1) (leAt p 1 1) (leAt p 2 6) <;> rfl

/-! ### NET_SET_HASH, NET_PTP_CONFIG and NET_STATUS (R465, R467) -/

theorem mNetSetHash_meets (hn : leAt p 0 1 ≤ 1) : mNetSetHash.chk p b = none := if_neg (by omega)

theorem mNetStatus_meets (hn : leAt p 0 1 ≤ 1) : mNetStatus.chk p b = none := if_neg (by omega)

theorem mNetPtpConfig_meets (hc : regWordOk rNET_PTP_CFG (leAt p 0 4) = true) (hl : regWordOk rNET_PTP_LOCK (leAt p 16 2) = true) :
    mNetPtpConfig.chk p b = none := if_pos (by simp [hc, hl])

/-- The words of NET_PTP_CONFIG stored. -/
def ptpConfigured (p : List Byte) (b : Block) : Block :=
  (((writeNet rNET_PTP_CFG (leAt p 0 4) b).setWord64 rNET_PTP_GM (leAt p 4 8)).put rNET_PTP_LAT (leAt p 12 4)).put rNET_PTP_LOCK
    (leAt p 16 2)

theorem mNetPtpConfig_disables (h : bit (leAt p 0 4) 31 = false) (tok : Tok) (stamp : Nat) :
    mNetPtpConfig.eff tok stamp p b = (ok [], clearEnable rNET_PTP_CFG (ptpConfigured p b)) := if_neg (by simp [h])

theorem mNetPtpConfig_asks (h : bit (leAt p 0 4) 31 = true) (tok : Tok) (stamp : Nat) :
    mNetPtpConfig.eff tok stamp p b =
      (.later, startCheck rNET_PTP_CFG (some tok) stamp
        ([rNET_PTP_CFG, rNET_PTP_GM, rNET_PTP_GM + 4, rNET_PTP_LAT, rNET_PTP_LOCK].map (fun a => (a, b.word a))) (ptpConfigured p b)) :=
  if_pos h

end

end

/-- Settles O56: a message by its clock, a Sync by its estimate, a port that has listened by what it heard, the commands by their
checks. -/
theorem networkTimeAndCommands : Obligations.NetworkTimeAndCommands := by
  unfold Obligations.NetworkTimeAndCommands
  refine fun b => ⟨fun hp => ⟨fun ident e hi => ?foreign, fun ident e hi => ?master, fun hh => ?delayReq⟩, ?lost,
    fun v hs hc => ?rate, fun n tok stamp undo hn hl => ⟨?conflict, ?free⟩, fun c => ⟨fun hr hk => ?config,
    fun hr hk => ⟨fun e hf => ?held, fun hf => ?added⟩, fun hr hn h1 => ?removed, fun hr hn => ?hash, fun hr hk hl => ?ptp,
    fun hr hk => ?send, fun hr hn => ?status⟩⟩
  case foreign =>
    intro foreign
    have hends {i : Instr} {f : Block → Block} (h : ∀ s, exec i s = done (fromMaster ident f) s) : Ends i b foreign :=
      ends_of_eq h (fromMaster_foreign hp hi f)
    exact ⟨hends fun _ => rfl, hends (f := id) fun _ => rfl, hends (f := id) fun _ => rfl, hends (f := id) fun _ => rfl⟩
  case master =>
    intro heard
    have hends {i : Instr} (h : ∀ s, exec i s = done (fromMaster ident id) s) : Ends i b heard :=
      ends_of_eq h (fromMaster_heard hp hi id)
    refine ⟨hends fun _ => rfl, hends fun _ => rfl, hends fun _ => rfl, ?_⟩
    intro syncAt stamped lim good ptp b1
    have hsync {d : Block} (h : ptpSync ident e b = d) : Ends (.ptpSync ident e) b d := ends_of_eq (fun _ => rfl) h
    refine ⟨fun hs => hsync (ptpSync_unserved hp hi hs), fun hs hfar => hsync ((ptpSync_served hp hi hs).trans (if_pos hfar)),
      fun hs hnear hg hl => hsync ?_, fun hs hnear hg => hsync ?_⟩
    · have hlock : nearInRow e b = 8 ∧ !(syncCommitted e b).flag fNET_PTP_STAT_LOCKED := ⟨hg, by rw [Bool.not_eq_true']; exact hl⟩
      exact (ptpSync_served hp hi hs).trans ((if_neg (by omega)).trans (if_pos hlock))
    · have hstays : ¬ (nearInRow e b = 8 ∧ !(syncCommitted e b).flag fNET_PTP_STAT_LOCKED) := by
        rintro ⟨h8, hl⟩
        rcases hg with hg | hg
        · exact absurd h8 (Nat.ne_of_lt hg)
        · have hfree : b1.flag fNET_PTP_STAT_LOCKED = false := (Bool.not_eq_true' _).mp hl
          exact Bool.false_ne_true (hfree.symm.trans hg)
      exact (ptpSync_served hp hi hs).trans ((if_neg (by omega)).trans (if_neg hstays))
  case delayReq => exact ends_of_eq (f := delayReq) (fun _ => rfl) (if_pos (by simp [hp, hh]))
  case lost => exact ends_done (f := ptpLost) (fun _ => rfl)
  case rate => exact ends_of_eq (f := netRate v) (fun _ => rfl) (if_pos (by simp [hs, hc]))
  case conflict => exact ends_of_eqIf (fun _ => rfl) (decide_eq_true hn) (netListenDone_conflict hl)
  case free => exact ends_of_eqIf (fun _ => rfl) (decide_eq_true hn) (netListenDone_free hl)
  case config =>
    intro as off undo b1
    exact ⟨fun h => replies_of_meets (fun _ => rfl) hr hk (mNetConfig_disables h _ _),
      fun h hl => replies_of_meets (fun _ => rfl) hr hk (mNetConfig_listens h hl _ _),
      fun h hl => replies_of_meets (fun _ => rfl) hr hk (mNetConfig_asks h hl _ _)⟩
  case held => exact replies_of_meets (fun _ => rfl) hr hk (mNetFilterAdd_held hf _ _)
  case added => exact replies_of_meets (fun _ => rfl) hr hk (mNetFilterAdd_takes hf _ _)
  case removed => exact replies_of_meets (fun _ => rfl) hr (mNetFilterRemove_meets hn h1) (mNetFilterRemove_eff _ _)
  case hash => exact replies_of_meets (fun _ => rfl) hr (mNetSetHash_meets hn) rfl
  case ptp =>
    exact ⟨fun h => replies_of_meets (fun _ => rfl) hr (mNetPtpConfig_meets hk hl) (mNetPtpConfig_disables h _ _),
      fun h => replies_of_meets (fun _ => rfl) hr (mNetPtpConfig_meets hk hl) (mNetPtpConfig_asks h _ _)⟩
  case send => exact replies_of_meets (fun _ => rfl) hr hk rfl
  case status => exact replies_of_meets (fun _ => rfl) hr (mNetStatus_meets hn) rfl

end Sys2Proof.Machine
end

section
/-! PROOFS. Self-test and background test, monitors, snapshots and lane load (17 R555 to R569, R572, R573). -/

namespace Sys2Proof.Machine

section
variable {b : Block}

/-! ### The end of a self-test (R556 to R558) -/

/-- Each target tested is left in its reset state, and a logic target with its signature. -/
def bistTested (r : Bist) (pass : Nat) (b : Block) : Block :=
  forL (bistTargets.filter (bit r.targets)) (fun t x =>
    let y := afterTest r.banks t x
    if t < 10 then signature (bit pass t) t y else y)
    { b with tst := { b.tst with bist := none } }

theorem bistDone_judges {r : Bist} (h : b.tst.bist = some r) (failing : Word) :
    bistDone failing b =
      let fail := Nat.land r.targets failing.toNat
      let pass := r.targets - fail
      let b1 := ((captureWord fail (setVerdicts pass fail (bistTested r pass b))).wr fTEST_BIST_STAT_BUSY 0).wr
        fTEST_BIST_STAT_VALID 1
      ((b1.raise evBIST_DONE).raiseIf (fail != 0) evBIST_FAIL).finish r.tok r.stamp false (ok (toLE 4 pass ++ toLE 4 fail)) := by
  rw [bistDone, h]
  rfl

/-! ### A slice of the background test (R357 to R361, R560, R561) -/

theorem bgSliceStart_begins {k s : Nat} {b1 : Block} (he : b.flag fTEST_BG_CFG_EN = true)
    (hf : b.flag fSLATE_STAT_FUSE_DONE = true) (ha : b.flag fSLATE_STAT_BORROW_ACTIVE = false) (hm : memoryBist b = false)
    (hc : b.on dCORE = true) (hn : nextSlice 65 b = (some (k, s), b1)) :
    bgSliceStart b =
      ((saveSlice k s { b1 with slate := { b1.slate with slice := some (k, s) } }).wr fSLATE_STAT_BORROW_ACTIVE 1).wr
        fSLATE_STAT_BORROW_BANK k := by
  rw [bgSliceStart, if_pos (by simp [he, hf, ha, hm, hc]), hn]

/-- The slice is over: its words stand again, its bank is free, and the place moves on. -/
def sliceEnded (k s : Nat) (b : Block) : Block :=
  let b0 := restoreSlice k s b
  { b0 with slate := { b0.slate with slice := none, bgNext := if s = 2047 then (k + 1, 0) else (k, s + 1) } }.wr
    fSLATE_STAT_BORROW_ACTIVE 0

/-- Any slice but the last of a sweep. -/
theorem bgSliceRelease_ends {k s : Nat} (h : b.slate.slice = some (k, s)) (hl : ¬ (k = 63 ∧ s = 2047)) (failed : Bool) :
    bgSliceRelease failed b =
      let b2 := if failed then bgFault k s (sliceEnded k s b) else sliceEnded k s b
      if b2.slate.ripe.contains k then
        checkBuild (checkEscort (applyOwner k { b2 with slate := { b2.slate with ripe := b2.slate.ripe.filter (· != k) } }))
      else ownerChange k b2 := by
  rw [bgSliceRelease, h]
  dsimp only
  rw [if_neg hl]
  rfl

/-! ### The test commands (R555, R560, R568, R573) -/

section
variable {p : List Byte}

theorem mBgTestSet_meets (h : regWordOk rTEST_BG_CFG (leAt p 0 4) = true) : mBgTestSet.chk p b = none := if_pos h

/-- CFG, THRESH and, of a latency monitor, BASE stored. -/
def monConfigured (p : List Byte) (b : Block) : Block :=
  let m := leAt p 0 1
  let b1 := writeMon m (monCfg m) (leAt p 4 4) (writeMon m (monCfg m + 4) (leAt p 8 4) b)
  if m < 8 then writeMon m (monCfg m + 0x14) (leAt p 12 4) b1 else b1

theorem mMonConfig_falls (h : bit (leAt p 4 4) 31 = false) (tok : Tok) (stamp : Nat) :
    mMonConfig.eff tok stamp p b = (ok [], clearEnable (monCfg (leAt p 0 1)) (monConfigured p b)) :=
  if_neg (by simp [h])

theorem mMonConfig_asks (h : bit (leAt p 4 4) 31 = true) (tok : Tok) (stamp : Nat) :
    mMonConfig.eff tok stamp p b =
      let a := monCfg (leAt p 0 1)
      (.later, startCheck a (some tok) stamp ([a, a + 4, a + 0x14].map (fun w => (w, b.word w))) (monConfigured p b)) :=
  if_pos h

theorem mMonRead_meets (hm : leAt p 0 1 < 24) (h1 : leAt p 1 1 ≤ 1) (h2 : leAt p 2 1 ≤ 1) (h3 : leAt p 3 1 ≤ 1) :
    mMonRead.chk p b = none := by
  have hm' : ¬ 24 ≤ leAt p 0 1 := by omega
  have h1' : ¬ 1 < leAt p 1 1 := by omega
  have h2' : ¬ 1 < leAt p 2 1 := by omega
  have h3' : ¬ 1 < leAt p 3 1 := by omega
  simp [mMonRead, hm', h1', h2', h3']

end

/-! ### TEST_SNAP (R567) -/

theorem hostReg_testSnap {v : Word} (hm : b.hostMay rTEST_SNAP = true) :
    hostReg rTEST_SNAP v b = restartCheck rTEST_SNAP (writeSnap v.toNat b) := by
  have hstore : storeWord rTEST_SNAP v.toNat b = writeSnap v.toNat b := rfl
  rw [hostReg_plain hm (by decide) (by decide) (by decide) (by decide) (by decide), hstore]

end

/-- Settles O34: a self-test by its verdicts, a slice by its bank, the commands by their checks, TEST_SNAP by the snapshots it names. -/
theorem selfTestAndMonitors : Obligations.SelfTestAndMonitors := by
  unfold Obligations.SelfTestAndMonitors
  refine ⟨fun b => ⟨fun c => ⟨fun hr hc => ?start, fun hr => ?result, fun hr hc => ?background⟩, fun r failing h => ?done,
    fun k s b1 he hf ha hm hc hn => ?begins, fun k s failed h hl => ?ends⟩,
    fun b => ⟨fun c => ⟨fun hr hc => ?monitor, fun hr hm h1 h2 h3 => ?read, fun hr => ?load⟩, fun v hm => ?snap⟩⟩
  case start => exact replies_of_meets (fun _ => rfl) hr hc rfl
  case result => exact replies_of_meets (m := mBistResult) (fun _ => rfl) hr rfl rfl
  case background => exact replies_of_meets (fun _ => rfl) hr (mBgTestSet_meets hc) rfl
  case done => exact ends_of_eq (fun _ => rfl) (bistDone_judges h failing)
  case begins => exact ends_of_eq (fun _ => rfl) (bgSliceStart_begins he hf ha hm hc hn)
  case ends =>
    intro b0 b1 b2
    have hends {d : Block} (hd : bgSliceRelease failed b = d) : Ends (.bgSliceRelease failed) b d := ends_of_eq (fun _ => rfl) hd
    exact ⟨fun hr => hends ((bgSliceRelease_ends h hl failed).trans (if_neg (Bool.eq_false_iff.mp hr))),
      fun hr => hends ((bgSliceRelease_ends h hl failed).trans (if_pos hr))⟩
  case monitor =>
    intro m a b1 b2
    exact ⟨fun h => replies_of_meets (fun _ => rfl) hr hc (mMonConfig_falls h _ _),
      fun h => replies_of_meets (fun _ => rfl) hr hc (mMonConfig_asks h _ _)⟩
  case read => exact replies_of_meets (fun _ => rfl) hr (mMonRead_meets hm h1 h2 h3) rfl
  case load => exact replies_of_meets (m := mLaneLoad) (fun _ => rfl) hr rfl rfl
  case snap => exact ends_of_eq (fun _ => rfl) (hostReg_testSnap hm)

end Sys2Proof.Machine
end

section
/-! PROOFS. The audio outputs and inputs, their frames, and their commands (14 R469 to R491). -/

namespace Sys2Proof.Machine

section
variable {b : Block} {n : Nat}

/-! ### A frame on the wire (R469, R481, R482) -/

theorem frameSlots_get {p s : Nat} (h : s < b.rd (fTDM_OUT_CFG_SLOTS.at p)) :
    (frameSlots b p)[s]? =
      some (BitVec.ofInt 32 (shorten (tdmBits (b.rd (fTDM_OUT_CFG_WIDTH.at p))) (nth 0 b.mix.words (8 + 16 * p + s)) *
        2 ^ (32 - tdmBits (b.rd (fTDM_OUT_CFG_WIDTH.at p))))) := by
  simp [frameSlots, h]

/-- The bits of two slots in their order, MSB first. -/
def slotBits (l r : Word) : List Bool := [l, r].flatMap (fun w => (List.range 32).map (fun i => w.getMsbD i))

section
variable (l r : Word) {i : Nat}

theorem slotBits_length : (slotBits l r).length = 64 := by simp [slotBits]

theorem slotBits_left (h : i < 32) : (slotBits l r)[i]? = some (l.getMsbD i) := by
  simp [slotBits, List.getElem?_append_left, h]

theorem slotBits_right (h : i < 32) : (slotBits l r)[32 + i]? = some (r.getMsbD i) := by
  simp [slotBits, List.getElem?_append_right, h]

/-- The data one BCLK late, behind the bit that the frame before leaves. -/
theorem slotBits_late (last : Bool) (h : i + 1 < 64) : ((last :: slotBits l r).take 64)[i + 1]? = (slotBits l r)[i]? := by
  rw [List.getElem?_take_of_lt h, List.getElem?_cons_succ]

/-- FS by its place in the frame, beside the data. -/
theorem framed_get {f : Nat → Bool} {data : List Bool} {x : Bool} (hi : i < 64) (hd : data[i]? = some x) :
    (((List.range 64).map f).zip data)[i]? = some (f i, x) := by
  simp [List.getElem?_zip_eq_some, hd, hi]

theorem wireFrame_i2s (dly : Nat) (last : Bool) :
    wireFrame 0 dly last [l, r] =
      ((List.range 64).map (fun i => decide (32 ≤ i))).zip ((last :: slotBits l r).take 64) := by
  rw [← slotBits_length l r]; rfl

theorem wireFrame_leftJustified (dly : Nat) (last : Bool) :
    wireFrame 1 dly last [l, r] = ((List.range 64).map (fun i => decide (i < 32))).zip (slotBits l r) := by
  rw [← slotBits_length l r]; rfl

theorem wireFrame_tdm (last : Bool) :
    wireFrame 2 0 last [l, r] = ((List.range 64).map (fun i => i == 0)).zip (slotBits l r) := by
  rw [← slotBits_length l r]; rfl

theorem wireFrame_tdmLate (last : Bool) :
    wireFrame 2 1 last [l, r] = ((List.range 64).map (fun i => i == 0)).zip ((last :: slotBits l r).take 64) := by
  rw [← slotBits_length l r]; rfl

end

/-- The currents of the two pins share the full scale between them (R469). -/
theorem pinCurrents_share {ifs c : Nat} (h : c ≤ 65536) : ifs * c + ifs * (65536 - c) = 65536 * ifs := by
  rw [← Nat.mul_add, Nat.add_sub_cancel' h, Nat.mul_comm]

/-! ### Strobes (R471 to R475) -/

theorem mirrorDac_paired {k code : Nat} (h : b.isPrimary = false) : mirrorDac k code b = b := by
  rw [mirrorDac, if_neg (by rw [h]; exact Bool.false_ne_true)]

theorem sendNext_aout : (sendNext b).aout = b.aout := by
  unfold sendNext
  split
  · split <;> rfl
  · rfl

theorem mirrorDac_aout {k code : Nat} : (mirrorDac k code b).aout = b.aout := by
  unfold mirrorDac sendFrame
  split
  · split
    · exact forN_keeps (Block.aout) (fun _ _ => sendNext_aout) _ _
    · rfl
  · rfl

theorem stagedCode_aout : (stagedCode n b).2.aout = b.aout := by
  unfold stagedCode
  split
  · rfl
  · split <;> rfl

theorem modDac_ldacn (f : Dac → Dac) : (b.modDac n f).aout.ldacn = b.aout.ldacn := rfl

theorem applyCode_ldacn {code : Nat} : (applyCode n code b).aout.ldacn = b.aout.ldacn := by
  unfold applyCode
  split
  · split
    · rw [Block.wr_aout]
    · rfl
  · split
    · extract_lets x
      have hx : x.aout.ldacn = b.aout.ldacn := (modDac_ldacn _).trans (congrArg Aout.ldacn (b.wr_aout _ _))
      split
      · exact (modDac_ldacn _).trans hx
      · exact (congrArg Aout.ldacn (x.wr_aout _ _)).trans hx
    · rfl

theorem strobeChannel_ldacn : (strobeChannel n b).aout.ldacn = b.aout.ldacn := by
  unfold strobeChannel
  dsimp only
  split
  · rfl
  · rw [applyCode_ldacn]
    split <;> split <;> simp only [mirrorDac_aout, stagedCode_aout]

/-- A strobe of group 0 pulses LDACN where that is an output, and its channels leave the pulse as it is. -/
theorem strobeGroup_ldacn (h : b.flag fAOUT_CTRL_LDACN_OUT = true) : (strobeGroup 0 b).aout.ldacn = some b.now := by
  have hchannel (k : Nat) (x : Block) :
      (if x.flag (fDAC_CFG_MODE.at k) && x.rd (fDAC_CFG_GROUP.at k) == 0 then strobeChannel k x else x).aout.ldacn =
        x.aout.ldacn := by
    split
    · exact strobeChannel_ldacn
    · rfl
  rw [strobeGroup, if_pos ⟨rfl, h⟩]
  exact forN_keeps (fun x : Block => x.aout.ldacn) hchannel 8 _

theorem storeWord_strobe (v : Nat) : storeWord rDAC_STROBE v b = writeStrobe v b := rfl

theorem hostReg_strobe {v : Word} (hm : b.hostMay rDAC_STROBE = true) (hp : b.isPrimary = false) :
    hostReg rDAC_STROBE v b = logJournal rDAC_STROBE v.toNat (restartCheck rDAC_STROBE (writeStrobe v.toNat b)) := by
  rw [hostReg_mirrored hm (by decide) (by decide) (by decide) (by decide) (by decide) hp, storeWord_strobe]

section
variable (hm : b.flag (fDAC_CFG_MODE.at n) = true) (hc : b.flag (fDAC_STAT_CONNECTED.at n) = true)
include hm hc

theorem applyCode_connected (code : Nat) : applyCode n code b = b.wr (fDAC_STAT_ACTIVE.at n) code := by
  rw [applyCode, if_pos (by rw [dacClosed, hc, Bool.true_or]), if_pos hm]

variable (hl : dacLoads b n = true)
include hl

omit hc hl in
theorem strobeChannel_forwarded (hf : codesForwarded b = true) : strobeChannel n b = b := by
  rw [strobeChannel, if_pos (by simp [hm, hf])]

variable (hp : b.isPrimary = false) (hf : codesForwarded b = false)
include hp hf

theorem strobeChannel_muted (hmute : muted b = true) : strobeChannel n b = b.wr (fDAC_STAT_ACTIVE.at n) 0x8000 := by
  simp [strobeChannel, hl, hf, hm, hmute, mirrorDac_paired hp, applyCode_connected hm hc]

/-- A connected DIRECT channel takes its staged code. -/
theorem strobeChannel_staged (hmute : muted b = false) {code : Nat} {b' : Block} (hs : stagedCode n b = (code, b'))
    (hregs : b'.regs = b.regs) : strobeChannel n b = b'.wr (fDAC_STAT_ACTIVE.at n) code := by
  have hword (a : Nat) : b'.word a = b.word a := by rw [Block.word, Block.word, hregs]
  have hflag (f : Fld) : b'.flag f = b.flag f := by rw [Block.flag, Block.flag, Block.rd, Block.rd, hword]
  have hp' : b'.isPrimary = false := by rw [← hp, Block.isPrimary, Block.isPrimary, Block.rd, Block.rd, hword]
  have happly : applyCode n code b' = b'.wr (fDAC_STAT_ACTIVE.at n) code :=
    applyCode_connected ((hflag _).trans hm) ((hflag _).trans hc) code
  simp [strobeChannel, hl, hf, hm, hmute, hs, mirrorDac_paired hp', happly]

end

section
variable (hd : b.flag (fDAC_CFG_DSRC.at n) = false)
include hd

theorem stagedCode_code (h : codeBefore b n = none) : stagedCode n b = (b.rd (fDAC_CODE_CODE.at n), b) := by
  simp [stagedCode, hd, h]

/-- A code written in the strobe's own tick: that staged before it, or it (notes/assumptions/19.md). -/
theorem stagedCode_either {old : Nat} (h : codeBefore b n = some old) :
    stagedCode n b = (old, (b.fresh 474).2) ∨ stagedCode n b = (b.rd (fDAC_CODE_CODE.at n), (b.fresh 474).2) := by
  have hs : stagedCode n b =
      (if (b.fresh 474).1 % 2 = 0 then old else b.rd (fDAC_CODE_CODE.at n), (b.fresh 474).2) := by
    rw [stagedCode, if_neg (by rw [hd]; exact Bool.false_ne_true), h]
    rfl
  rw [hs]
  split
  · exact Or.inl rfl
  · exact Or.inr rfl

end

/-! ### An enable under the writes beside it (R70, R72) -/

section
variable {a : Nat}

/-- A field stored in another word, or below the enable, leaves the enable. -/
theorem enabled_wr {f : Fld} (v : Nat) (hf : f.lo ≤ f.hi) (h : a ≠ f.addr ∨ f.hi < 31) : enabled (b.wr f v) a = enabled b a := by
  by_cases ha : a = f.addr
  · have hhi : f.hi < 31 := h.resolve_left (fun hne => hne ha)
    subst ha
    rw [enabled, enabled, Block.wr, Block.setWord_word_same, bit_mod (by decide), bit_eq_bitsOf, bit_eq_bitsOf,
      bitsOf_putBits_gt hf hhi]
  · rw [enabled, enabled, b.wr_word_ne v ha]

variable (he : isEnable a = true)
include he

theorem enable_apart_reason : a ≠ rROLLCALL_REASON := by
  rintro rfl
  exact absurd he (by decide)

theorem enable_apart_addr : a ≠ rROLLCALL_ADDR := by
  rintro rfl
  exact absurd he (by decide)

/-- A word that goes back leaves every enable. -/
theorem enabled_undoWord (x w : Nat) (b : Block) : enabled (undoWord x w b) a = enabled b a := by
  by_cases ha : a = x
  · subst ha
    rw [undoWord, if_pos he, enabled, Block.setWord_word_same, bit_mod (by decide), bit_eq_bitsOf, bitsOf_putBits_same le_rfl]
    cases enabled b a <;> rfl
  · rw [enabled, enabled, undoWord, Block.setWord_word_ne _ _ ha]

theorem enabled_noteChecks (b : Block) : enabled (noteChecks b) a = enabled b a := by
  have hbegin : (beginCheck b).word a = b.word a := by
    unfold beginCheck
    split
    · split <;> rfl
    · rfl
  have ha := enable_apart_reason he
  rw [enabled, enabled, noteChecks, Block.wr_word_ne _ _ ha, Block.wrB, Block.wr_word_ne _ _ ha, hbegin]

/-- A command's end leaves every enable. -/
theorem enabled_finish (b : Block) (tok : Tok) (stamp : Nat) (late : Bool) (e : End) :
    enabled (b.finish tok stamp late e) a = enabled b a := by
  have ha : a ≠ rHIF_DOORBELL_OUT := by
    rintro rfl
    exact absurd he (by decide)
  have hplaced (i : Nat) (r : Reply) : (b.placeReply i r).word a = b.word a := Block.wr_word_ne _ _ ha
  have hdelivered (r : Reply) : (b.deliver r).word a = b.word a := by
    unfold Block.deliver
    split
    · exact hplaced _ _
    · exact noteOverflow_keeps (fun x => x.word a) (fun _ _ => rfl) (fun x k => x.raise_word k a) _
  unfold enabled Block.finish
  split
  · rfl
  · split
    · rfl
    · rw [hdelivered]

theorem enabled_refuseCheck (c : Check) (r : Reason) (b : Block) : enabled (refuseCheck c r b) a = enabled b a := by
  have hnoted (x : Block) : enabled (noteRefusal c.addr r x) a = enabled x a := by
    rw [enabled, enabled, noteRefusal_word _ _ (enable_apart_reason he) (enable_apart_addr he)]
  have hstep (w : Nat × Nat) (x : Block) : enabled (undoWord w.1 w.2 x) a = enabled x a := enabled_undoWord he w.1 w.2 x
  have hundone : enabled (forL c.undo (fun w x => undoWord w.1 w.2 x) b) a = enabled b a :=
    forL_keeps (fun x => enabled x a) hstep c.undo b
  unfold refuseCheck
  split
  · exact (enabled_finish he _ _ _ _ _).trans ((hnoted _).trans hundone)
  · exact (hnoted _).trans hundone

/-- A check that starts again, or is refused for it, leaves every enable. -/
theorem enabled_restartCheck (x : Nat) (b : Block) : enabled (restartCheck x b) a = enabled b a := by
  unfold restartCheck
  split
  · split
    · split
      · rw [enabled_refuseCheck he, enabled_noteChecks he]
        rfl
      · rfl
    · rfl
  · rfl

end

/-! ### A channel's range and its end (R477 to R479) -/

section
variable {r : Nat}

theorem isEnable_dac (h : n < 8) : isEnable (rDAC_CFG + 0x10 * n) = true := by
  interval_cases n <;> rfl

theorem storeWord_dac (h : n < 8) (v : Nat) : storeWord (rDAC_CFG + 0x10 * n) v b = writeDacCfg n v b := by
  interval_cases n <;> rfl

/-- The word of a channel with another range, its enable at 1. -/
def rangeWord (n r : Nat) (b : Block) : Nat :=
  (BitVec.ofNat 32 (putBits (putBits (b.word (rDAC_CFG + 0x10 * n)) 31 31 1) 9 8 r)).toNat

theorem rangeWord_range (h : r < 4) : bitsOf (rangeWord n r b) 9 8 = r := by
  rw [rangeWord, BitVec.toNat_ofNat, bitsOf_mod (by decide), bitsOf_putBits_same (by decide)]
  exact Nat.mod_eq_of_lt h

theorem rangeWord_enable : bit (rangeWord n r b) 31 = true := by
  rw [rangeWord, BitVec.toNat_ofNat, bit_mod (by decide), bit_eq_bitsOf, bitsOf_putBits_gt (by decide) (by decide),
    bitsOf_putBits_same le_rfl]
  rfl

theorem enabled_writeRange : enabled (writeRange n r b) (rDAC_CFG + 0x10 * n) = enabled b (rDAC_CFG + 0x10 * n) := by
  have hrange (x : Block) (v : Nat) :
      enabled (x.wr (fDAC_CFG_RANGE.at n) v) (rDAC_CFG + 0x10 * n) = enabled x (rDAC_CFG + 0x10 * n) :=
    enabled_wr v (by decide : 8 ≤ 9) (Or.inr (by decide : 9 < 31))
  have hbusy (x : Block) (v : Nat) :
      enabled (x.wr (fDAC_STAT_RANGE_BUSY.at n) v) (rDAC_CFG + 0x10 * n) = enabled x (rDAC_CFG + 0x10 * n) :=
    enabled_wr v (le_refl 31) (Or.inl (show 0x60100 + 0x10 * n ≠ 0x60108 + 0x10 * n by omega))
  have hactive (x : Block) (v : Nat) :
      enabled (x.wr (fDAC_STAT_ACTIVE.at n) v) (rDAC_CFG + 0x10 * n) = enabled x (rDAC_CFG + 0x10 * n) :=
    enabled_wr v (by decide : 0 ≤ 15) (Or.inr (by decide : 15 < 31))
  have hdac (x : Block) (f : Dac → Dac) :
      enabled (x.modDac n f) (rDAC_CFG + 0x10 * n) = enabled x (rDAC_CFG + 0x10 * n) := rfl
  unfold writeRange
  split
  · rfl
  · dsimp only
    split
    · split <;> simp only [hrange, hbusy, hactive, hdac]
    · exact hrange _ _

theorem writeDacCfg_enabled (he : enabled b (rDAC_CFG + 0x10 * n) = true) (hr : r < 4) :
    writeDacCfg n (rangeWord n r b) b = writeRange n r b := by
  rw [writeDacCfg, putIdle, if_pos he, rangeWord_range hr]

theorem dacRange_enabled (hn : n < 8) (hr : r < 4) (hm : b.hostMay (rDAC_CFG + 0x10 * n) = true) (hp : b.isPrimary = false)
    (he : enabled b (rDAC_CFG + 0x10 * n) = true) :
    dacRange n r b = logJournal (rDAC_CFG + 0x10 * n) (rangeWord n r b) (restartCheck (rDAC_CFG + 0x10 * n) (writeRange n r b)) := by
  have hi := isEnable_dac hn
  have hmirrored : isMirrored (rDAC_CFG + 0x10 * n) = true := by interval_cases n <;> rfl
  have hstore : storeWord (rDAC_CFG + 0x10 * n) (rangeWord n r b) b = writeRange n r b := by
    rw [storeWord_dac hn, writeDacCfg_enabled he hr]
  have hstays : enabled (restartCheck (rDAC_CFG + 0x10 * n) (writeRange n r b)) (rDAC_CFG + 0x10 * n) = true := by
    rw [enabled_restartCheck hi, enabled_writeRange, he]
  have hwrite : writeReg (rDAC_CFG + 0x10 * n) (rangeWord n r b) b =
      restartCheck (rDAC_CFG + 0x10 * n) (writeRange n r b) := by
    cases hc : checking b (rDAC_CFG + 0x10 * n)
    · rw [writeReg_one_new hi rangeWord_enable hc, hstore]
      exact if_pos hstays
    · rw [writeReg_one_checking hi rangeWord_enable hc, hstore]
  have hword : dacRange n r b = hostReg (rDAC_CFG + 0x10 * n)
      (BitVec.ofNat 32 (putBits (putBits (b.word (rDAC_CFG + 0x10 * n)) 31 31 1) 9 8 r)) b := by
    rw [dacRange, he]
    rfl
  rw [hword, hostReg_writes hm (show 0x10000 ≤ 0x60100 + 0x10 * n by omega) (show 0x60100 + 0x10 * n < 0xF0000 by omega)
    (show (0x60100 + 0x10 * n) % 4 = 0 by omega) (by rw [hp, Bool.false_and]), if_pos hmirrored]
  exact congrArg _ hwrite

/-- A connected DIRECT channel steps to mid-scale for its new range (R478). -/
theorem writeRange_connected (hb : b.flag (fDAC_STAT_RANGE_BUSY.at n) = false) (hc : b.flag (fDAC_STAT_CONNECTED.at n) = true)
    (hr : b.rd (fDAC_CFG_RANGE.at n) ≠ r) (hm : b.flag (fDAC_CFG_MODE.at n) = true) :
    writeRange n r b =
      ((((b.wr (fDAC_CFG_RANGE.at n) r).wr (fDAC_STAT_RANGE_BUSY.at n) 1).modDac n (fun d => { d with next := some r })).wr
        (fDAC_STAT_ACTIVE.at n) 0x8000) := by
  have hconnected : (b.wr (fDAC_CFG_RANGE.at n) r).flag (fDAC_STAT_CONNECTED.at n) = true := by
    rw [Block.flag, b.wr_rd_other r (by decide : 8 ≤ 9) (by decide : 9 < 32)
      (Or.inl (show 0x60108 + 0x10 * n ≠ 0x60100 + 0x10 * n by omega))]
    exact hc
  have hdirect : ((b.wr (fDAC_CFG_RANGE.at n) r).wr (fDAC_STAT_RANGE_BUSY.at n) 1).flag (fDAC_CFG_MODE.at n) = true := by
    rw [Block.flag, Block.wr_rd_other _ _ (le_refl 31) (by decide : 31 < 32)
      (Or.inl (show 0x60100 + 0x10 * n ≠ 0x60108 + 0x10 * n by omega)),
      b.wr_rd_other r (by decide : 8 ≤ 9) (by decide : 9 < 32) (Or.inr (Or.inr ⟨(by decide : 9 < 30), (by decide : 30 < 32)⟩))]
    exact hm
  rw [writeRange, if_neg (by rw [hb]; exact Bool.false_ne_true)]
  exact (if_pos (by rw [hconnected, Bool.true_and]; exact bne_iff_ne.mpr hr)).trans (if_pos hdirect)

end

theorem dacRangeDone_next {r : Nat} (h : (b.dac n).next = some r) :
    dacRangeDone n b =
      ((((b.modDac n (fun d => { d with next := none, range := r })).wr (fDAC_STAT_ACTIVE.at n) 0x8000).wr
        (fDAC_STAT_RANGE_BUSY.at n) 0).raise (evDAC_RANGE_DONE n)) := by
  rw [dacRangeDone, h]

/-! ### Slave ports and inputs (R482, R483) -/

theorem tdmSlaveFs_fresh {p : Nat} (hs : slaveOut b p = true) (hf : nth false b.aout.fresh p = true) :
    tdmSlaveFs p b =
      { formFrame p b with aout := { (formFrame p b).aout with fresh := b.aout.fresh.set p false } } := by
  rw [tdmSlaveFs, if_pos hs, if_pos hf]
  rfl

/-- A sample sent twice is an error (R483). -/
theorem tdmSlaveFs_stale {p : Nat} (hs : slaveOut b p = true) (hf : nth false b.aout.fresh p = false) :
    tdmSlaveFs p b =
      { formFrame p (tdmError b) with
        aout := { (formFrame p (tdmError b)).aout with fresh := (tdmError b).aout.fresh.set p false } } := by
  rw [tdmSlaveFs, if_pos hs, if_neg (by rw [hf]; exact Bool.false_ne_true)]
  rfl

theorem tdmFrameErr_output {p : Nat} (hp : p < 4) (hs : slaveOut b p = true) : tdmFrameErr p b = tdmError b := by
  rw [tdmFrameErr, if_pos hp, if_pos hs]

section
variable {p : Nat} (he : b.flag (fTDM_IN_CFG_EN.at p) = true) (hd : b.on dAIO = true)
include he hd

theorem tdmFrameErr_input (hm : b.flag (fTDM_IN_CFG_MASTER.at p) = false) : tdmFrameErr (4 + p) b = tdmError b := by
  rw [tdmFrameErr, if_neg (by omega), Nat.add_sub_cancel_left, if_pos (by simp [he, hm, hd])]

theorem tdmInputSample_taken {k w : Nat} (hk : k < b.rd (fTDM_IN_CFG_SLOTS.at p)) :
    tdmInputSample p k w b =
      { b with aout := { b.aout with
        tdmIn := b.aout.tdmIn.modify p (fun l => l.set k (topBits (b.rd (fTDM_IN_CFG_WIDTH.at p)) w)) } } :=
  if_pos (by simp [he, hk, hd])

end

/-! ### S/PDIF and the rate converter (R485, R486) -/

section
variable (hl : b.flag fSPDIF_IN_STAT_LOCK = true)
include hl

theorem spdifUnlock_clockless (hc : b.clk.spdifClock = false) :
    spdifUnlock b = (b.wr fSPDIF_IN_STAT_LOCK 0).raise evSPDIF_UNLOCK := by
  unfold spdifUnlock
  rw [if_pos hl]
  extract_lets x
  have hclock : x.clk = b.clk := (Block.raise_clk _ _).trans (b.wr_clk _ _)
  rw [if_neg (by rw [hclock, hc]; exact Bool.false_ne_true)]

theorem spdifSubframe_bad (k w : Nat) : spdifSubframe k w true b = b.countUp fSPDIF_ERR_COUNT_COUNT 1 := by
  rw [spdifSubframe, if_neg (by simp [hl]), if_pos rfl]

/-- A sample that no other one of its period meets is taken. -/
theorem spdifSubframe_taken {k w : Nat} (h : k = 1 ∨ b.aout.spdifNew = false) :
    spdifSubframe k w false b =
      { b with aout := { b.aout with
        spdif := b.aout.spdif.set k (sext 32 w), spdifNew := b.aout.spdifNew || k == 0 } } := by
  have hkeeps : (k == 0 && b.aout.spdifNew && spdifLive b && !spdifExact b) = false := by
    rcases h with rfl | h
    · rfl
    · rw [h, Bool.and_false, Bool.false_and, Bool.false_and]
  rw [spdifSubframe, if_neg (by simp [hl]), if_neg Bool.false_ne_true, hkeeps]
  rfl

end

/-! ### The commands (R490, R491) -/

section
variable {p : List Byte}

theorem mDacConfig_asks (h : bit (leAt p 4 4) 31 = true) (tok : Tok) (stamp : Nat) :
    mDacConfig.eff tok stamp p b =
      (.later, startCheck (rDAC_CFG + 0x10 * leAt p 0 1) (some tok) stamp
        [(rDAC_CFG + 0x10 * leAt p 0 1, b.word (rDAC_CFG + 0x10 * leAt p 0 1)),
          (rDAC_CODE + 0x10 * leAt p 0 1, b.word (rDAC_CODE + 0x10 * leAt p 0 1))]
        (writeDacCode (leAt p 0 1) (leAt p 8 4) (writeDacCfg (leAt p 0 1) (leAt p 4 4) b))) := if_pos h

theorem mDacConfig_falls (h : bit (leAt p 4 4) 31 = false) (tok : Tok) (stamp : Nat) :
    mDacConfig.eff tok stamp p b =
      (ok [], dropDac (leAt p 0 1) (clearEnable (rDAC_CFG + 0x10 * leAt p 0 1)
        (writeDacCode (leAt p 0 1) (leAt p 8 4) (writeDacCfg (leAt p 0 1) (leAt p 4 4) b)))) :=
  if_neg (by rw [h]; exact Bool.false_ne_true)

theorem mDacSetRange_meets (hr : leAt p 1 1 ≤ 3) (hb : rangeBusy b (leAt p 0 1) = false) : mDacSetRange.chk p b = none := by
  have hr' : ¬ 3 < leAt p 1 1 := by omega
  simp [mDacSetRange, hr', hb]

theorem mDacLoad_meets (hb : rangeBusy b (leAt p 0 1) = false) : mDacLoad.chk p b = none :=
  if_neg (by rw [hb]; exact Bool.false_ne_true)

theorem mDacSetGroup_meets (h0 : leAt p 0 1 ≤ 3) (h1 : leAt p 1 1 ≤ 3) (h2 : leAt p 2 1 ≤ 15) (h3 : leAt p 3 1 ≤ 1) :
    mDacSetGroup.chk p b = none :=
  if_neg (by simp [h0, h1, h2, h3])

/-- The words that PORT_CONFIG stores before the enable. -/
def portStored (a : Nat) (p : List Byte) (b : Block) : Block :=
  let b1 := if enabled b a then b else b.put a (putBits (leAt p 4 4) 31 31 0)
  let slots (x : Block) := x.setWord a (putBits (x.word a) 20 16 (bitsOf (leAt p 4 4) 20 16))
  (fun x => if leAt p 0 1 = 2 then x.setWord rSPDIF_OUT_CS (leAt p 8 4) else x)
    (if leAt p 0 1 ≤ 1 ∧ bit (leAt p 4 4) 31 = true ∧ enabled b a = false then slots b1 else b1)

theorem mPortConfig_eff {a : Nat} (ha : portReg (leAt p 0 1) (leAt p 1 1) = some a) (tok : Tok) (stamp : Nat) :
    mPortConfig.eff tok stamp p b =
      if bit (leAt p 4 4) 31 then enableByCommand a tok stamp b [a, rSPDIF_OUT_CS] (portStored a p b)
      else (ok [], portDisabled a (clearEnable a (portStored a p b))) := by
  simp only [mPortConfig, ha, Bool.not_eq_true', portStored, putIdle]

end

end

/-- Settles O57: the frames by what a port has to send, a strobe by its channel, the range by the word it writes, the commands by
their checks. -/
theorem audioOutputs : Obligations.AudioOutputs := by
  unfold Obligations.AudioOutputs
  refine ⟨fun b => ⟨fun t ht hh hr => ?frameStart, fun p s hs => frameSlots_get hs, fun l r last i hi => ?wire,
    fun n hc => ?pins, fun hp hl => strobeGroup_ldacn hl, fun v hm hp => ?strobe, fun hl => ?fall,
    fun n hn hp hen hcl hb hc hm hd => ?channel, fun n r hn => ?range, fun n r hn h => ?rangeDone, fun n hn hcl => ?disconnect,
    fun n hn hc => ?fault, ⟨fun p hp hs => ?slave, fun p hp he hd => ?input⟩, fun rate nonPcm hw he hd => ?lock,
    fun hl => ⟨fun hc => ?unlock, fun ch w hch => ?subframe⟩, fun q hq => ?asrc⟩, fun b c => ?commands⟩
  case frameStart =>
    have hstarts : ¬ (b.tide.bound.isNone || b.mix.handed || !b.tideRuns) = true := by simp [ht, hh, hr]
    exact ends_of_eq (f := tdmFrameStart) (fun _ => rfl) (if_neg hstarts)
  case wire =>
    rw [wireFrame_i2s, wireFrame_leftJustified, wireFrame_tdm, wireFrame_tdmLate]
    have hlate {j : Nat} {x : Bool} (hj : j + 1 < 64) (h : (slotBits l r)[j]? = some x) :
        ((last :: slotBits l r).take 64)[j + 1]? = some x := (slotBits_late l r last hj).trans h
    have hleft := slotBits_left l r hi
    have hright := slotBits_right l r hi
    have hi64 : i < 64 := by omega
    have hj64 : 32 + i < 64 := by omega
    refine ⟨?_, ?_, ?_, framed_get (by decide) rfl, fun h31 => ?_, ?_, ?_, framed_get (by decide) rfl⟩
    · exact (framed_get hi64 hleft).trans (by rw [decide_eq_true hi])
    · exact (framed_get hj64 hright).trans (by rw [decide_eq_false (by omega)])
    · have hfs : decide (32 ≤ i + 1) = decide (i = 31) := decide_eq_decide.mpr (by omega)
      exact (framed_get (by omega) (hlate (by omega) hleft)).trans (by rw [hfs])
    · have hplace : 33 + i = 32 + i + 1 := by omega
      rw [hplace]
      exact (framed_get (by omega) (hlate (by omega) hright)).trans (by rw [decide_eq_true (by omega)])
    · exact (framed_get hj64 hright).trans (by rw [beq_false_of_ne (by omega)])
    · exact (framed_get (by omega) (hlate (by omega) hleft)).trans (by rw [beq_false_of_ne (by omega)])
  case pins => exact ⟨if_pos hc, pinCurrents_share⟩
  case strobe => exact ends_of_eq (fun _ => rfl) (hostReg_strobe hm hp)
  case fall => exact ends_of_eq (f := ldacnFall) (fun _ => rfl) (if_neg (by rw [hl]; exact Bool.false_ne_true))
  case channel =>
    have hloads : dacLoads b n = true := by simp [dacLoads, hen, hcl, hb, hd]
    have hstaged {code : Nat} {b' : Block} (hf : codesForwarded b = false) (hmute : muted b = false)
        (hs : stagedCode n b = (code, b')) (hregs : b'.regs = b.regs) :
        strobeChannel n b = b'.wr (fDAC_STAT_ACTIVE.at n) code := strobeChannel_staged hm hc hloads hp hf hmute hs hregs
    refine ⟨strobeChannel_forwarded hm, applyCode_connected hm hc, fun hf hmute => strobeChannel_muted hm hc hloads hp hf hmute,
      fun hf hmute => ⟨fun hs => hstaged hf hmute (if_pos hs) rfl, fun hs h => hstaged hf hmute (stagedCode_code hs h) rfl,
        fun old hs h => ?_⟩⟩
    exact (stagedCode_either hs h).imp (hstaged hf hmute · rfl) (hstaged hf hmute · rfl)
  case range =>
    intro a v ranged hm hp he
    exact ⟨ends_of_eqIf (fun _ => rfl) (decide_eq_true hn) (dacRange_enabled hn r.isLt hm hp he),
      fun hb => if_pos hb, fun hb hc hr hmode => writeRange_connected hb hc hr hmode⟩
  case rangeDone => exact ends_of_eqIf (fun _ => rfl) (decide_eq_true hn) (dacRangeDone_next h)
  case disconnect => exact ends_of_eqIf (f := dacDisconnect n) (fun _ => rfl) (decide_eq_true hn) (if_pos hcl)
  case fault => exact ends_of_eqIf (f := dacFault n) (fun _ => rfl) (decide_eq_true hn) (if_pos hc)
  case slave =>
    intro fresh
    refine ⟨?_, fun hf => ends_of_eqIf (fun _ => rfl) (decide_eq_true hp) (tdmSlaveFs_fresh hs hf),
      fun hf => ends_of_eqIf (fun _ => rfl) (decide_eq_true hp) (tdmSlaveFs_stale hs hf)⟩
    exact ends_of_eqIf (fun _ => rfl) (decide_eq_true (by omega)) (tdmFrameErr_output hp hs)
  case input =>
    refine ⟨fun hm => ?_, fun s w hs hs' => ?_⟩
    · exact ends_of_eqIf (fun _ => rfl) (decide_eq_true (by omega)) (tdmFrameErr_input he hd hm)
    · exact ends_of_eqIf (fun _ => rfl) (by simp [hp, hs']) (tdmInputSample_taken he hd hs)
  case lock => exact ends_of_eqIf (f := spdifLock rate nonPcm) (fun _ => rfl) hw (if_pos (by simp [he, hd]))
  case unlock => exact ends_of_eq (fun _ => rfl) (spdifUnlock_clockless hl hc)
  case subframe =>
    exact ⟨ends_of_eqIf (fun _ => rfl) (decide_eq_true hch) (spdifSubframe_bad hl ch w.toNat),
      fun h => ends_of_eqIf (fun _ => rfl) (decide_eq_true hch) (spdifSubframe_taken hl h)⟩
  case asrc =>
    refine ⟨fun he hs hd => ?_, fun hb => ?_⟩
    · exact ends_of_eqIf (f := asrcLock q) (fun _ => rfl) (decide_eq_true hq) (if_pos (by simp [he, hs, hd]))
    · exact ends_of_eqIf (f := asrcUnlock q) (fun _ => rfl) (decide_eq_true hq) (if_pos hb)
  case commands =>
    intro p
    refine ⟨fun hr hk => ⟨fun h => replies_of_meets (fun _ => rfl) hr hk (mDacConfig_asks h _ _),
        fun h => replies_of_meets (fun _ => rfl) hr hk (mDacConfig_falls h _ _)⟩,
      fun hr h3 hb => replies_of_meets (fun _ => rfl) hr (mDacSetRange_meets h3 hb) rfl,
      fun hr hb => replies_of_meets (fun _ => rfl) hr (mDacLoad_meets hb) rfl,
      fun hr h0 h1 h2 h3 => replies_of_meets (fun _ => rfl) hr (mDacSetGroup_meets h0 h1 h2 h3) rfl,
      fun a hr ha hk => ⟨fun h => ?_, fun h => ?_⟩,
      fun hr => replies_of_meets (m := mAoutStatus) (fun _ => rfl) hr rfl rfl⟩
    · exact replies_of_meets (fun _ => rfl) hr hk ((mPortConfig_eff ha _ _).trans (if_pos h))
    · exact replies_of_meets (fun _ => rfl) hr hk
        ((mPortConfig_eff ha _ _).trans (if_neg (by rw [h]; exact Bool.false_ne_true)))

end Sys2Proof.Machine
end

section
/-! PROOFS. What comes from the ferry peer, and the watch on it (15 R493, R494, R499 to R522). -/

namespace Sys2Proof.Machine

section
variable {b : Block}

/-! ### What the link's work leaves (R494) -/

section
variable {α : Type} (q : Block → α)

/-- What each frame sent leaves, the queue sent leaves. -/
theorem sendQueue_of_next (hnext : ∀ x, q (sendNext x) = q x) (b : Block) : q (sendQueue b) = q b :=
  forN_keeps q (fun _ x => hnext x) 32 b

variable (hq : ∀ (b : Block) queue sent seq replays plan copied,
    q { b with fry := { b.fry with
      queue := queue, sent := sent, seq := seq, replays := replays, plan := plan, copied := copied } } = q b)
include hq

theorem sendNext_keeps (b : Block) : q (sendNext b) = q b := by
  unfold sendNext
  split
  · split
    · exact hq b _ _ _ _ _ _
    · rfl
  · rfl

theorem sendQueue_keeps (b : Block) : q (sendQueue b) = q b := sendQueue_of_next q (sendNext_keeps q hq) b

theorem sendFrame_keeps (type : Nat) (bs : List Byte) (b : Block) : q (sendFrame type bs b) = q b := by
  unfold sendFrame
  split
  · exact (sendQueue_keeps q hq _).trans (hq b _ _ _ _ _ _)
  · rfl

variable (hcopied : ∀ (b : Block) v, q (b.wr fFERRY_CROSS_MIB_COPIED v) = q b)
include hcopied

theorem sendWords_keeps (a n : Nat) (b : Block) : q (sendWords a n b) = q b := by
  unfold sendWords
  exact (hcopied _ _).trans ((hq _ _ _ _ _ _ _).trans (sendFrame_keeps q hq _ _ b))

theorem copyNext_keeps (b : Block) : q (copyNext b) = q b := by
  unfold copyNext
  split
  · split
    · rfl
    · exact (sendWords_keeps q hq hcopied _ _ _).trans (hq b _ _ _ _ _ _)
  · rfl

theorem fillLink_keeps (b : Block) : q (fillLink b) = q b :=
  (forN_keeps q (fun _ x => copyNext_keeps q hq hcopied x) 32 _).trans (sendQueue_keeps q hq b)

/-- A frame heard touches what waits to be sent, and the count of what is copied. -/
theorem heard_keeps (b : Block) : q (heard b) = q b := (fillLink_keeps q hq hcopied _).trans (hq b _ _ _ _ _ _)

end

section
variable (b)

theorem fillLink_word {a : Nat} (ha : a ≠ rFERRY_CROSS) : (fillLink b).word a = b.word a :=
  fillLink_keeps (fun x => x.word a) (fun _ _ _ _ _ _ _ => rfl) (fun x v => x.wr_word_ne v ha) b

theorem heard_word {a : Nat} (ha : a ≠ rFERRY_CROSS) : (heard b).word a = b.word a :=
  heard_keeps (fun x => x.word a) (fun _ _ _ _ _ _ _ => rfl) (fun x v => x.wr_word_ne v ha) b

theorem heard_rd {f : Fld} (hf : f.addr ≠ rFERRY_CROSS) : (heard b).rd f = b.rd f := by
  rw [Block.rd, Block.rd, heard_word b hf]

theorem heard_ferryState : ferryState (heard b) = ferryState b := heard_rd b (by decide)

theorem heard_isShadow : (heard b).isShadow = b.isShadow := by rw [Block.isShadow, heard_rd b (by decide), Block.isShadow]

theorem heard_isPrimary : (heard b).isPrimary = b.isPrimary := by rw [Block.isPrimary, heard_rd b (by decide), Block.isPrimary]

theorem heard_sums : (heard b).fry.sums = b.fry.sums :=
  heard_keeps (fun x => x.fry.sums) (fun _ _ _ _ _ _ _ => rfl) (fun x v => congrArg Ferry.sums (x.wr_fry _ v)) b

theorem heard_compareFrom : (heard b).fry.compareFrom = b.fry.compareFrom :=
  heard_keeps (fun x => x.fry.compareFrom) (fun _ _ _ _ _ _ _ => rfl) (fun x v => congrArg Ferry.compareFrom (x.wr_fry _ v)) b

theorem heard_edge : (heard b).fry.edge = b.fry.edge :=
  heard_keeps (fun x => x.fry.edge) (fun _ _ _ _ _ _ _ => rfl) (fun x v => congrArg Ferry.edge (x.wr_fry _ v)) b

end

/-! ### The device's part in the pair (R497, R507) -/

theorem rd_of_regs {b' : Block} (h : b'.regs = b.regs) (f : Fld) : b'.rd f = b.rd f := by
  rw [Block.rd, Block.rd, Block.word, Block.word, h]

theorem isPrimary_of_regs {b' : Block} (h : b'.regs = b.regs) : b'.isPrimary = b.isPrimary := by
  rw [Block.isPrimary, Block.isPrimary, rd_of_regs h]

theorem isPrimary_of_shadow (h : b.isShadow = true) : b.isPrimary = false := by
  simp only [Block.isShadow, Block.isPrimary, beq_iff_eq] at h ⊢
  rw [h]
  rfl

theorem isShadow_of_primary (h : b.isPrimary = true) : b.isShadow = false := by
  simp only [Block.isShadow, Block.isPrimary, beq_iff_eq] at h ⊢
  rw [h]
  rfl

theorem boarding_past (h : 5 < ferryState b) : boarding b = false := by
  rw [boarding, decide_eq_false (Nat.not_le.mpr h), Bool.and_false]

theorem boarding_primary (h : b.isPrimary = true) : boarding b = false := by
  rw [boarding, isShadow_of_primary h, Bool.false_and, Bool.false_and]

/-- A device that does not serve copies nothing. -/
theorem copyNext_unpaired (h : b.isPrimary = false) : copyNext b = b := by
  unfold copyNext
  split
  · exact if_pos (by rw [copies, h, Bool.false_and, Bool.not_false, Bool.or_true])
  · rfl

theorem fillLink_unpaired (h : b.isPrimary = false) : fillLink b = sendQueue b := by
  have hsent : (sendQueue b).isPrimary = b.isPrimary :=
    isPrimary_of_regs (sendQueue_keeps Block.regs (fun _ _ _ _ _ _ _ => rfl) b)
  have hstays (n : Nat) : forN n (fun _ x => copyNext x) (sendQueue b) = sendQueue b :=
    List.foldlRecOn _ _ (motive := fun x => x = sendQueue b) rfl
      (fun x hx _ _ => by rw [hx]; exact copyNext_unpaired (hsent.trans h))
  exact hstays 32

theorem heard_copied (h : b.isPrimary = false) : (heard b).fry.copied = b.fry.copied := by
  have hnext (x : Block) : (sendNext x).fry.copied = x.fry.copied := by
    unfold sendNext
    split
    · split <;> rfl
    · rfl
  have hlink := fillLink_unpaired (b := { b with fry := { b.fry with sent := [], replays := 0 } }) ((isPrimary_of_regs rfl).trans h)
  have hqueue (x : Block) : (sendQueue x).fry.copied = x.fry.copied :=
    sendQueue_of_next (fun y => y.fry.copied) hnext x
  rw [heard, hlink, hqueue]

/-! ### The link (R493, R494, R517) -/

theorem ferryLinkUp_stays (hd : b.on dFERRY = true) (hl : b.flag fFERRY_STAT_LINK = false)
    (ha : b.flag fFERRY_CTRL_AUTO_BOARD = false) :
    ferryLinkUp b = (b.wr fFERRY_STAT_LINK 1).raise evFERRY_LINK_UP := by
  have hauto : ((b.wr fFERRY_STAT_LINK 1).raise evFERRY_LINK_UP).flag fFERRY_CTRL_AUTO_BOARD = false := by
    rw [Block.raise_flag, Block.flag, b.wr_rd_other 1 (by decide) (by decide) (Or.inl (by decide))]
    exact ha
  rw [ferryLinkUp, if_pos (by rw [hd, hl]; rfl), autoBoard, if_neg (by rw [hauto]; exact Bool.false_ne_true)]

theorem abandon_apart (retry : Bool) (hb : boarding b = false) (hs : ferryState b ≠ 8) : abandon retry b = b := by
  rw [abandon, if_neg (by rw [hb]; exact Bool.false_ne_true),
    if_neg (by rw [beq_false_of_ne hs, Bool.and_false]; exact Bool.false_ne_true)]

theorem abandon_serving (retry : Bool) (hp : b.isPrimary = true) (hs : ferryState b = 8) :
    abandon retry b = (setState 0 (endServing b)).raise evCROSSING_ABANDONED := by
  rw [abandon, if_neg (by rw [boarding_primary hp]; exact Bool.false_ne_true), if_pos (by rw [hp, hs]; rfl)]

/-- The link is down, and what it held is gone. -/
def linkLost (b : Block) : Block :=
  let b1 := (b.wr fFERRY_STAT_LINK 0).raise evFERRY_LINK_DOWN
  { b1 with fry := { b1.fry with sent := [], queue := [], plan := [], replays := 0, peer := none } }

theorem linkLost_rd {f : Fld} (h : f.addr ≠ rFERRY_STAT ∨ f.hi < 31) : (linkLost b).rd f = b.rd f := by
  have hregs : (linkLost b).regs = ((b.wr fFERRY_STAT_LINK 0).raise evFERRY_LINK_DOWN).regs := rfl
  rw [rd_of_regs hregs, Block.raise_rd]
  exact b.wr_rd_other 0 (by decide) (by decide) (h.imp id Or.inl)

/-- A pair in step falls apart with the link (R517). -/
theorem linkFalls_inStep (hl : b.flag fFERRY_STAT_LINK = true) (hs : ferryState b = 6) :
    linkFalls b =
      if b.isShadow then setState 7 { linkLost b with fry := { (linkLost b).fry with orphan := true, landAt := none } }
      else setState 0 { linkLost b with fry := { (linkLost b).fry with landAt := none } } := by
  have hstate : ferryState (linkLost b) = 6 := (linkLost_rd (Or.inr (by decide))).trans hs
  have hshadow : (linkLost b).isShadow = b.isShadow := by
    rw [Block.isShadow, linkLost_rd (Or.inl (by decide)), Block.isShadow]
  have habandon : abandon false (linkLost b) = linkLost b :=
    abandon_apart false (boarding_past (by rw [hstate]; decide)) (by rw [hstate]; decide)
  have hfalls : linkFalls b =
      if ferryState (abandon false (linkLost b)) = 6 then
        if (abandon false (linkLost b)).isShadow then
          setState 7 { abandon false (linkLost b) with
            fry := { (abandon false (linkLost b)).fry with orphan := true, landAt := none } }
        else setState 0 { abandon false (linkLost b) with fry := { (abandon false (linkLost b)).fry with landAt := none } }
      else abandon false (linkLost b) := by
    rw [linkFalls, if_neg (by rw [hl]; exact Bool.false_ne_true)]
    rfl
  rw [hfalls, habandon, if_pos hstate, hshadow]

section
variable (hl : linked b = true)
include hl

theorem frameReplay_again (hs : b.fry.sent ≠ []) (hr : b.fry.replays < 3) :
    frameReplay b = { b with fry := { b.fry with replays := b.fry.replays + 1 } }.countUp fFERRY_REPLAY_COUNT 1 := by
  rw [frameReplay, if_neg (by simp [hl, hs]), if_neg (by omega)]

theorem frameReplay_last (hs : b.fry.sent ≠ []) (hr : 3 ≤ b.fry.replays) : frameReplay b = linkFalls b := by
  rw [frameReplay, if_neg (by simp [hl, hs]), if_pos hr]

/-! ### Checksums (R514, R515) -/

/-- A checksum that meets the own one of its boundary is compared with it. -/
theorem cksumFrame_meets {t crc own : Nat} (hs : ferryState b = 6) (ho : b.fry.sums.lookup (localCount b t) = some own) :
    cksumFrame t crc b =
      if own ≠ crc ∧ (localCount b t + tideMod - b.fry.compareFrom) % tideMod < 2 ^ 47 then
        diverge (localCount b t) (heard b) else heard b := by
  have hkept : (heard b).fry.sums.lookup (localCount b t) = some own := by rw [heard_sums, ho]
  have hstate : (ferryState (heard b) == 6) = true := by rw [heard_ferryState, hs]; rfl
  have hfalls : cksumFrame t crc b = compareSums (localCount b t) crc (heard b) := by
    simp [cksumFrame, hl, hs, ho]
  rw [hfalls, compareSums, hkept]
  simp [hstate, heard_compareFrom]

/-! ### STATUS (R494, R507, R508) -/

/-- The peer's report recorded. -/
def peerNoted (role st rev rel : Nat) (missed : Nat) (b : Block) : Block :=
  (heard { b with fry := { b.fry with peer := some (role, st, rev, rel), missed := missed } }).wr fFERRY_STAT_PEER_STATE st

omit hl in
theorem peerNoted_ferryState (role st rev rel missed : Nat) :
    ferryState (peerNoted role st rev rel missed b) = ferryState b := by
  have hwr (x : Block) : ferryState (x.wr fFERRY_STAT_PEER_STATE st) = ferryState x :=
    x.wr_rd_other st (by decide) (by decide) (Or.inr (Or.inl (by decide)))
  exact (hwr _).trans (heard_ferryState _)

omit hl in
theorem peerNoted_role (role st rev rel missed : Nat) :
    (peerNoted role st rev rel missed b).rd fHIF_STATUS_FERRY_ROLE = b.rd fHIF_STATUS_FERRY_ROLE := by
  have hwr (x : Block) : (x.wr fFERRY_STAT_PEER_STATE st).rd fHIF_STATUS_FERRY_ROLE = x.rd fHIF_STATUS_FERRY_ROLE :=
    x.wr_rd_other st (by decide) (by decide) (Or.inl (by decide))
  exact (hwr _).trans (heard_rd _ (by decide))

/-- The peer's report is recorded, and then followed by a PRIMARY or a shadow as each has to. -/
theorem statusFrame_notes (role st rev rel : Nat) :
    statusFrame role st rev rel b =
      let x := peerNoted role st rev rel (if b.isShadow then b.fry.missed else 0) b
      if x.isPrimary && role == 2 then
        let y := followShadow st x
        if ferryState y = 6 then
          let (k, z) := y.fresh 506
          { z with fry := { z.fry with credits := min 256 (z.fry.credits + k % (257 - z.fry.credits)) } }
        else y
      else if boarding x && b.rd fFERRY_STAT_PEER_STATE == 8 && st != 8 && st != 6 then abandon true x
      else if x.isShadow && ferryState x == 0 then autoBoard x
      else x := by
  rw [statusFrame, if_neg (by rw [hl]; exact Bool.false_ne_true)]
  rfl

/-- A shadow in step records its primary's report. -/
theorem statusFrame_inStep {st rev rel : Nat} (hs : b.isShadow = true) (h6 : ferryState b = 6) :
    statusFrame 1 st rev rel b = peerNoted 1 st rev rel b.fry.missed b := by
  have hstate : ferryState (peerNoted 1 st rev rel b.fry.missed b) = 6 := (peerNoted_ferryState ..).trans h6
  have hboards : boarding (peerNoted 1 st rev rel b.fry.missed b) = false := boarding_past (by rw [hstate]; decide)
  rw [statusFrame_notes hl, hs]
  simp [hboards, hstate]

omit hl in
theorem serveShadow_ferryState (st : Nat) (b : Block) : ferryState (serveShadow st b) = ferryState b := by
  have hlinked (x : Block) : ferryState (fillLink x) = ferryState x := by
    rw [ferryState, ferryState, Block.rd, Block.rd, fillLink_word x (by decide)]
  unfold serveShadow
  split
  · split
    · exact rd_of_regs rfl _
    · split
      · rfl
      · exact (hlinked _).trans (rd_of_regs rfl _)
  · split
    · exact (hlinked _).trans (rd_of_regs rfl _)
    · rfl

/-- A PRIMARY that serves goes on serving by what its shadow reports. -/
theorem statusFrame_serves {st rev rel : Nat} (hp : b.isPrimary = true) (h8 : ferryState b = 8) (h1 : 1 ≤ st) (h5 : st ≤ 5) :
    statusFrame 2 st rev rel b = serveShadow st (peerNoted 2 st rev rel 0 b) := by
  have hstate : ferryState (peerNoted 2 st rev rel 0 b) = 8 := (peerNoted_ferryState ..).trans h8
  have hprimary : (peerNoted 2 st rev rel 0 b).isPrimary = true := by
    rw [Block.isPrimary, peerNoted_role]
    exact hp
  have hfollows : followShadow st (peerNoted 2 st rev rel 0 b) = serveShadow st (peerNoted 2 st rev rel 0 b) := by
    unfold followShadow
    rw [if_pos hstate, if_neg (by omega), if_neg (by omega), if_pos ⟨h1, h5⟩]
  have hstays : ferryState (serveShadow st (peerNoted 2 st rev rel 0 b)) ≠ 6 := by
    rw [serveShadow_ferryState, hstate]
    decide
  rw [statusFrame_notes hl, isShadow_of_primary hp, if_neg Bool.false_ne_true]
  exact (if_pos (by rw [hprimary]; rfl)).trans (by rw [hfollows]; exact if_neg hstays)

/-! ### Frames on a shadow (R500 to R511, R520, R522) -/

section
variable (hs : b.isShadow = true)
include hs

theorem copyFrame_installs (item : CopyItem) (h3 : 3 ≤ ferryState b) (h5 : ferryState b ≤ 5) :
    copyFrame item b =
      let n := b.fry.copied + itemBytes item
      let b1 := heard b
      let b2 := { b1 with fry := { b1.fry with copied := n } }.wr fFERRY_CROSS_MIB_COPIED (n / 2 ^ 20)
      if item == .words 0 [] then copyEnds b2 else installItem item b2 := by
  have hstate := heard_ferryState b
  unfold copyFrame
  rw [if_neg (by rw [hl, hs]; exact Bool.false_ne_true)]
  dsimp only
  rw [if_neg (by omega), if_pos (by omega), heard_copied (isPrimary_of_shadow hs)]

theorem mirrorFrame_write (a v : Word) (t : Tick) :
    mirrorFrame [.write a v t] b =
      takeMirror (localCount (heard b) t.toNat)
        (.write a (BitVec.ofNat 32 (localWord (originLow (heard b)) a.toNat v.toNat (heard b))) t) (heard b) :=
  if_neg (by rw [hl, hs]; exact Bool.false_ne_true)

theorem mirrorFrame_code (n : Nat) (code : BitVec 16) :
    mirrorFrame [.dacCode n code] b = forwardedCode n code.toNat (heard b) :=
  if_neg (by rw [hl, hs]; exact Bool.false_ne_true)

theorem abortFrame_applied {f : Nat} (hb : boarding (doAbort f (heard b)) = false) :
    abortFrame f b =
      let b1 := doAbort f (heard b)
      setState 7 { b1 with fry := { b1.fry with landAt := none, boardAfterAbort := b1.flag fFERRY_CTRL_AUTO_BOARD } } := by
  unfold abortFrame
  rw [if_pos (by rw [hl, hs]; rfl)]
  dsimp only
  rw [hb, if_neg Bool.false_ne_true]

/-- ALIGN in ALIGNING: the Tide is held for what is left to a whole boundary, or runs on (R499). -/
theorem alignFrame_aligns {t : Nat} (h2 : ferryState b = 2) (hh : b.fry.hold = none) :
    alignFrame t b =
      let delta := (t + tideMod - b.fry.edge) % tideMod
      let h := (1024 - delta % 1024) % 1024
      if h = 0 then endAlign delta (heard b)
      else { heard b with fry := { (heard b).fry with hold := some (h, (delta + h) % tideMod) } }.wr fTIDE_STAT_RUNNING 0 := by
  unfold alignFrame
  rw [if_pos (by rw [hl, hs, h2, hh]; rfl)]
  dsimp only
  rw [heard_edge]

end

end

/-! ### Sweep, heartbeat and landing (R507, R510, R513, R516) -/

theorem hasCrossed_new {v : Nat} (h : b.fry.crossed.contains v = false) :
    hasCrossed v b =
      { b with fry := { b.fry with crossed := b.fry.crossed ++ [v] } }.wr fFERRY_CROSS_VOICES (b.fry.crossed.length + 1) := by
  have hcount : (b.fry.crossed ++ [v]).length = b.fry.crossed.length + 1 := List.length_append
  rw [hasCrossed, h, if_neg Bool.false_ne_true]
  dsimp only
  rw [hcount]

theorem voiceSweep_shadow {v : Nat} (hs : b.isShadow = true) (hst : ferryState b = 3 ∨ ferryState b = 4) (hv : b.live v = true) :
    voiceSweep v b = setState (if allCrossed (hasCrossed v b) then 5 else 4) (hasCrossed v b) := by
  have hsweeps : (ferryState b == 3 || ferryState b == 4) = true := by
    rcases hst with h | h <;> rw [h] <;> rfl
  rw [voiceSweep, if_neg (by rw [isPrimary_of_shadow hs]; exact Bool.false_ne_true),
    if_pos (by rw [hs, hsweeps, hv]; rfl)]

theorem voiceSweep_primary {v : Nat} (hp : b.isPrimary = true) (h8 : ferryState b = 8) (hl : linked b = true) (hv : b.live v = true)
    (hd : slotDone b v = true) : voiceSweep v b = sendVoice v (hasCrossed v b) := by
  rw [voiceSweep, if_pos hp, if_pos ⟨h8, hl, hv, hd⟩]

/-- A heartbeat that a shadow misses, counted. -/
def beatMissed (b : Block) : Block :=
  let b1 := (b.raise evPEER_HEARTBEAT_LOST).countUp fFERRY_HB_MISS_COUNT 1
  { b1 with fry := { b1.fry with missed := b1.fry.missed + 1 } }

theorem peerLost_shadow (hs : b.isShadow = true) :
    peerLost b =
      if decide (2 ≤ (beatMissed b).fry.missed) && mayLand (beatMissed b) && (beatMissed b).fry.landAt.isNone then
        { beatMissed b with fry := { (beatMissed b).fry with
          landAt := some ((beatMissed b).boundAt (((beatMissed b).now + 1) % tideMod), false) } }
      else beatMissed b := by
  rw [peerLost, if_pos hs]
  rfl

theorem peerLost_stays (hs : b.isShadow = true) (h : (beatMissed b).fry.missed < 2 ∨ mayLand (beatMissed b) = false) :
    peerLost b = beatMissed b := by
  refine (peerLost_shadow hs).trans (if_neg ?_)
  rcases h with h | h
  · rw [decide_eq_false (Nat.not_le.mpr h), Bool.false_and, Bool.false_and]
    exact Bool.false_ne_true
  · rw [h, Bool.and_false, Bool.false_and]
    exact Bool.false_ne_true

theorem peerLost_lands (hs : b.isShadow = true) (h2 : 2 ≤ (beatMissed b).fry.missed) (hm : mayLand (beatMissed b) = true)
    (hn : (beatMissed b).fry.landAt = none) :
    peerLost b =
      { beatMissed b with fry := { (beatMissed b).fry with
        landAt := some ((beatMissed b).boundAt (((beatMissed b).now + 1) % tideMod), false) } } :=
  (peerLost_shadow hs).trans (if_pos (by rw [decide_eq_true h2, hm, hn]; rfl))

/-- One sample of FRY_FAULTN at low. -/
theorem fryFaultn_once (ht : b.tideRuns = true) (h0 : b.fry.lowTicks = 0) :
    fryFaultn b =
      let b1 := (b.advanceTo ((b.now + 1) % tideMod)).wr fFERRY_STAT_FAULTN_IN 0
      { b1 with fry := { b1.fry with lowTicks := 1, lowAt := b1.now } } := by
  have hfirst : ¬ (b.fry.lowTicks ≠ 0 ∧ (b.fry.lowAt + 1) % tideMod = (if b.tideRuns then (b.now + 1) % tideMod else b.now)) :=
    fun h => h.1 h0
  unfold fryFaultn
  rw [if_neg hfirst, if_pos ht]
  exact if_pos (Or.inl (by decide))

theorem landBoundary_forced {l : Nat} (hl : b.fry.landAt = some (l, false)) (hc : b.hasCome l = true) (hs : b.isShadow = true) :
    landBoundary b = land b.lastBound { b with fry := { b.fry with landAt := none } } := by
  rw [landBoundary, hl]
  dsimp only
  rw [if_neg (by rw [hc]; exact Bool.false_ne_true), if_neg Bool.false_ne_true]
  exact if_pos hs

end

/-- Settles O59: the link by its state, a frame by its kind and the device's state, the watch on the peer by what it has missed. -/
theorem ferryFramesAndPeer : Obligations.FerryFramesAndPeer := by
  unfold Obligations.FerryFramesAndPeer
  intro b
  refine ⟨fun hd hl ha => ?linkUp, fun hl h6 => ?linkDown, fun hl => ⟨fun hs hr => ?replay, fun hs hr => ?replayLast,
      fun rs hs h3 h6 hd => ?event, fun t crc own h6 ho => ?cksum, fun st rev rel t hs h6 => ?statusInStep,
      fun es hs h3 h5 => ?journal, fun item hs h3 h5 => ?copy, fun st rev rel t hp h8 h1 h5 => ?statusServes,
      fun a v t hs => ?mirrorWrite, fun n code hs => ?mirrorCode, fun f hs => ?abort, fun t h6 => ?land,
      fun t hs h2 hh => ?align⟩,
    fun h d hh ht => ?alignDone, fun v hv hs hst hlive hc => ?sweepShadow, fun hp h8 => ?timeout,
    fun v hv hp h8 hl hlive hd => ?sweepPrimary, fun hr => ?retry, fun hp => ?heartbeat, fun hs => ?peerLost,
    fun ht h0 => ?faultn, fun hp ht => ?guard, fun l hl hc hs => landBoundary_forced hl hc hs⟩
  case linkUp => exact ends_of_eq (fun _ => rfl) (ferryLinkUp_stays hd hl ha)
  case linkDown =>
    exact ⟨fun hs => ends_of_eq (fun _ => rfl) ((linkFalls_inStep hl h6).trans (if_pos hs)),
      fun hs => ends_of_eq (fun _ => rfl) ((linkFalls_inStep hl h6).trans (if_neg (by rw [hs]; exact Bool.false_ne_true)))⟩
  case replay => exact ends_of_eq (fun _ => rfl) (frameReplay_again hl hs hr)
  case replayLast => exact ends_of_eq (fun _ => rfl) (frameReplay_last hl hs hr)
  case event => exact ends_of_eq (f := eventFrame rs) (fun _ => rfl) (if_pos (by simp [hl, hs, h3, h6, hd]))
  case cksum =>
    intro k
    exact ⟨fun h => ends_of_eq (fun _ => rfl) ((cksumFrame_meets hl h6 ho).trans (if_neg fun hd => hd.1 h)),
      fun h hd => ends_of_eq (fun _ => rfl) ((cksumFrame_meets hl h6 ho).trans (if_pos ⟨h, hd⟩))⟩
  case statusInStep => exact ends_of_eq (fun _ => rfl) (statusFrame_inStep hl hs h6)
  case journal => exact ends_of_eq (f := journalFrame es) (fun _ => rfl) (if_pos (by simp [hl, hs, h3, h5]))
  case copy => exact ends_of_eq (fun _ => rfl) (copyFrame_installs hl hs item h3 h5)
  case statusServes => exact ends_of_eq (fun _ => rfl) (statusFrame_serves hl hp h8 h1 h5)
  case mirrorWrite => exact ends_of_eq (fun _ => rfl) (mirrorFrame_write hl hs a v t)
  case mirrorCode => exact ends_of_eq (fun _ => rfl) (mirrorFrame_code hl hs n code)
  case abort => exact fun hb => ends_of_eq (fun _ => rfl) (abortFrame_applied hl hs hb)
  case land => exact ends_of_eq (f := landFrame t.toNat) (fun _ => rfl) (if_pos (by rw [hl, h6]; rfl))
  case align =>
    intro delta h
    exact ⟨fun h0 => ends_of_eq (fun _ => rfl) ((alignFrame_aligns hl hs h2 hh).trans (if_pos h0)),
      fun h0 => ends_of_eq (fun _ => rfl) ((alignFrame_aligns hl hs h2 hh).trans (if_neg h0))⟩
  case alignDone =>
    have hdone : alignHoldDone b = endAlign d (b.wr fTIDE_STAT_RUNNING 1) := by
      rw [alignHoldDone, hh]
      dsimp only
      rw [ht, if_neg Bool.false_ne_true]
    exact ends_of_eq (fun _ => rfl) hdone
  case sweepShadow =>
    intro b1
    have hcrossed : hasCrossed v b = b1 := hasCrossed_new hc
    exact ends_of_eqIf (fun _ => rfl) (decide_eq_true hv) (hcrossed ▸ voiceSweep_shadow hs hst hlive)
  case timeout => exact ends_of_eq (f := crossingTimeout) (fun _ => rfl) (abandon_serving true hp h8)
  case sweepPrimary => exact ends_of_eqIf (fun _ => rfl) (decide_eq_true hv) (voiceSweep_primary hp h8 hl hlive hd)
  case retry => exact ends_of_eq (f := autoBoardRetry) (fun _ => rfl) (if_pos hr)
  case heartbeat => exact ends_of_eq (f := heartbeat) (fun _ => rfl) (if_neg (by rw [hp]; exact Bool.false_ne_true))
  case peerLost =>
    exact ⟨fun h => ends_of_eq (fun _ => rfl) (peerLost_stays hs h),
      fun h2 hm hn => ends_of_eq (fun _ => rfl) (peerLost_lands hs h2 hm hn)⟩
  case faultn => exact ends_of_eq (fun _ => rfl) (fryFaultn_once ht h0)
  case guard => exact ends_of_eq (f := outputGuard) (fun _ => rfl) (if_neg (by rw [hp, ht]; exact Bool.false_ne_true))

end Sys2Proof.Machine
end

section
/-! PROOFS. The commands to the ferry (15 R497, R507, R516, R520, R525, R526). -/

namespace Sys2Proof.Machine

section
variable {b : Block} {p : List Byte} {c : Cmd}

theorem mFerrySetRole_asks (h : leAt p 0 1 = 1) (tok : Tok) (stamp : Nat) :
    mFerrySetRole.eff tok stamp p b =
      (.later, startCheck rFERRY_CTRL (some tok) stamp [(rFERRY_CTRL, b.word rFERRY_CTRL)]
        (writeFerryCtrl (2 ^ 30 * leAt p 1 1 + 2 ^ 29 * leAt p 2 1 + 2 ^ 28 * (leAt p 3 1 % 2) + 2 ^ 27 * (leAt p 3 1 / 2)) b)) :=
  if_pos h

/-- EN written 0: the device becomes unpaired at the next boundary, where it had a role. -/
theorem mFerrySetRole_falls (h : leAt p 0 1 = 0) (tok : Tok) (stamp : Nat) :
    mFerrySetRole.eff tok stamp p b =
      let b2 := clearEnable rFERRY_CTRL
        (writeFerryCtrl (2 ^ 30 * leAt p 1 1 + 2 ^ 29 * leAt p 2 1 + 2 ^ 28 * (leAt p 3 1 % 2) + 2 ^ 27 * (leAt p 3 1 / 2)) b)
      (ok [], if enabled b rFERRY_CTRL then { b2 with fry := { b2.fry with unpair := true } } else b2) := by
  refine (if_neg (by omega)).trans ?_
  cases enabled b rFERRY_CTRL <;> rfl

theorem mFerryBoard_meets (hs : b.isShadow = true) (hl : b.flag fFERRY_STAT_LINK = true) (hb : boarding b = false) :
    mFerryBoard.chk p b = none := by
  simp [mFerryBoard, hs, hl, hb]

/-! ### FERRY_LAND (R516, R520, R526) -/

section
variable {i : CmdInfo} (ht : b.takes = true) (hs : b.serving = true) (hi : cmdInfo 0x0C02 = some i)
  (hk : precheck i c.due c.payload b = none)
include ht hs hi hk

/-- The checks that every command meets are met, and FERRY_LAND's own follow. -/
theorem ferryLand_judged :
    ferryLand c b =
      let tok : Tok := { op := 0x0C02, tag := c.tag.toNat, noReply := c.noReply, late := false, gen := b.proc.gen }
      match landRefused c.payload b with
      | some r => b.finish tok b.now false (refusedWith r)
      | none =>
        if (cmdDue c).any (fun d => !b.isPast d) && decide (256 ≤ b.dueHeld) then
          b.finish tok b.now false (refusedWith .busyBackpressure)
        else takeLand tok (cmdDue c) b := by
  simp only [ferryLand, ht, hs, hi, hk, Bool.not_true, Bool.false_eq_true, if_false]
  rfl

theorem ferryLand_refused {r : Reason} (hr : landRefused c.payload b = some r) :
    ferryLand c b =
      b.finish { op := 0x0C02, tag := c.tag.toNat, noReply := c.noReply, late := false, gen := b.proc.gen } b.now false
        (refusedWith r) := by
  rw [ferryLand_judged ht hs hi hk, hr]

theorem ferryLand_taken (hr : landRefused c.payload b = none)
    (hd : ((cmdDue c).any (fun d => !b.isPast d) && decide (256 ≤ b.dueHeld)) = false) :
    ferryLand c b =
      takeLand { op := 0x0C02, tag := c.tag.toNat, noReply := c.noReply, late := false, gen := b.proc.gen } (cmdDue c) b := by
  rw [ferryLand_judged ht hs hi hk, hr]
  exact if_neg (by rw [hd]; exact Bool.false_ne_true)

end

/-! ### FERRY_HASH (R507) -/

/-- The hash is valid, and those that waited for it have their reply. -/
theorem ferryHashDone_replies {cs : List (Tok × Nat)} (h : b.fry.hashing = some cs) :
    ferryHashDone b =
      let h := crc32c (b.lpddrBytes (libBase b) (libSize b))
      let mib := libSize b / 2 ^ 20
      let b1 := ((b.setWord rFERRY_LIB_HASH h).setWord (rFERRY_LIB_HASH + 4) mib).wr fFERRY_STAT_HASH_VALID 1
      let b2 := { b1 with fry := { b1.fry with hashing := none, hashThenBoard := false } }
      let b3 := forL cs (fun c b => b.finish c.1 c.2 false (ok (toLE 4 h ++ toLE 4 mib))) b2
      if b3.isPrimary && ferryState b3 == 8 && b3.rd fFERRY_STAT_PEER_STATE == 1 then serveShadow 1 b3 else b3 := by
  rw [ferryHashDone, h]

end

/-- Settles O60: each command by its checks and what its effect answers, FERRY_LAND by its own refusals. -/
theorem ferryCommands : Obligations.FerryCommands := by
  unfold Obligations.FerryCommands
  intro b c p
  refine ⟨fun hr hk => ⟨fun h => ?asks, fun h => ?falls⟩, fun hr hs hl hb => ?board,
    fun i ht hs hi hk => ⟨fun r h => ?refused, fun h hd => ?taken⟩, fun hr => ?hash, fun cs h => ?hashDone, fun hr => ?status⟩
  case asks => exact replies_of_meets (fun _ => rfl) hr hk (mFerrySetRole_asks h _ _)
  case falls => exact replies_of_meets (fun _ => rfl) hr hk (mFerrySetRole_falls h _ _)
  case board => exact replies_of_meets (fun _ => rfl) hr (mFerryBoard_meets hs hl hb) rfl
  case refused => exact ends_of_eq (fun _ => rfl) (ferryLand_refused ht hs hi hk h)
  case taken => exact ends_of_eq (fun _ => rfl) (ferryLand_taken ht hs hi hk h hd)
  case hash => exact replies_of_meets (m := mFerryHash) (fun _ => rfl) hr rfl rfl
  case hashDone => exact ends_of_eq (fun _ => rfl) (ferryHashDone_replies h)
  case status => exact replies_of_meets (m := mFerryStatus) (fun _ => rfl) hr rfl rfl

end Sys2Proof.Machine
end
